-- ==== Sys2Proof/Word.lean ====
section
/-! DEFINITION. The word types of the KX2 block: bytes, register words and the wider
fields that the manual adds, shifts or masks (00_scope.md R4, 03 R61). -/
namespace Sys2Proof

/-- One byte of package memory or of a frame. -/
abbrev Byte := BitVec 8
/-- A 16-bit field. -/
abbrev W16 := BitVec 16
/-- One register or record word (02 R29: every transfer is one full 32-bit word). -/
abbrev W32 := BitVec 32
/-- A 48-bit count: step counters, completion counts (00 R10). -/
abbrev W48 := BitVec 48
/-- A 64-bit word: KTIME, seeds, binary64 patterns. -/
abbrev W64 := BitVec 64
/-- A byte string, first byte first. -/
abbrev Bytes := List Byte

end Sys2Proof
end

