-- ==== Sys2Proof/Syntax.lean ====
section
/-! DEFINITION. The commands of the block, one constructor for each row of the table of operations and
events, with the operands that the surroundings choose. -/
namespace Sys2Proof

/-- A context ID (00 Table 0-5: 12 bits). -/
abbrev Ctx := BitVec 12
/-- A byte address on the control port (02 Table 2-1: the port carries bits [23:2]). -/
abbrev Addr := BitVec 24
/-- A page: bits [23:12] of its base address (02 R33). -/
abbrev Page := BitVec 12
/-- A Tun, MAC or Malt port index. -/
abbrev Port := BitVec 4
/-- A leaf port index. -/
abbrev Leaf := BitVec 6
/-- A logical node ID (00 Table 0-5: 18 bits). -/
abbrev Node := BitVec 18

/-- The two ends of a control command that runs for a while: the write to CTL_CMD that starts it, and
its end (02 R43, R45: an abort acts in between). -/
inductive CmdPhase where
  | doorbell
  | ends
  deriving DecidableEq, Repr

/-- One control-port transfer (02 R29, R31): direction, byte address, data, whether the host dropped
KCP_SEL, and the bits that an event meeting the write sets (R36). -/
structure KcpReq where
  wr : Bool
  addr : Addr
  val : W32
  dropped : Bool
  meet : W32
  deriving DecidableEq, Repr

/-- How an engine descriptor ran: the hc from its start to its end (07 R172), the correctable Hearth
errors it met, and the uncorrectable error, if any: how many bytes of its memory writes had been issued, and
the Hearth location (tile, row) when the error lay there (07 Table 7-3 ECC, R189). -/
structure Run where
  hc : Nat
  corr : Nat
  ecc : Option (Nat × Option (BitVec 5 × BitVec 8))
  deriving DecidableEq, Repr

/-- How the sort of a context ended: the uncorrectable error that met it, if any, by how many bytes of its output had been
written (07 Table 7-3 ECC, R176). -/
structure SortEnd where
  ctx : Ctx
  ecc : Option Nat
  deriving DecidableEq, Repr

/-- What the spare of a recovery transfer pulled from a counterpart for one update record (12 R342, R343): the
Cask record, the gradient banks of the slow-tier steps not yet applied (step, bytes), and after the last record
what is republished for its context: step, whether its verdict was skip, address of the publication word, CMPL_CNT after
that step. -/
structure Pull where
  cask : Bytes
  banks : List (Nat × Bytes)
  publish : Option (Nat × Bool × Nat × Nat)
  deriving DecidableEq, Repr

/-- A PTP timestamp (13 Table 13-1): seconds, nanoseconds, and the 0.5 ns in correctionField. -/
structure PtpTime where
  sec : BitVec 48
  ns : BitVec 32
  half : Bool
  deriving DecidableEq, Repr

/-- What a scan reads from one module (13 R374): its port, CMIS identifier, byte 3, OUI, part number, serial number and
Position Record. A mapped port without one gives no acknowledge at 0x50. -/
structure Module where
  port : Port
  ident : Byte
  state : Byte
  oui : Bytes
  part : Bytes
  serial : Bytes
  record : Bytes
  deriving DecidableEq, Repr

/-- The commands of the block: one constructor for each row of the table of operations and events. -/
inductive Instr where
  /-- REGISTER_WRITE (R30). -/
  | registerWrite (addr : Addr) (val : W32)
  /-- KCP_SEL_DROPPED (R31). -/
  | kcpSelDropped (wr : Bool) (addr : Addr) (val : W32)
  /-- PG_KEY (R35). -/
  | pgKey (page : Page) (val : W32)
  /-- QUIESCE (R34). -/
  | quiesce (page : Page)
  /-- QUIESCE_CLEAR (R34). -/
  | quiesceClear (page : Page)
  /-- QUIESCED (R34). -/
  | quiesced (page : Page)
  /-- SOFT_RESET (R403). -/
  | softReset (page : Page)
  /-- PG_ERR_CLEAR (R36). -/
  | pgErrClear (page : Page) (val : W32) (meet : W32)
  /-- PG_ERR_SET (R36). -/
  | pgErrSet (page : Page) (val : W32)
  /-- PG_CNT_SEL (R33). -/
  | pgCntSel (page : Page) (val : W32)
  /-- CTL_ATTN (R39). -/
  | ctlAttn (val : W32) (meet : W32)
  /-- CTL_ABORT (R45). -/
  | ctlAbort (val : W32)
  /-- KEY_LOAD (R44). -/
  | keyLoad (ph : CmdPhase)
  /-- KEY_ERASE (R44). -/
  | keyErase (ph : CmdPhase)
  /-- PORT_ALIGN (R46). -/
  | portAlign
  /-- IDENT_SCAN (R374). -/
  | identScan (ph : CmdPhase)
  /-- POWER_STATE (R388). -/
  | powerState
  /-- BAD_OPCODE (R43). -/
  | badOpcode (op : BitVec 8)
  /-- POWER_STATE_DONE (R388). -/
  | powerStateDone
  /-- CTL_PORT_EXPECT (R56). -/
  | ctlPortExpect (idx : BitVec 2) (val : W32)
  /-- KCP_RESET (R58). -/
  | kcpReset (cycles : Nat) (req : Option KcpReq) (reached : Bool)
  /-- KCP_ALIGNED (R54). -/
  | kcpAligned
  /-- COLD_RESET (R50). -/
  | coldReset
  /-- WARM_RESET (R50). -/
  | warmReset (cycles : Nat)
  /-- SRAM_INIT_DONE (R51). -/
  | sramInitDone
  /-- ALIGN_PRESENCE (R53). -/
  | alignPresence (edge : Bool)
  /-- ALIGN_FREQUENCY (R53). -/
  | alignFrequency (cls : BitVec 3) (idx : BitVec 6) (count : Nat)
  /-- ALIGN_FILL (R53). -/
  | alignFill (cls : BitVec 3) (idx : BitVec 6) (tokens : List W32)
  /-- ALIGN_LOCK (R53). -/
  | alignLock (cls : BitVec 3) (idx : BitVec 6) (ok : Bool)
  /-- WINDOW_DATA_READ (R403). -/
  | windowDataRead (addr : Addr)
  /-- WINDOW_DATA_WRITE (R403). -/
  | windowDataWrite (addr : Addr) (val : W32)
  /-- READ_CLEAR (R5). -/
  | readClear (addr : Addr)
  /-- LOAD (R414). -/
  | load (val : W32)
  /-- RING_DOORBELL (R49). -/
  | ringDoorbell (val : W32)
  /-- CONTEXT_READY (R415). -/
  | contextReady (ctx : Ctx)
  /-- HOP_CTX_RESET (R52). -/
  | hopCtxReset (val : W32)
  /-- CONTEXT_RESET (R52). -/
  | contextReset (ctx : Ctx)
  /-- DESCRIPTOR_FETCH (R198). -/
  | descriptorFetch (ctx : Ctx)
  /-- ANVIL_GRANT (R18). -/
  | anvilGrant (sliceHc : Nat)
  /-- ACCOUNTING_WINDOW_END (R172). -/
  | accountingWindowEnd (run : Nat)
  /-- NOP (R180). -/
  | nop (ctx : Ctx)
  /-- STEP (R181). -/
  | step (ctx : Ctx)
  /-- STEP_END (R181). -/
  | stepEnd (ctx : Ctx)
  /-- WAIT_CNT (R182). -/
  | waitCnt (ctx : Ctx)
  /-- WAIT_CNT_MET (R182). -/
  | waitCntMet (ctx : Ctx)
  /-- WRITE_IMM (R183). -/
  | writeImm (ctx : Ctx)
  /-- VOP (R184). -/
  | vop (ctx : Ctx) (run : Run)
  /-- VRED (R186). -/
  | vred (ctx : Ctx) (run : Run)
  /-- SORT (R188). -/
  | sort (ctx : Ctx)
  /-- SORT_DONE (R109). -/
  | sortDone (fin : SortEnd)
  /-- TLOAD (R192). -/
  | tload (ctx : Ctx) (run : Run)
  /-- TSTORE (R193). -/
  | tstore (ctx : Ctx) (run : Run)
  /-- TBCAST (R194). -/
  | tbcast (ctx : Ctx) (run : Run)
  /-- MMT (R196). -/
  | mmt (ctx : Ctx) (run : Run)
  /-- BAD_OP (R180). -/
  | badOp (ctx : Ctx)
  /-- DESCRIPTOR_COMPLETE (R179). -/
  | descriptorComplete (ctx : Ctx)
  /-- U_APPLY (R214). -/
  | uApply (ctx : Ctx) (run : Run)
  /-- U_PUBLISH (R215). -/
  | uPublish (ctx : Ctx)
  /-- K_DELTA (R227). -/
  | kDelta (ctx : Ctx) (run : Run)
  /-- U_CASK_OUT (R230). -/
  | uCaskOut (ctx : Ctx) (run : Run)
  /-- U_CASK_IN (R231). -/
  | uCaskIn (ctx : Ctx) (run : Run)
  /-- LEAF_TILE (R139). -/
  | leafTile (leaf : Leaf) (tile : Bytes)
  /-- GROUP_DELIVERY (R142). -/
  | groupDelivery (slot : W16) (elem : BitVec 40)
  /-- LEAF_STALL (R143). -/
  | leafStall
  /-- PATTERN_SOURCE (R401). -/
  | patternSource (ctx : Ctx)
  /-- QUANTISE_BLOCK (R106). -/
  | quantiseBlock (slot : W16) (blk : BitVec 28)
  /-- ORIGIN_BLOCK_SEND (R160). -/
  | originBlockSend (ctx : Ctx) (bslot : W16)
  /-- DATA (R247). -/
  | data
  /-- BLOCK_EMIT (R148). -/
  | blockEmit (ctx : Ctx) (bslot : W16) (blk : BitVec 20)
  /-- OWNER_FRONT (R209). -/
  | ownerFront
  /-- RELEASE (R332). -/
  | release (ctx : Ctx)
  /-- ACK (R245). -/
  | ack
  /-- CREDIT (R246). -/
  | credit
  /-- EGRESS_GRANT (R260). -/
  | egressGrant (port : Port)
  /-- RETRY_TIMEOUT (R242). -/
  | retryTimeout
  /-- LIFETIME_END (R243). -/
  | lifetimeEnd
  /-- PORT_DOWN (R258). -/
  | portDown (port : Port)
  /-- LINK_UP (R257). -/
  | linkUp (port : Port)
  /-- PORT_UP (R257). -/
  | portUp (port : Port)
  /-- REASSEMBLY_TIMEOUT (R252). -/
  | reassemblyTimeout
  /-- COOLING_EXPIRY (R248). -/
  | coolingExpiry
  /-- GEN_COOLING_END (R250). -/
  | genCoolingEnd
  /-- KX1_FRAME (R265). -/
  | kx1Frame (port : Port) (frame : Bytes)
  /-- TNG_Q_DB (R280). -/
  | tngQDb (val : W32)
  /-- TNG_Q_RESET (R280). -/
  | tngQReset (val : W32)
  /-- QUEUE_NOP (R281). -/
  | queueNop (q : BitVec 10)
  /-- QUEUE_WRITE (R282). -/
  | queueWrite (q : BitVec 10) (ecc : Bool)
  /-- QUEUE_READ (R282). -/
  | queueRead (q : BitVec 10)
  /-- WAIT_LCNT (R282). -/
  | waitLcnt (q : BitVec 10)
  /-- WAIT_LCNT_MET (R282). -/
  | waitLcntMet (q : BitVec 10)
  /-- WAIT_RCNT (R282). -/
  | waitRcnt (q : BitVec 10)
  /-- QUEUE_POLL (R282). -/
  | queuePoll (q : BitVec 10)
  /-- PUBCHK (R282). -/
  | pubchk (q : BitVec 10)
  /-- TONGS_WRITE (R276). -/
  | tongsWrite
  /-- TONGS_WRITE_DONE (R276). -/
  | tongsWriteDone
  /-- TONGS_READ (R276). -/
  | tongsRead (poison : Bool)
  /-- CNT_READ (R276). -/
  | cntRead
  /-- RRESP (R282). -/
  | rresp
  /-- CNT_RESP (R282). -/
  | cntResp
  /-- NAK (R285). -/
  | nak
  /-- DONE_EXPIRY (R278). -/
  | doneExpiry
  /-- KEY_HI (R268). -/
  | keyHi (val : W32)
  /-- KEY_CLR (R268). -/
  | keyClr (val : W32)
  /-- ARRIVAL_COUNT_CLEAR (R432). -/
  | arrivalCountClear (val : W32)
  /-- PARTITION_ENABLE (R291). -/
  | partitionEnable (inst : BitVec 4) (val : W32)
  /-- PARTITION_DISABLE (R311). -/
  | partitionDisable (inst : BitVec 4) (val : W32)
  /-- INIT_DONE (R299). -/
  | initDone (inst : BitVec 4) (part : BitVec 3)
  /-- MLT_PACK_GO (R302). -/
  | mltPackGo (inst : BitVec 4) (val : W32)
  /-- PACK_PASS1_END (R302). -/
  | packPass1End (inst : BitVec 4)
  /-- PACK_END (R302). -/
  | packEnd (inst : BitVec 4)
  /-- CLIENT_READ (R297). -/
  | clientRead (inst : BitVec 4) (addr : BitVec 48) (len : BitVec 13) (poison : Bool)
  /-- CLIENT_WRITE (R298). -/
  | clientWrite (inst : BitVec 4) (addr : BitVec 48) (data : Bytes)
  /-- REFILL (R308). -/
  | refill
  /-- CHANNEL_ADMIT (R308). -/
  | channelAdmit (inst : BitVec 4) (tun : Option Nat)
  /-- REGULATOR_WRITE (R309). -/
  | regulatorWrite (addr : Addr) (val : W32)
  /-- HEARTBEAT_PERIOD (R315). -/
  | heartbeatPeriod
  /-- HEARTBEAT (R315). -/
  | heartbeat
  /-- HEARTBEAT_TIMEOUT (R316). -/
  | heartbeatTimeout
  /-- FAILREP (R316). -/
  | failrep
  /-- VUP_SEND (R320). -/
  | vupSend (ctx : Ctx)
  /-- VUP (R322). -/
  | vup
  /-- VDOWN (R326). -/
  | vdown
  /-- SCALES_READY (R86). -/
  | scalesReady (ctx : Ctx)
  /-- VWAIT_EXPIRY (R328). -/
  | vwaitExpiry (ctx : Ctx)
  /-- VQUERY (R328). -/
  | vquery
  /-- ADOPT (R341). -/
  | adopt
  /-- INCARN (R340). -/
  | incarn
  /-- RECOVERY_TRANSFER (R342). -/
  | recoveryTransfer (urec : W16) (pull : Option Pull)
  /-- READY_SEND (R341). -/
  | readySend
  /-- READY (R340). -/
  | ready
  /-- RESUME (R345). -/
  | resume
  /-- RESYNC (R341). -/
  | resync
  /-- JOIN (R348). -/
  | join
  /-- LOCKSIG (R351). -/
  | locksig
  /-- LSLIST (R351). -/
  | lslist
  /-- PARK (R353). -/
  | park (val : W32)
  /-- WAKE (R353). -/
  | wake (val : W32)
  /-- GRD_VERDICT_FORCE (R437). -/
  | grdVerdictForce (val : W32)
  /-- SYNC_INTERVAL (R362). -/
  | syncInterval (child : Node) (cycles : BitVec 4)
  /-- SYNC (R363). -/
  | sync (src : Node) (dom : BitVec 7) (seq : W16) (cycles : BitVec 4)
  /-- FOLLOW_UP (R363). -/
  | followUp (src : Node) (dom : BitVec 7) (seq : W16) (t1 : PtpTime) (cycles : BitVec 4)
  /-- DELAY_REQ (R363). -/
  | delayReq (src : Node) (dom : BitVec 7) (seq : W16) (cycles : BitVec 4)
  /-- DELAY_RESP (R365). -/
  | delayResp (src : Node) (dom : BitVec 7) (seq : W16) (t4 : PtpTime)
  /-- ANNOUNCE (R362). -/
  | announce
  /-- SYNC_LOSS (R364). -/
  | syncLoss (alt : Bool)
  /-- HOLD_MAX_REACHED (R368). -/
  | holdMaxReached
  /-- SYNC_EN (R364). -/
  | syncEn (val : W32)
  /-- TIME_HOLD_MAX (R367). -/
  | timeHoldMax (val : W32)
  /-- KTICK (R371). -/
  | ktick
  /-- SCAN_DONE (R374). -/
  | scanDone (modules : List Module) (noSwitch : BitVec 2)
  /-- KSCL_STUCK (R377). -/
  | ksclStuck (port : Port)
  /-- KSDA_STUCK (R377). -/
  | ksdaStuck (port : Port)
  /-- AUTO_SCAN (R381). -/
  | autoScan
  /-- IDEN_CHECK_GO (R380). -/
  | idenCheckGo (val : W32)
  /-- CHECK_DONE (R380). -/
  | checkDone
  /-- TELEMETRY_SAMPLE (R384). -/
  | telemetrySample (word : W32) (fillHc : W16)
  /-- WEAR_ADVANCE (R389). -/
  | wearAdvance
  /-- KCURT_CHANGE (R386). -/
  | kcurtChange (level : Bool)
  /-- GRID_EVENT (R386). -/
  | gridEvent
  /-- DMP_WEAR_SEL (R439). -/
  | dmpWearSel (val : W32)
  /-- DMP_WEAR_DATA (R439). -/
  | dmpWearData (val : W32)
  /-- LOADED (R391). -/
  | loaded (val : W32)
  /-- SEGMENT (R252). -/
  | segment (port : Port) (frame : Bytes)
  /-- HB_EN (R348). -/
  | hbEn (val : W32)
  /-- RESET_RELEASE (R55). -/
  | resetRelease
  /-- LOCAL_WRITE_ACK (R282). -/
  | localWriteAck
  deriving DecidableEq, Repr

end Sys2Proof
end

