-- ==== Sys2Proof/Machine/Bits.lean ====
section
/-! DEFINITION. Bit fields of words, little-endian byte strings and the CRC-32C of 03 R82. -/
namespace Sys2Proof.Machine
open Sys2Proof

/-- Bits `[lo+n-1:lo]` of a natural number. -/
def nfld (x lo n : Nat) : Nat := (x >>> lo) % 2 ^ n

/-- Bits `[lo+n-1:lo]` of a 32-bit word (the manual writes `[msb:lsb]`, 00 R4). -/
def fld (w : W32) (lo n : Nat) : Nat := nfld w.toNat lo n

/-- One bit of a 32-bit word. -/
def bit (w : W32) (i : Nat) : Bool := w.getLsbD i

/-- The word with bits `[lo+n-1:lo]` replaced. -/
def setFld (w : W32) (lo n v : Nat) : W32 :=
  let m : W32 := BitVec.ofNat 32 ((2 ^ n - 1) <<< lo)
  (w &&& ~~~m) ||| (BitVec.ofNat 32 ((v % 2 ^ n) <<< lo))

/-- `0` or `1` from a condition. -/
def b2n (b : Bool) : Nat := if b then 1 else 0

/-- The signed value of the low `n` bits of `x` read as two's complement. -/
def sgn (n x : Nat) : Int :=
  let y := x % 2 ^ n
  if y < 2 ^ (n - 1) then (y : Int) else (y : Int) - (2 ^ n : Nat)

/-- The low `n` bits of an integer in two's complement. -/
def unsgn (n : Nat) (x : Int) : Nat := (x % ((2 ^ n : Nat) : Int)).toNat

/-- `⌈a / b⌉`. -/
def cdiv (a b : Nat) : Nat := (a + b - 1) / b

/-- `n` rounded up to a multiple of `k`. -/
def padTo (k n : Nat) : Nat := cdiv n k * k

/-- `PAD8` of 04 R111. -/
def pad8 (n : Nat) : Nat := padTo 8 n

/-- The `n` low bytes of `x`, least significant first. -/
def leBytes : Nat → Nat → Bytes
  | 0, _ => []
  | n + 1, x => BitVec.ofNat 8 x :: leBytes n (x >>> 8)

/-- The number whose little-endian bytes are given. -/
def ofLe : Bytes → Nat
  | [] => 0
  | b :: bs => b.toNat + ofLe bs * 256

/-- `n` zero bytes. -/
def zeros (n : Nat) : Bytes := List.replicate n 0

/-- A byte string cut or zero-padded to `n` bytes. -/
def fitBytes (n : Nat) (bs : Bytes) : Bytes := bs.take n ++ zeros (n - bs.length)

/-- One bit step of the reflected Castagnoli polynomial 0x1EDC_6F41 (03 R82). -/
def crcBit (c : Nat) : Nat :=
  if c % 2 = 1 then (c >>> 1) ^^^ 0x82F63B78 else c >>> 1

/-- One byte step of CRC-32C. -/
def crcByte (c : Nat) (b : Byte) : Nat :=
  crcBit (crcBit (crcBit (crcBit (crcBit (crcBit (crcBit (crcBit (c ^^^ b.toNat))))))))

/-- CRC-32C with initial value and final XOR 0xFFFF_FFFF (03 R82). -/
def crc32c (bs : Bytes) : Nat := (bs.foldl crcByte 0xFFFFFFFF) ^^^ 0xFFFFFFFF

/-- The elements of a list with their indexes, counted from `k`. -/
def indexed {α : Type} : Nat → List α → List (Nat × α)
  | _, [] => []
  | k, x :: xs => (k, x) :: indexed (k + 1) xs

/-- The list with element `i` replaced (unchanged when there is none). -/
def setAt {α : Type} : List α → Nat → α → List α
  | [], _, _ => []
  | _ :: xs, 0, v => v :: xs
  | x :: xs, i + 1, v => x :: setAt xs i v

/-- The list cut into pieces of `n` elements, `fuel` pieces at most. -/
def chunksF {α : Type} (n : Nat) : Nat → List α → List (List α)
  | 0, _ => []
  | _, [] => []
  | f + 1, xs => xs.take n :: chunksF n f (xs.drop n)

/-- The list cut into pieces of `n` elements. -/
def chunks {α : Type} (n : Nat) (xs : List α) : List (List α) := chunksF n xs.length xs

/-- Insertion of `x` behind every element that is not after it: a stable sort's step. -/
def insertBy {α : Type} (lt : α → α → Bool) (x : α) : List α → List α
  | [] => [x]
  | y :: ys => if lt x y then x :: y :: ys else y :: insertBy lt x ys

/-- A stable insertion sort: equal elements keep their order. -/
def sortBy {α : Type} (lt : α → α → Bool) (xs : List α) : List α :=
  xs.foldl (fun acc x => insertBy lt x acc) []

/-- Replace the first element that satisfies `p`. -/
def replaceFirst {α : Type} (p : α → Bool) (f : α → α) : List α → List α
  | [] => []
  | x :: xs => if p x then f x :: xs else x :: replaceFirst p f xs

/-- A counter that stops at `2^n - 1` ("saturating"). -/
def satAdd (n a b : Nat) : Nat := min (a + b) (2 ^ n - 1)

end Sys2Proof.Machine
end

