-- ==== Sys2Proof/Machine/Float.lean ====
section
/-! DEFINITION. IEEE 754-2019 binary formats and their arithmetic by exact numbers: round to
nearest, ties to even, no flushing of subnormals, every NaN the canonical one (05 R122, R123).
A pattern is a natural number; a finite value is `± m × 2^e`. -/
namespace Sys2Proof.Machine
open Sys2Proof

/-- A binary format: exponent bits and fraction bits. -/
structure Fmt where
  eb : Nat
  mb : Nat
  deriving DecidableEq, Repr

/-- binary16 (05 Table 5-1). -/
def f16 : Fmt := ⟨5, 10⟩
/-- bfloat16. -/
def bf16 : Fmt := ⟨8, 7⟩
/-- binary32. -/
def f32 : Fmt := ⟨8, 23⟩
/-- binary64. -/
def f64 : Fmt := ⟨11, 52⟩

/-- Format codes of 04 Table 4-2 SRC and 07 R184: 0 BF16, 1 FP16, 2 FP32, 3 FP64. -/
def fmtOf (c : Nat) : Fmt := if c = 0 then bf16 else if c = 1 then f16 else if c = 2 then f32 else f64

/-- Bytes of one element of a format code. -/
def fmtBytes (c : Nat) : Nat := if c ≤ 1 then 2 else if c = 2 then 4 else 8

/-- The value classes of an operand (05 R123: all NaNs are one class). -/
inductive FVal where
  | nan
  | inf (neg : Bool)
  | fin (neg : Bool) (m : Nat) (e : Int)
  deriving DecidableEq, Repr

/-- Exponent bias. -/
def Fmt.bias (f : Fmt) : Nat := 2 ^ (f.eb - 1) - 1
/-- The all-ones exponent. -/
def Fmt.emax (f : Fmt) : Nat := 2 ^ f.eb - 1
/-- The exponent of the least subnormal bit. -/
def Fmt.qmin (f : Fmt) : Int := 1 - (f.bias : Int) - (f.mb : Int)
/-- The sign bit as a number. -/
def Fmt.sbit (f : Fmt) (neg : Bool) : Nat := if neg then 2 ^ (f.eb + f.mb) else 0
/-- The pattern of an infinity. -/
def Fmt.inf (f : Fmt) (neg : Bool) : Nat := f.sbit neg + f.emax * 2 ^ f.mb
/-- The canonical NaN of 05 Table 5-1. -/
def Fmt.qnan (f : Fmt) : Nat := f.emax * 2 ^ f.mb + 2 ^ (f.mb - 1)
/-- The largest finite pattern. -/
def Fmt.maxFin (f : Fmt) (neg : Bool) : Nat := f.sbit neg + f.emax * 2 ^ f.mb - 1

/-- The value of a pattern. -/
def decF (f : Fmt) (x : Nat) : FVal :=
  let neg := x.testBit (f.eb + f.mb)
  let e := nfld x f.mb f.eb
  let m := x % 2 ^ f.mb
  if e = f.emax then (if m = 0 then .inf neg else .nan)
  else if e = 0 then .fin neg m f.qmin
  else .fin neg (m + 2 ^ f.mb) (f.qmin + (e : Int) - 1)

/-- `⌊log2 (num / den)⌋` for positive `num`, `den`. -/
def qlog2 (num den : Nat) : Int :=
  let e : Int := (Nat.log2 num : Int) - (Nat.log2 den : Int)
  let ge : Bool := if 0 ≤ e then den * 2 ^ e.toNat ≤ num else den ≤ num * 2 ^ (-e).toNat
  if ge then e else e - 1

/-- `num / den` to the nearest integer, ties to even. -/
def divRne (num den : Nat) : Nat :=
  let q := num / den
  let r := num % den
  if 2 * r < den then q else if den < 2 * r then q + 1 else q + q % 2

/-- The pattern nearest to `± num / den`, ties to even; at or beyond the overflow threshold an
infinity (05 R122). A zero value keeps the sign it is given. -/
def encQ (f : Fmt) (neg : Bool) (num den : Nat) : Nat :=
  if num = 0 then f.sbit neg
  else
    let q := max (qlog2 num den - (f.mb : Int)) f.qmin
    let n := if 0 ≤ q then divRne num (den * 2 ^ q.toNat) else divRne (num * 2 ^ (-q).toNat) den
    let p := (q - f.qmin).toNat * 2 ^ f.mb + n
    if f.emax * 2 ^ f.mb ≤ p then f.inf neg else f.sbit neg + p

/-- The pattern nearest to `± m × 2^e`. -/
def encD (f : Fmt) (neg : Bool) (m : Nat) (e : Int) : Nat :=
  if 0 ≤ e then encQ f neg (m * 2 ^ e.toNat) 1 else encQ f neg m (2 ^ (-e).toNat)

/-- The pattern nearest to a value. -/
def encF (f : Fmt) : FVal → Nat
  | .nan => f.qnan
  | .inf n => f.inf n
  | .fin n m e => encD f n m e

/-- Conversion between formats, rounded to nearest even; exact when it widens. -/
def cvt (src dst : Fmt) (x : Nat) : Nat := encF dst (decF src x)

/-- The signed significand. -/
def smant (neg : Bool) (m : Nat) : Int := if neg then -(m : Int) else m

/-- A finite value of a signed significand; an exact zero takes the sign `zneg`. -/
def ofInt (zneg : Bool) (n : Int) (e : Int) : FVal :=
  if n = 0 then .fin zneg 0 e else .fin (n < 0) n.natAbs e

/-- Exact sum. An exact zero is `+0` unless both addends are negative zeros (05 R122). -/
def vadd : FVal → FVal → FVal
  | .nan, _ => .nan
  | _, .nan => .nan
  | .inf a, .inf b => if a = b then .inf a else .nan
  | .inf a, _ => .inf a
  | _, .inf b => .inf b
  | .fin a m e, .fin b n k =>
    let c := min e k
    ofInt (a && b && m = 0 && n = 0)
      (smant a m * 2 ^ (e - c).toNat + smant b n * 2 ^ (k - c).toNat) c

/-- Negation. -/
def vneg : FVal → FVal
  | .nan => .nan
  | .inf a => .inf (!a)
  | .fin a m e => .fin (!a) m e

/-- Exact product. -/
def vmul : FVal → FVal → FVal
  | .nan, _ => .nan
  | _, .nan => .nan
  | .inf a, .inf b => .inf (a != b)
  | .inf a, .fin b n _ => if n = 0 then .nan else .inf (a != b)
  | .fin a m _, .inf b => if m = 0 then .nan else .inf (a != b)
  | .fin a m e, .fin b n k => .fin (a != b) (m * n) (e + k)

/-- `x × 2^k`, exact. -/
def vshift (k : Int) : FVal → FVal
  | .fin a m e => .fin a m (e + k)
  | v => v

/-- Addition in a format. -/
def fadd (f : Fmt) (x y : Nat) : Nat := encF f (vadd (decF f x) (decF f y))
/-- Subtraction in a format. -/
def fsub (f : Fmt) (x y : Nat) : Nat := encF f (vadd (decF f x) (vneg (decF f y)))
/-- Multiplication in a format. -/
def fmul (f : Fmt) (x y : Nat) : Nat := encF f (vmul (decF f x) (decF f y))
/-- `x × y + z`, rounded once (08 R219 FMA). -/
def ffma (f : Fmt) (x y z : Nat) : Nat := encF f (vadd (vmul (decF f x) (decF f y)) (decF f z))
/-- `ldexp` (05 R122). -/
def fldexp (f : Fmt) (x : Nat) (k : Int) : Nat := encF f (vshift k (decF f x))
/-- Negation of a pattern; a NaN stays the canonical one. -/
def fneg (f : Fmt) (x : Nat) : Nat := encF f (vneg (decF f x))

/-- Division, correctly rounded. -/
def fdiv (f : Fmt) (x y : Nat) : Nat :=
  match decF f x, decF f y with
  | .nan, _ => f.qnan
  | _, .nan => f.qnan
  | .inf _, .inf _ => f.qnan
  | .inf a, .fin b _ _ => f.inf (a != b)
  | .fin a _ _, .inf b => f.sbit (a != b)
  | .fin a m e, .fin b n k =>
    if n = 0 then (if m = 0 then f.qnan else f.inf (a != b))
    else
      let d := e - k
      if 0 ≤ d then encQ f (a != b) (m * 2 ^ d.toNat) n
      else encQ f (a != b) m (n * 2 ^ (-d).toNat)

/-- Integer square root by `fuel` Newton steps from above. -/
def isqrtF : Nat → Nat → Nat → Nat
  | 0, _, x => x
  | k + 1, n, x =>
    let y := (x + n / x) / 2
    if y < x then isqrtF k n y else x

/-- `⌊√n⌋`. -/
def isqrt (n : Nat) : Nat := if n = 0 then 0 else isqrtF (Nat.log2 n + 2) n (2 ^ (Nat.log2 n / 2 + 1))

/-- Correctly rounded square root (08 R219 SQRT): the root to at least two spare bits, with a sticky
bit below it. A negative operand other than a zero gives NaN. -/
def fsqrt (f : Fmt) (x : Nat) : Nat :=
  match decF f x with
  | .nan => f.qnan
  | .inf a => if a then f.qnan else f.inf false
  | .fin a m e =>
    if m = 0 then f.sbit a
    else if a then f.qnan
    else
      let k : Nat := 2 * (f.mb + 4) + (if e % 2 = 0 then 0 else 1)
      let n := m * 2 ^ k
      let r := isqrt n
      let s := 2 * r + (if r * r = n then 0 else 1)
      encD f false s ((e - (k : Int)) / 2 - 1)

/-- The magnitude pattern: the sign bit cleared. -/
def fabsBits (f : Fmt) (x : Nat) : Nat := x % 2 ^ (f.eb + f.mb)

/-- Not a NaN and not an infinity. -/
def isFin (f : Fmt) (x : Nat) : Bool := nfld x f.mb f.eb != f.emax
/-- A NaN. -/
def isNan (f : Fmt) (x : Nat) : Bool := nfld x f.mb f.eb == f.emax && x % 2 ^ f.mb != 0
/-- An infinity. -/
def isInf (f : Fmt) (x : Nat) : Bool := nfld x f.mb f.eb == f.emax && x % 2 ^ f.mb == 0
/-- A zero of either sign. -/
def isZero (f : Fmt) (x : Nat) : Bool := fabsBits f x == 0
/-- The canonical form of a NaN; any other pattern unchanged (05 R123). -/
def canon (f : Fmt) (x : Nat) : Nat := if isNan f x then f.qnan else x

/-- `x < y` for two values that are not NaNs. -/
def vlt : FVal → FVal → Bool
  | .nan, _ => false
  | _, .nan => false
  | .inf a, .inf b => a && !b
  | .inf a, _ => a
  | _, .inf b => !b
  | .fin a m e, .fin b n k =>
    let c := min e k
    smant a m * 2 ^ (e - c).toNat < smant b n * 2 ^ (k - c).toNat

/-- `x < y`; false when either is a NaN. -/
def flt (f : Fmt) (x y : Nat) : Bool := vlt (decF f x) (decF f y)
/-- `x ≤ y`; false when either is a NaN. -/
def fle (f : Fmt) (x y : Nat) : Bool := !isNan f x && !isNan f y && !vlt (decF f y) (decF f x)

/-- MAX of 07 R185 and R184: the canonical NaN when either is a NaN; max(+0, −0) = +0. -/
def fmax (f : Fmt) (x y : Nat) : Nat :=
  if isNan f x || isNan f y then f.qnan
  else if flt f x y then y else if flt f y x then x
  else if isZero f x && isZero f y then (if x = 0 || y = 0 then 0 else x) else x

/-- MIN of 07 R185 and R184: min(+0, −0) = −0. -/
def fmin (f : Fmt) (x y : Nat) : Nat :=
  if isNan f x || isNan f y then f.qnan
  else if flt f x y then x else if flt f y x then y
  else if isZero f x && isZero f y then (if x = 0 then y else x) else x

/-- The nearest value to an integer. -/
def ofIntF (f : Fmt) (n : Int) : Nat := encF f (ofInt false n 0)

/-- Widen a pattern of format code `c` to binary32 (binary64 patterns round; 07 R185). -/
def toF32 (c x : Nat) : Nat := cvt (fmtOf c) f32 x

/-- The nearest integer to a value, ties to even (0 for a NaN or an infinity). -/
def rneInt : FVal → Int
  | .fin neg m e =>
    let n := if 0 ≤ e then m * 2 ^ e.toNat else divRne m (2 ^ (-e).toNat)
    if neg then -(n : Int) else n
  | _ => 0

/-- The floor of a value (0 for a NaN or an infinity). -/
def floorInt : FVal → Int
  | .fin neg m e => if 0 ≤ e then smant neg m * 2 ^ e.toNat else smant neg m / ((2 ^ (-e).toNat : Nat) : Int)
  | _ => 0

/-! ### Sums (06 R156, 07 R196) -/

/-- COMPENSATED of 06 R156 from the second addend on; the compensation term is +0 once the running sum is not finite (05
Table 5-5). -/
def compF : Nat → Nat → List Nat → Nat
  | s, _, [] => s
  | s, c, x :: xs =>
    let t1 := fsub f32 x c
    let t := fadd f32 s t1
    compF t (if isFin f32 t then fsub f32 (fsub f32 t s) t1 else 0) xs
/-- COMPENSATED of 06 R156 (`+0` for no addend); a NaN is the canonical one even of a single addend (05 R123). -/
def compensated : List Nat → Nat
  | [] => 0
  | x :: xs => compF (canon f32 x) 0 xs

/-- A plain running sum in a format, from the first addend (`+0` for none), a NaN in canonical form (05 R123). -/
def runSum (f : Fmt) : List Nat → Nat
  | [] => 0
  | x :: xs => xs.foldl (fadd f) (canon f x)

/-- CHUNKED of 06 R156: binary32 runs of 64 added into a binary64 total; −0 where every addend is −0 (05 Table 5-5, which 06
R156 names for zeros). -/
def chunked (xs : List Nat) : Nat :=
  if xs != [] && xs.all (fun x => x == f32.sbit true) then f32.sbit true
  else cvt f64 f32 ((chunks 64 xs).foldl (fun t c => fadd f64 t (cvt f32 f64 (runSum f32 c))) 0)

/-- Adjacent pairs added. -/
def pairSums : List Nat → List Nat
  | a :: b :: xs => fadd f32 a b :: pairSums xs
  | xs => xs

/-- SUMTREE of 07 R196 on 256 addends. -/
def sumTree (p : List Nat) : Nat :=
  match (List.range 8).foldl (fun v _ => pairSums v) p with
  | x :: _ => x
  | [] => 0

end Sys2Proof.Machine
end

