-- ==== Sys2Proof/Config.lean ====
section
/-! DEFINITION. The free values of the model: constants without a body, so that no proof can rely on a
value that the manual leaves open, and what an integration fixes. Each is applied to what it depends on,
or to the state's plain counter `fresh`. -/
namespace Sys2Proof.Config
open Sys2Proof

/-- The contents of a Hearth element after a claim that did not initialise it (07 R190: unspecified
but stable until written), by claim number and element index. Log entry 3. -/
opaque hearthFree : Nat → Nat → W32

/-- Whether a reset pulse shorter than its minimum resets (02 R442: which outcome is not specified).
Log entry 3. -/
opaque shortPulseResets : Nat → Bool

/-- The ranges of Malt instance `i`, fixed by the integration (11 R289, 16 R433): 0 aperture base,
1 aperture size, 2 memory base, 3 memory size. Log entry 3. -/
opaque maltRange : Nat → Nat → BitVec 48

/-- A value that the manual does not state, by the case (log entry 3) and what it depends on: case 1, the
residual that a Carry fold stores when the folded sum is not finite (12 R334); case 2, T0 of a Phase Timer
record whose step had no QUANT phase (12 R352), by a fresh number; case 3, the key word that a Tongs request
presents when its domain holds no key (10 R272), by domain; case 4, the former node ID that the recovery
log names for a failed node whose spare is unknown here (12 R349), by node; case 5, rf after a valid exchange, which
the manual describes and does not reduce to a formula (13 R366), by a fresh number; case 6, whether an access of an
accumulator meets its range outside the accumulator memory, event 0x13 (06 R161), by a fresh number; case 7, the
bytes of a list entry in package memory whose layout the manual leaves to the block (09 R249, 10 R278), by a fresh
number; case 8, whether the block that a partial write decodes comes with a poison indication (11 R304), by a fresh
number. -/
opaque openValue : Nat → Nat → BitVec 64

end Sys2Proof.Config
end

