-- ==== Sys2Proof/Machine/Maps.lean ====
section
/-! DEFINITION. Sparse stores: a list of (key, value) pairs in one canonical form, keys strictly
rising and no entry equal to what an unlisted key reads as. Package memory, the register file and
the record stores behind the windows are such stores. -/
namespace Sys2Proof.Machine
open Sys2Proof

/-- A sparse store of `α` by natural-number key. -/
abbrev SMap (α : Type) := List (Nat × α)

/-- What key `k` holds; `d` is what an unlisted key reads as. -/
def SMap.get {α : Type} (d : Nat → α) : SMap α → Nat → α
  | [], k => d k
  | (j, v) :: m, k => if j = k then v else SMap.get d m k

/-- Insert or replace an entry, keys kept rising. -/
def SMap.put {α : Type} : SMap α → Nat → α → SMap α
  | [], k, v => [(k, v)]
  | (j, w) :: m, k, v =>
    if k < j then (k, v) :: (j, w) :: m
    else if k = j then (k, v) :: m
    else (j, w) :: SMap.put m k v

/-- Remove every entry of a key. -/
def SMap.del {α : Type} : SMap α → Nat → SMap α
  | [], _ => []
  | (j, w) :: m, k => if j = k then SMap.del m k else (j, w) :: SMap.del m k

/-- Write a key: the value an unlisted key reads as removes the entry. The store is looked at first, so that a write to an
unknown store does not unfold its defaults. -/
def SMap.set {α : Type} [DecidableEq α] (d : Nat → α) : SMap α → Nat → α → SMap α
  | [], k, v => if v = d k then [] else [(k, v)]
  | e :: m, k, v => if v = d k then SMap.del (e :: m) k else SMap.put (e :: m) k v

/-- Remove every key in `[lo, hi)`. -/
def SMap.clear {α : Type} (m : SMap α) (lo hi : Nat) : SMap α :=
  m.filter (fun e => !(lo ≤ e.1 && e.1 < hi))

/-- The canonical form: every key above `lo`, keys strictly rising, no default entry. -/
def SMap.wfFrom {α : Type} [DecidableEq α] (d : Nat → α) : Nat → SMap α → Bool
  | _, [] => true
  | lo, (k, v) :: m => lo ≤ k && v ≠ d k && SMap.wfFrom d (k + 1) m

/-- The canonical form of a whole store. -/
def SMap.wf {α : Type} [DecidableEq α] (d : Nat → α) (m : SMap α) : Bool := SMap.wfFrom d 0 m

/-- The default of a store of words that read zero. -/
def zero32 (_ : Nat) : W32 := 0

/-- Write consecutive values from key `k`. -/
def SMap.setList {α : Type} [DecidableEq α] (d : Nat → α) : SMap α → Nat → List α → SMap α
  | m, _, [] => m
  | m, k, v :: vs => SMap.setList d (m.set d k v) (k + 1) vs

/-- Read `n` consecutive keys from `k`. -/
def SMap.getList {α : Type} (d : Nat → α) (m : SMap α) : Nat → Nat → List α
  | _, 0 => []
  | k, n + 1 => m.get d k :: SMap.getList d m (k + 1) n

/-- The entries that a list of values from key `k` makes: those that differ from the default. -/
def SMap.ofList {α : Type} [DecidableEq α] (d : Nat → α) : Nat → List α → SMap α
  | _, [] => []
  | k, v :: vs => if v = d k then SMap.ofList d (k + 1) vs else (k, v) :: SMap.ofList d (k + 1) vs

/-- Write a run of consecutive keys from `k` at once. -/
def SMap.setRun {α : Type} [DecidableEq α] (d : Nat → α) (m : SMap α) (k : Nat) (vs : List α) : SMap α :=
  m.filter (fun e => e.1 < k) ++ SMap.ofList d k vs ++ m.filter (fun e => k + vs.length ≤ e.1)

end Sys2Proof.Machine
end

