-- ==== Sys2Proof/Machine/Regs.lean ====
section
/-! DEFINITION. The register map: every page of 15 Table 15-1 and 16 Table 16-1 with its PG_CAP and
PG_ERR bits (Tables 15-3, 16-2), every page-specific register of chapters 15 and 16 with its access
code (00 Table 0-2), reset value, the bits it holds, and whether it is kept over a page soft reset
(R403). The reset value of every register is that of the manual's tables. -/
namespace Sys2Proof.Machine
open Sys2Proof

/-- Access codes of 00 Table 0-2 (R5). -/
inductive Acc where
  | ro | rw | w1c | wo | rc | rws
  deriving DecidableEq, Repr

/-- One page-specific register: byte address, access, reset value, bits, kept. -/
structure RegRow where
  addr : Nat
  acc : Acc
  reset : Nat
  mask : Nat
  kept : Bool
  deriving DecidableEq, Repr

/-- One page: base address, PG_CAP, implemented PG_ERR bits, whether it exists at instances 0 to 15. -/
structure PageRow where
  base : Nat
  cap : Nat
  err : Nat
  multi : Bool
  deriving DecidableEq, Repr

/-- Registers of page CTL 0 (rule R406). -/
def rowsCtl0 : List RegRow := [
  ⟨0x000040, .ro, 0x3, 0xF, false⟩, -- CTL_BUSY_CAUSE
  ⟨0x000044, .w1c, 0x0, 0xFFFF, false⟩, -- CTL_ATTN
  ⟨0x000048, .wo, 0x0, 0x1, false⟩, -- CTL_ABORT
  ⟨0x00004C, .ro, 0x0, 0xFFFFFFFF, true⟩, -- CTL_KCP_WRCNT
  ⟨0x000050, .ro, 0x0, 0xFFFFFC, true⟩] -- CTL_KCP_LASTWR

/-- Registers of page CTL 1 (rule R407). -/
def rowsCtl1 : List RegRow := [
  ⟨0x001040, .wo, 0x0, 0xFF, false⟩, -- CTL_CMD
  ⟨0x001044, .rw, 0x0, 0xFFFFFFFF, false⟩, -- CTL_CMD_ARG0-3 [0]
  ⟨0x001048, .rw, 0x0, 0xFFFFFFFF, false⟩, -- CTL_CMD_ARG0-3 [1]
  ⟨0x00104C, .rw, 0x0, 0xFFFFFFFF, false⟩, -- CTL_CMD_ARG0-3 [2]
  ⟨0x001050, .rw, 0x0, 0xFFFFFFFF, false⟩, -- CTL_CMD_ARG0-3 [3]
  ⟨0x001054, .ro, 0x0, 0x1FF0F, false⟩, -- CTL_CMD_STAT
  ⟨0x001060, .wo, 0x0, 0xFFFFFFFF, false⟩, -- CTL_KEY_STAGE0-7 [0]
  ⟨0x001064, .wo, 0x0, 0xFFFFFFFF, false⟩, -- CTL_KEY_STAGE0-7 [1]
  ⟨0x001068, .wo, 0x0, 0xFFFFFFFF, false⟩, -- CTL_KEY_STAGE0-7 [2]
  ⟨0x00106C, .wo, 0x0, 0xFFFFFFFF, false⟩, -- CTL_KEY_STAGE0-7 [3]
  ⟨0x001070, .wo, 0x0, 0xFFFFFFFF, false⟩, -- CTL_KEY_STAGE0-7 [4]
  ⟨0x001074, .wo, 0x0, 0xFFFFFFFF, false⟩, -- CTL_KEY_STAGE0-7 [5]
  ⟨0x001078, .wo, 0x0, 0xFFFFFFFF, false⟩, -- CTL_KEY_STAGE0-7 [6]
  ⟨0x00107C, .wo, 0x0, 0xFFFFFFFF, false⟩, -- CTL_KEY_STAGE0-7 [7]
  ⟨0x001080, .rw, 0x0, 0xFFF, false⟩, -- CTL_KEY_SEL
  ⟨0x001084, .ro, 0x0, 0x1, false⟩] -- CTL_KEY_PRESENT

/-- Registers of page CTL 2 (rule R408). -/
def rowsCtl2 : List RegRow := [
  ⟨0x002040, .rw, 0x0, 0x3F7, false⟩, -- CTL_ALIGN_SEL
  ⟨0x002044, .ro, 0x4, 0x7, false⟩, -- CTL_ALIGN_STAT
  ⟨0x002048, .ro, 0x0, 0xFFFFFFFF, false⟩, -- CTL_ALIGN_SUM0
  ⟨0x00204C, .ro, 0x0, 0xFFFFFFFF, false⟩, -- CTL_ALIGN_SUM1
  ⟨0x002050, .rws, 0x0, 0xFFFFFFFF, false⟩, -- CTL_PORT_EXPECT0
  ⟨0x002054, .rws, 0x0, 0xFFFFFFFF, false⟩, -- CTL_PORT_EXPECT1
  ⟨0x002058, .rws, 0x0, 0xFFFFFFFF, false⟩, -- CTL_PORT_EXPECT2
  ⟨0x00205C, .rws, 0x0, 0x3FFFF, false⟩] -- CTL_PORT_EXPECT3

/-- Registers of page TIME 0 (rule R409). -/
def rowsTime0 : List RegRow := [
  ⟨0x100040, .ro, 0x0, 0xFFFFFFFF, true⟩, -- TIME_NOW_LO
  ⟨0x100044, .ro, 0x0, 0xFFFFFFFF, true⟩, -- TIME_NOW_HI
  ⟨0x100048, .ro, 0x0, 0xFFFFFFFF, true⟩, -- TIME_EPOCH
  ⟨0x10004C, .rw, 0x0, 0x3, false⟩, -- TIME_CTRL
  ⟨0x100050, .ro, 0x0, 0x7, false⟩, -- TIME_STATE
  ⟨0x100054, .rws, 0x0, 0x3FFFF, false⟩, -- TIME_PARENT
  ⟨0x100058, .rws, 0x0, 0x3FFFF, false⟩, -- TIME_ALT
  ⟨0x10005C, .rws, 0x5, 0x7, false⟩, -- TIME_SYNC_LOG2
  ⟨0x100060, .rws, 0x0, 0x7F, false⟩, -- TIME_PTP_DOMAIN
  ⟨0x100064, .rws, 0x3C, 0xFF, false⟩, -- TIME_HOLD_MAX
  ⟨0x100068, .ro, 0x0, 0xFFFFFFFF, false⟩, -- TIME_OFFSET
  ⟨0x10006C, .ro, 0x0, 0xFFFFFFFF, false⟩, -- TIME_HOLD_AGE
  ⟨0x100070, .ro, 0x0, 0xFFFFFFFF, false⟩, -- TIME_RATE
  ⟨0x100074, .ro, 0x0, 0xFFFFFFFF, true⟩, -- TIME_STEP_CNT
  ⟨0x100078, .ro, 0x0, 0xFFFFFFFF, true⟩, -- TIME_TICK_CNT_LO
  ⟨0x10007C, .ro, 0x0, 0xFFFF, true⟩] -- TIME_TICK_CNT_HI

/-- Registers of page TIME 1 (rule R410). -/
def rowsTime1 : List RegRow := [
  ⟨0x101040, .rw, 0x0, 0x30FFF, false⟩, -- TIME_PT_SEL
  ⟨0x101044, .rw, 0x0, 0xFFFFFFFF, false⟩] -- TIME_PT_DATA

/-- Registers of page IDEN 0 (rule R411). -/
def rowsIden0 : List RegRow := [
  ⟨0x200040, .rws, 0x1, 0x3, false⟩, -- IDEN_CLK
  ⟨0x200044, .rws, 0x70, 0x7F, false⟩, -- IDEN_SW_ADDR0
  ⟨0x200048, .rws, 0x71, 0x7F, false⟩, -- IDEN_SW_ADDR1
  ⟨0x20004C, .ro, 0x0, 0xFFFF0007, false⟩, -- IDEN_SCAN_STAT
  ⟨0x200050, .rw, 0x0, 0xFF, false⟩, -- IDEN_POS_SEL
  ⟨0x200054, .ro, 0x0, 0xFFFFFFFF, false⟩, -- IDEN_POS_DATA
  ⟨0x200080, .rws, 0x0, 0x18F, false⟩, -- IDEN_PORT_MAP0-15 [0]
  ⟨0x200084, .rws, 0x0, 0x18F, false⟩, -- IDEN_PORT_MAP0-15 [1]
  ⟨0x200088, .rws, 0x0, 0x18F, false⟩, -- IDEN_PORT_MAP0-15 [2]
  ⟨0x20008C, .rws, 0x0, 0x18F, false⟩, -- IDEN_PORT_MAP0-15 [3]
  ⟨0x200090, .rws, 0x0, 0x18F, false⟩, -- IDEN_PORT_MAP0-15 [4]
  ⟨0x200094, .rws, 0x0, 0x18F, false⟩, -- IDEN_PORT_MAP0-15 [5]
  ⟨0x200098, .rws, 0x0, 0x18F, false⟩, -- IDEN_PORT_MAP0-15 [6]
  ⟨0x20009C, .rws, 0x0, 0x18F, false⟩, -- IDEN_PORT_MAP0-15 [7]
  ⟨0x2000A0, .rws, 0x0, 0x18F, false⟩, -- IDEN_PORT_MAP0-15 [8]
  ⟨0x2000A4, .rws, 0x0, 0x18F, false⟩, -- IDEN_PORT_MAP0-15 [9]
  ⟨0x2000A8, .rws, 0x0, 0x18F, false⟩, -- IDEN_PORT_MAP0-15 [10]
  ⟨0x2000AC, .rws, 0x0, 0x18F, false⟩, -- IDEN_PORT_MAP0-15 [11]
  ⟨0x2000B0, .rws, 0x0, 0x18F, false⟩, -- IDEN_PORT_MAP0-15 [12]
  ⟨0x2000B4, .rws, 0x0, 0x18F, false⟩, -- IDEN_PORT_MAP0-15 [13]
  ⟨0x2000B8, .rws, 0x0, 0x18F, false⟩, -- IDEN_PORT_MAP0-15 [14]
  ⟨0x2000BC, .rws, 0x0, 0x18F, false⟩] -- IDEN_PORT_MAP0-15 [15]

/-- Registers of page IDEN 1 (rule R412). -/
def rowsIden1 : List RegRow := [
  ⟨0x201040, .rw, 0x0, 0xFFFFFFFF, false⟩, -- IDEN_EXPECT0
  ⟨0x201044, .rw, 0x0, 0xFFFFFFFF, false⟩, -- IDEN_EXPECT1
  ⟨0x201048, .rw, 0x0, 0x3FFFFFF, false⟩, -- IDEN_EXPECT2
  ⟨0x20104C, .rw, 0x0, 0x1F, false⟩, -- IDEN_EXPECT3
  ⟨0x201050, .rw, 0x0, 0xFFFFFFFF, false⟩, -- IDEN_DOMTAB_BASE [0]
  ⟨0x201054, .rw, 0x0, 0xFFFF, false⟩, -- IDEN_DOMTAB_BASE [1]
  ⟨0x201058, .rw, 0x0, 0x3FFFF, false⟩, -- IDEN_DOMTAB_MAX
  ⟨0x20105C, .rw, 0x0, 0xFFFFFFFF, false⟩, -- IDEN_OWN_BASE [0]
  ⟨0x201060, .rw, 0x0, 0xFFFF, false⟩, -- IDEN_OWN_BASE [1]
  ⟨0x201064, .rw, 0x0, 0xFFFFFFFF, false⟩, -- IDEN_OWN_CNT
  ⟨0x201068, .wo, 0x0, 0x1, false⟩, -- IDEN_CHECK_GO
  ⟨0x20106C, .ro, 0x2, 0xFFFFFF0F, false⟩] -- IDEN_CHECK_STAT

/-- Registers of page HOP 0 (rule R413). -/
def rowsHop0 : List RegRow := [
  ⟨0x300040, .rw, 0x0, 0xFFF, false⟩, -- HOP_WIN_CTX
  ⟨0x300044, .rw, 0x0, 0x1FC, false⟩, -- HOP_WIN_OFF
  ⟨0x300048, .rw, 0x0, 0xFFFFFFFF, false⟩, -- HOP_WIN_DATA
  ⟨0x30004C, .wo, 0x0, 0xFFFF0FFF, false⟩, -- HOP_RING_DB
  ⟨0x300050, .wo, 0x0, 0xFFF, false⟩, -- HOP_CTX_RESET
  ⟨0x300054, .rc, 0x0, 0xFFFFFFFF, false⟩, -- HOP_YIELD_LO
  ⟨0x300058, .ro, 0x0, 0xFFFFFFFF, false⟩, -- HOP_YIELD_HI
  ⟨0x30005C, .ro, 0x0, 0x7F, false⟩, -- HOP_YIELD_CNT
  ⟨0x300060, .ro, 0x0, 0x1FF, false⟩] -- HOP_SHARE_SUM

/-- Registers of page ANV 0 (rule R416). -/
def rowsAnv0 : List RegRow := [
  ⟨0x400040, .ro, 0x0, 0x80000FFF, false⟩, -- ANV_OWNER
  ⟨0x400044, .rc, 0x0, 0xFFFFFFFF, false⟩, -- ANV_NF_CNT
  ⟨0x400048, .rc, 0x0, 0xFFFFFFFF, false⟩, -- ANV_F32_BIGSUM
  ⟨0x40004C, .rc, 0x0, 0xFFFFFFFF, false⟩, -- ANV_ECC_CORR_CNT
  ⟨0x400050, .ro, 0x0, 0x80001FFF, false⟩, -- ANV_ECC_LOC
  ⟨0x400054, .ro, 0x0, 0xFFFFFFFF, false⟩, -- ANV_HEARTH_CLAIM
  ⟨0x400058, .rc, 0x0, 0xFFFFFFFF, false⟩] -- ANV_SWITCH_CNT

/-- Registers of page TMP 0 (rule R417). -/
def rowsTmp0 : List RegRow := [
  ⟨0x500040, .rw, 0x0, 0x1FFFF, false⟩, -- TMP_SLOT_SEL
  ⟨0x500044, .rw, 0x0, 0x1FC, false⟩, -- TMP_SLOT_OFF
  ⟨0x500048, .rw, 0x0, 0xFFFFFFFF, false⟩, -- TMP_SLOT_DATA
  ⟨0x50004C, .rc, 0x0, 0x8003FFFF, false⟩, -- TMP_EVT_LO
  ⟨0x500050, .ro, 0x0, 0xFFFF, false⟩, -- TMP_EVT_HI
  ⟨0x500054, .ro, 0x0, 0x7F, false⟩, -- TMP_EVT_CNT
  ⟨0x500058, .ro, 0x0, 0x800FFFFF, false⟩, -- TMP_DIVERGE0
  ⟨0x50005C, .ro, 0x0, 0x3FFFF, false⟩, -- TMP_DIVERGE1
  ⟨0x500060, .rc, 0x0, 0xFFFFFFFF, false⟩] -- TMP_DIGEST_CNT

/-- Registers of page SWG 0 (rule R419). -/
def rowsSwg0 : List RegRow := [
  ⟨0x600040, .ro, 0x0, 0xFFFFFFFF, false⟩, -- SWG_FWD_GRP_LO
  ⟨0x600044, .ro, 0x0, 0xFFFF, false⟩, -- SWG_FWD_GRP_HI
  ⟨0x600048, .ro, 0x0, 0xFFFFFFFF, false⟩, -- SWG_INV_GRP_LO
  ⟨0x60004C, .ro, 0x0, 0xFFFF, false⟩, -- SWG_INV_GRP_HI
  ⟨0x600050, .rc, 0x0, 0xFFFFFFFF, false⟩] -- SWG_OWN_WAIT

/-- Registers of page LTR 0 (rule R420). -/
def rowsLtr0 : List RegRow := [
  ⟨0x700040, .rw, 0x0, 0xFFFF, false⟩, -- LTR_SLOT_SEL
  ⟨0x700044, .rw, 0x0, 0x1C, false⟩, -- LTR_SLOT_OFF
  ⟨0x700048, .ro, 0x0, 0xFFFFFFFF, false⟩, -- LTR_SLOT_DATA
  ⟨0x70004C, .ro, 0x0, 0x10FFF, false⟩, -- LTR_SORT_STAT
  ⟨0x700050, .ro, 0x0, 0x1FFFF, false⟩, -- LTR_SORT_N
  ⟨0x700054, .rc, 0x0, 0xFFFFFFFF, false⟩] -- LTR_SORT_CNT

/-- Registers of page PCK 0 (rule R424). -/
def rowsPck0 : List RegRow := [
  ⟨0x800040, .rw, 0x0, 0xFFFF, false⟩, -- PCK_SLOT_SEL
  ⟨0x800044, .rw, 0x0, 0x3C, false⟩, -- PCK_SLOT_OFF
  ⟨0x800048, .rw, 0x0, 0xFFFFFFFF, false⟩, -- PCK_SLOT_DATA
  ⟨0x80004C, .rc, 0x0, 0xFFFFFFFF, false⟩, -- PCK_INTEG_CNT
  ⟨0x800050, .ro, 0x0, 0x80003FFF, false⟩, -- PCK_INTEG_FIRST
  ⟨0x800054, .ro, 0x0, 0x3FFFF, false⟩] -- PCK_INTEG_SRC

/-- Registers of page MSH 0 (rule R425). -/
def rowsMsh0 : List RegRow := [
  ⟨0x900040, .rw, 0x0, 0xFFFF, false⟩, -- MSH_SLOT_SEL
  ⟨0x900044, .rw, 0x0, 0x3C, false⟩, -- MSH_SLOT_OFF
  ⟨0x900048, .rw, 0x0, 0xFFFFFFFF, false⟩, -- MSH_SLOT_DATA
  ⟨0x90004C, .rw, 0x1E8480, 0xFFFFFFFF, false⟩, -- MSH_STALL_LIMIT
  ⟨0x900050, .rc, 0x0, 0xFFFFFFFF, false⟩, -- MSH_LEAF_DISCARD
  ⟨0x900054, .ro, 0x0, 0xF03FFFFF, false⟩, -- MSH_DISCARD_LAST
  ⟨0x900058, .rc, 0x0, 0xFFFFFFFF, false⟩, -- MSH_LATE
  ⟨0x90005C, .rc, 0x0, 0xFFFFFFFF, false⟩, -- MSH_CONTRIB_OVER
  ⟨0x900060, .rc, 0x0, 0xFFFFFFFF, false⟩, -- MSH_F32_BIGSUM
  ⟨0x900064, .ro, 0x0, 0x8000FFFF, false⟩] -- MSH_STALL_LAST

/-- Registers of page UPD 0 (rule R426). -/
def rowsUpd0 : List RegRow := [
  ⟨0xA00040, .rw, 0x0, 0xFFFF, false⟩, -- UPD_REC_SEL
  ⟨0xA00044, .rw, 0x0, 0xFC, false⟩, -- UPD_REC_OFF
  ⟨0xA00048, .rw, 0x0, 0xFFFFFFFF, false⟩, -- UPD_REC_DATA
  ⟨0xA0004C, .rc, 0x0, 0xFFFFFFFF, false⟩, -- UPD_HOLD_TOTAL
  ⟨0xA00050, .rc, 0x0, 0xFFFFFFFF, false⟩, -- UPD_KILN_CAP_TOTAL
  ⟨0xA00054, .rc, 0x0, 0xFFFFFFFF, false⟩, -- UPD_MOM_SAT_TOTAL
  ⟨0xA00058, .ro, 0x0, 0x3FFFF, false⟩] -- UPD_KS_USED

/-- Registers of page QCN 0 (rule R427). -/
def rowsQcn0 : List RegRow := [
  ⟨0xB00040, .rw, 0x0, 0x1, false⟩, -- QCN_CTRL
  ⟨0xB00044, .rw, 0x0, 0x1, false⟩, -- QCN_ENCAP
  ⟨0xB00048, .rw, 0x88B5, 0xFFFF, false⟩, -- QCN_ETYPE
  ⟨0xB0004C, .rw, 0x64B58, 0xFFFFFF, false⟩, -- QCN_MAC_PREFIX
  ⟨0xB00050, .rw, 0x0, 0xFFFFFFFF, false⟩, -- QCN_IP_PREFIX_LO
  ⟨0xB00054, .rw, 0x0, 0xFFFFFFFF, false⟩, -- QCN_IP_PREFIX_HI
  ⟨0xB00058, .rw, 0x0, 0x3F, false⟩, -- QCN_DSCP
  ⟨0xB0005C, .rw, 0xC8B5, 0xFFFF, false⟩, -- QCN_UDP_DPORT
  ⟨0xB00060, .rw, 0x2328, 0x3FFF, false⟩, -- QCN_MTU
  ⟨0xB00064, .rw, 0x0, 0xFFFFFFFF, false⟩, -- QCN_COOL_BASE_LO
  ⟨0xB00068, .rw, 0x0, 0xFFFF, false⟩, -- QCN_COOL_BASE_HI
  ⟨0xB0006C, .rw, 0xC, 0x1F, false⟩] -- QCN_COOL_SIZE

/-- Registers of page QCN 1 (rule R428). -/
def rowsQcn1 : List RegRow := [
  ⟨0xB01040, .rw, 0x40000, 0xFFFFFFFF, false⟩, -- QCN_BW_CINIT
  ⟨0xB01044, .rw, 0x4000, 0xFFFFFFFF, false⟩, -- QCN_BW_CMIN
  ⟨0xB01048, .rw, 0x1000000, 0xFFFFFFFF, false⟩, -- QCN_BW_CMAX
  ⟨0xB0104C, .rw, 0x4000, 0xFFFFFFFF, false⟩, -- QCN_BW_AI
  ⟨0xB01050, .ro, 0x0, 0x7FFF, false⟩, -- QCN_BW_FLOWS
  ⟨0xB01054, .rw, 0x3E8, 0xFFFFFFFF, false⟩, -- QCN_PORT_HOLD
  ⟨0xB01080, .rw, 0xFFFF, 0xFFFF, false⟩, -- QCN_PGRP_MASK0-15 [0]
  ⟨0xB01084, .rw, 0x0, 0xFFFF, false⟩, -- QCN_PGRP_MASK0-15 [1]
  ⟨0xB01088, .rw, 0x0, 0xFFFF, false⟩, -- QCN_PGRP_MASK0-15 [2]
  ⟨0xB0108C, .rw, 0x0, 0xFFFF, false⟩, -- QCN_PGRP_MASK0-15 [3]
  ⟨0xB01090, .rw, 0x0, 0xFFFF, false⟩, -- QCN_PGRP_MASK0-15 [4]
  ⟨0xB01094, .rw, 0x0, 0xFFFF, false⟩, -- QCN_PGRP_MASK0-15 [5]
  ⟨0xB01098, .rw, 0x0, 0xFFFF, false⟩, -- QCN_PGRP_MASK0-15 [6]
  ⟨0xB0109C, .rw, 0x0, 0xFFFF, false⟩, -- QCN_PGRP_MASK0-15 [7]
  ⟨0xB010A0, .rw, 0x0, 0xFFFF, false⟩, -- QCN_PGRP_MASK0-15 [8]
  ⟨0xB010A4, .rw, 0x0, 0xFFFF, false⟩, -- QCN_PGRP_MASK0-15 [9]
  ⟨0xB010A8, .rw, 0x0, 0xFFFF, false⟩, -- QCN_PGRP_MASK0-15 [10]
  ⟨0xB010AC, .rw, 0x0, 0xFFFF, false⟩, -- QCN_PGRP_MASK0-15 [11]
  ⟨0xB010B0, .rw, 0x0, 0xFFFF, false⟩, -- QCN_PGRP_MASK0-15 [12]
  ⟨0xB010B4, .rw, 0x0, 0xFFFF, false⟩, -- QCN_PGRP_MASK0-15 [13]
  ⟨0xB010B8, .rw, 0x0, 0xFFFF, false⟩, -- QCN_PGRP_MASK0-15 [14]
  ⟨0xB010BC, .rw, 0x0, 0xFFFF, false⟩] -- QCN_PGRP_MASK0-15 [15]

/-- Registers of page QCN 2 (rule R429). -/
def rowsQcn2 : List RegRow := [
  ⟨0xB02040, .rc, 0x0, 0xFFFFFFFF, false⟩, -- QCN_HDR_BAD
  ⟨0xB02044, .rc, 0x0, 0xFFFFFFFF, false⟩, -- QCN_E2E_FAIL
  ⟨0xB02048, .rc, 0x0, 0xFFFFFFFF, false⟩, -- QCN_MISROUTE
  ⟨0xB0204C, .rc, 0x0, 0xFFFFFFFF, false⟩, -- QCN_INCARN_STALE
  ⟨0xB02050, .rc, 0x0, 0xFFFFFFFF, false⟩, -- QCN_STALE
  ⟨0xB02054, .rc, 0x0, 0xFFFFFFFF, false⟩, -- QCN_GEN_STALE
  ⟨0xB02058, .rc, 0x0, 0xFFFFFFFF, false⟩, -- QCN_EARLY
  ⟨0xB0205C, .rc, 0x0, 0xFFFFFFFF, false⟩, -- QCN_DUP
  ⟨0xB02060, .rc, 0x0, 0xFFFFFFFF, false⟩, -- QCN_LATE_RX
  ⟨0xB02064, .rc, 0x0, 0xFFFFFFFF, false⟩, -- QCN_ACK_STRAY
  ⟨0xB02068, .rc, 0x0, 0xFFFFFFFF, false⟩, -- QCN_RX_FULL
  ⟨0xB0206C, .rc, 0x0, 0xFFFFFFFF, false⟩, -- QCN_RX_TIMEOUT
  ⟨0xB02070, .rc, 0x0, 0xFFFFFFFF, false⟩, -- QCN_GIVE_UP_CNT
  ⟨0xB02074, .rc, 0x0, 0xFFFFFFFF, false⟩] -- QCN_RETX

/-- Registers of page QCN 3 (rule R430). -/
def rowsQcn3 : List RegRow := [
  ⟨0xB03040, .ro, 0x0, 0xF, false⟩, -- QCN_PORT_STAT
  ⟨0xB03044, .rc, 0x0, 0xFFFFFFFF, false⟩, -- QCN_PORT_DOWNS
  ⟨0xB03048, .rc, 0x0, 0xFFFFFFFF, false⟩, -- QCN_PORT_TXF
  ⟨0xB0304C, .rc, 0x0, 0xFFFFFFFF, false⟩, -- QCN_PORT_RXF
  ⟨0xB03050, .rc, 0x0, 0xFFFFFFFF, false⟩, -- QCN_PORT_CE
  ⟨0xB03054, .rc, 0x0, 0xFFFFFFFF, false⟩] -- QCN_PORT_WDRAW

/-- Registers of page TNG 0 (rule R431). -/
def rowsTng0 : List RegRow := [
  ⟨0xC00040, .rw, 0x0, 0xFFF, false⟩, -- TNG_DOM_SEL
  ⟨0xC00044, .rw, 0x0, 0xFC, false⟩, -- TNG_DOM_OFF
  ⟨0xC00048, .rw, 0x0, 0xFFFFFFFF, false⟩, -- TNG_DOM_DATA
  ⟨0xC0004C, .rw, 0x0, 0x3FF, false⟩, -- TNG_Q_SEL
  ⟨0xC00050, .rw, 0x0, 0x3C, false⟩, -- TNG_Q_OFF
  ⟨0xC00054, .rw, 0x0, 0xFFFFFFFF, false⟩, -- TNG_Q_DATA
  ⟨0xC00058, .wo, 0x0, 0xFFFF03FF, false⟩, -- TNG_Q_DB
  ⟨0xC0005C, .wo, 0x0, 0x3FF, false⟩, -- TNG_Q_RESET
  ⟨0xC00060, .rw, 0x1F4, 0xFFFFFFFF, false⟩, -- TNG_QPOLL
  ⟨0xC00064, .rw, 0x0, 0xFFFFFFFF, false⟩, -- TNG_DONE_BASE_LO
  ⟨0xC00068, .rw, 0x0, 0xFFFF, false⟩, -- TNG_DONE_BASE_HI
  ⟨0xC0006C, .rw, 0xC, 0x1F, false⟩, -- TNG_DONE_SIZE
  ⟨0xC00070, .ro, 0x0, 0x8F73FFFF, false⟩, -- TNG_NAK_LAST
  ⟨0xC00074, .ro, 0x0, 0x83FFFFFF, false⟩, -- TNG_QFAULT
  ⟨0xC00078, .rc, 0x0, 0xFFFFFFFF, false⟩, -- TNG_T_BAD
  ⟨0xC0007C, .rc, 0x0, 0xFFFFFFFF, false⟩, -- TNG_SEAL_FAIL
  ⟨0xC00080, .rc, 0x0, 0xFFFFFFFF, false⟩, -- TNG_T_DUP
  ⟨0xC00084, .rc, 0x0, 0xFFFFFFFF, false⟩, -- TNG_NAK_TX
  ⟨0xC00088, .rc, 0x0, 0xFFFFFFFF, false⟩, -- TNG_DONE_FULL
  ⟨0xC0008C, .rc, 0x0, 0xFFFFFFFF, false⟩] -- TNG_POLL_LOST

/-- Registers of page MLT 0 (rule R433). -/
def rowsMlt0 : List RegRow := [
  ⟨0xD00040, .ro, 0x0, 0xFFFFFFFF, false⟩, -- MLT_APER_BASE [0]
  ⟨0xD00044, .ro, 0x0, 0xFFFF, false⟩, -- MLT_APER_BASE [1]
  ⟨0xD00048, .ro, 0x0, 0xFFFFFFFF, false⟩, -- MLT_APER_SIZE [0]
  ⟨0xD0004C, .ro, 0x0, 0xFFFF, false⟩, -- MLT_APER_SIZE [1]
  ⟨0xD00050, .ro, 0x0, 0xFFFFFFFF, false⟩, -- MLT_MEM_BASE [0]
  ⟨0xD00054, .ro, 0x0, 0xFFFF, false⟩, -- MLT_MEM_BASE [1]
  ⟨0xD00058, .ro, 0x0, 0xFFFFFFFF, false⟩, -- MLT_MEM_SIZE [0]
  ⟨0xD0005C, .ro, 0x0, 0xFFFF, false⟩, -- MLT_MEM_SIZE [1]
  ⟨0xD00060, .rw, 0x3E8, 0xFFF, false⟩, -- MLT_CTRL_BW
  ⟨0xD00064, .rw, 0x12C, 0x3FF, false⟩, -- MLT_CEIL
  ⟨0xD00068, .rw, 0x10000, 0x1FFFFFF, false⟩, -- MLT_CAP_BURST
  ⟨0xD0006C, .rw, 0x7530, 0xFFFFF, false⟩, -- MLT_KX_RATE
  ⟨0xD00070, .rw, 0x10000, 0xFFFFFF, false⟩, -- MLT_KX_BURST
  ⟨0xD00074, .ro, 0x7530, 0xFFFFF, false⟩, -- MLT_CEIL_B
  ⟨0xD00078, .ro, 0x7530, 0x7FFFFF, false⟩] -- MLT_RATE_SUM

/-- Registers of page MLT 1 (rule R434). -/
def rowsMlt1 : List RegRow := [
  ⟨0xD01040, .rw, 0x0, 0x7, false⟩, -- MLT_PART_SEL
  ⟨0xD01044, .rw, 0x0, 0x7C, false⟩, -- MLT_PART_OFF
  ⟨0xD01048, .rw, 0x0, 0xFFFFFFFF, false⟩, -- MLT_PART_DATA
  ⟨0xD01050, .rw, 0x0, 0xFFFFFFFF, false⟩, -- MLT_PACK_SRC [0]
  ⟨0xD01054, .rw, 0x0, 0xFFFF, false⟩, -- MLT_PACK_SRC [1]
  ⟨0xD01058, .wo, 0x0, 0x7, false⟩, -- MLT_PACK_GO
  ⟨0xD0105C, .ro, 0x0, 0xFFFFFF07, false⟩, -- MLT_PACK_STAT_LO
  ⟨0xD01060, .ro, 0x0, 0xFF, false⟩, -- MLT_PACK_STAT_HI
  ⟨0xD01064, .rw, 0x0, 0xFFFFFFFF, false⟩, -- MLT_PACK_CMPL [0]
  ⟨0xD01068, .rw, 0x0, 0xFFFF, false⟩] -- MLT_PACK_CMPL [1]

/-- Registers of page GRD 0 (rule R435). -/
def rowsGrd0 : List RegRow := [
  ⟨0xE00040, .rw, 0x0, 0x3, false⟩, -- GRD_CTRL
  ⟨0xE00044, .rw, 0x0, 0x3FFFF, false⟩, -- GRD_NODE_ID
  ⟨0xE00048, .rw, 0x0, 0x3FF, false⟩, -- GRD_DOMAIN
  ⟨0xE0004C, .rw, 0x0, 0x1, false⟩, -- GRD_ROLE
  ⟨0xE00050, .rw, 0x2, 0xF, false⟩, -- GRD_FAIL_QUORUM
  ⟨0xE00054, .rw, 0x4E20, 0xFFFFFFFF, false⟩, -- GRD_RESUME_LEAD
  ⟨0xE00058, .ro, 0x0, 0x8000003F, false⟩, -- GRD_INCARN
  ⟨0xE0005C, .rw, 0x0, 0x3FFFF, false⟩, -- GRD_SPARE_CNT
  ⟨0xE00060, .rw, 0x0, 0xFFFFFFFF, false⟩, -- GRD_SPARE_BASE [0]
  ⟨0xE00064, .rw, 0x0, 0xFFFF, false⟩, -- GRD_SPARE_BASE [1]
  ⟨0xE00068, .rw, 0x0, 0xFFFFFFFF, false⟩, -- GRD_RLOG_BASE [0]
  ⟨0xE0006C, .rw, 0x0, 0xFFFF, false⟩, -- GRD_RLOG_BASE [1]
  ⟨0xE00070, .rw, 0x0, 0xFFFFFF, false⟩, -- GRD_RLOG_SIZE
  ⟨0xE00074, .ro, 0x0, 0xFFFFFFFF, false⟩, -- GRD_RLOG_HEAD
  ⟨0xE00078, .rw, 0x0, 0x3FFFF, false⟩, -- GRD_INC_SEL
  ⟨0xE0007C, .ro, 0x0, 0x8000003F, false⟩, -- GRD_INC_DATA
  ⟨0xE00080, .rw, 0x3FFFF, 0x3FFFF, false⟩, -- GRD_WATCH0-7 [0]
  ⟨0xE00084, .rw, 0x3FFFF, 0x3FFFF, false⟩, -- GRD_WATCH0-7 [1]
  ⟨0xE00088, .rw, 0x3FFFF, 0x3FFFF, false⟩, -- GRD_WATCH0-7 [2]
  ⟨0xE0008C, .rw, 0x3FFFF, 0x3FFFF, false⟩, -- GRD_WATCH0-7 [3]
  ⟨0xE00090, .rw, 0x3FFFF, 0x3FFFF, false⟩, -- GRD_WATCH0-7 [4]
  ⟨0xE00094, .rw, 0x3FFFF, 0x3FFFF, false⟩, -- GRD_WATCH0-7 [5]
  ⟨0xE00098, .rw, 0x3FFFF, 0x3FFFF, false⟩, -- GRD_WATCH0-7 [6]
  ⟨0xE0009C, .rw, 0x3FFFF, 0x3FFFF, false⟩, -- GRD_WATCH0-7 [7]
  ⟨0xE000A0, .ro, 0x0, 0xFFFF, false⟩] -- GRD_WATCH_STAT

/-- Registers of page GRD 1 (rule R436). -/
def rowsGrd1 : List RegRow := [
  ⟨0xE01040, .rw, 0x0, 0xFFF, false⟩, -- GRD_CTX_SEL
  ⟨0xE01044, .rw, 0x0, 0x7C, false⟩, -- GRD_CTX_OFF
  ⟨0xE01048, .rw, 0x0, 0xFFFFFFFF, false⟩, -- GRD_CTX_DATA
  ⟨0xE0104C, .rw, 0x0, 0x3F0FFF, false⟩, -- GRD_VLOG_SEL
  ⟨0xE01050, .ro, 0x0, 0xFFFFFFFF, false⟩, -- GRD_VLOG_DATA
  ⟨0xE01054, .wo, 0x0, 0x70FFF, false⟩, -- GRD_VERDICT_FORCE
  ⟨0xE01058, .rw, 0x1000, 0x1FFF, false⟩, -- GRD_MAN_MAX
  ⟨0xE0105C, .ro, 0x0, 0xFFFFFFFF, false⟩, -- GRD_LS_FIRST0
  ⟨0xE01060, .ro, 0x0, 0x8FFFFFFF, false⟩, -- GRD_LS_FIRST1
  ⟨0xE01064, .ro, 0x0, 0xFFFFF, false⟩, -- GRD_LS_FIRST2
  ⟨0xE01068, .ro, 0x0, 0xFFFFF, false⟩, -- GRD_LS_FIRST3
  ⟨0xE0106C, .wo, 0x0, 0x1FFF, false⟩, -- GRD_PARK_CMD
  ⟨0xE01070, .rw, 0x0, 0xFFFFFFFF, false⟩, -- GRD_PARK_STEP [0]
  ⟨0xE01074, .rw, 0x0, 0xFFFF, false⟩, -- GRD_PARK_STEP [1]
  ⟨0xE01078, .rw, 0x0, 0xFFFFFFFF, false⟩, -- GRD_PARK_LAUNCH [0]
  ⟨0xE0107C, .rw, 0x0, 0xFFFFFFFF, false⟩, -- GRD_PARK_LAUNCH [1]
  ⟨0xE01080, .ro, 0x0, 0xF, false⟩, -- GRD_PARK_STAT_LO
  ⟨0xE01084, .ro, 0x0, 0xFFFFFFFF, false⟩] -- GRD_PARK_STAT_HI

/-- Registers of page DMP 0 (rule R438). -/
def rowsDmp0 : List RegRow := [
  ⟨0xF00040, .rw, 0x0, 0x1, false⟩, -- DMP_CTRL
  ⟨0xF00044, .ro, 0x0, 0x7, false⟩, -- DMP_STATE
  ⟨0xF00048, .ro, 0x0, 0xFFFFFFFF, false⟩, -- DMP_TEL
  ⟨0xF0004C, .rw, 0x0, 0xFF, false⟩, -- DMP_TEL_SEL
  ⟨0xF00050, .ro, 0x0, 0xFFFFFFFF, false⟩, -- DMP_TEL_HIST
  ⟨0xF00054, .rw, 0x0, 0x1FF, false⟩, -- DMP_FILL_MAX
  ⟨0xF00058, .rw, 0x4, 0x1FF, false⟩, -- DMP_RAMP_UP
  ⟨0xF0005C, .rw, 0x4, 0x1FF, false⟩, -- DMP_RAMP_DN
  ⟨0xF00060, .ro, 0x0, 0x1FF, false⟩, -- DMP_FILL_W
  ⟨0xF00064, .ro, 0x0, 0xFFFFFFFF, false⟩, -- DMP_FILL_HC_LO
  ⟨0xF00068, .ro, 0x0, 0xFFFF, false⟩, -- DMP_FILL_HC_HI
  ⟨0xF0006C, .rw, 0x0, 0xFFFFFFFF, false⟩, -- DMP_STEP_NOM [0]
  ⟨0xF00070, .rw, 0x0, 0xFFFFFFFF, false⟩, -- DMP_STEP_NOM [1]
  ⟨0xF00074, .rw, 0x5DC, 0xFFFF, false⟩, -- DMP_RAMP_T
  ⟨0xF00078, .rw, 0x8, 0x1F, false⟩, -- DMP_PACE_MAX
  ⟨0xF0007C, .rw, 0x1F4, 0x3FF, false⟩, -- DMP_CURT_LEVEL
  ⟨0xF00080, .rw, 0x3E8, 0x3FF, false⟩, -- DMP_GRID_LEVEL
  ⟨0xF00084, .rw, 0x0, 0xFFFFFFFF, false⟩, -- DMP_GRID_START [0]
  ⟨0xF00088, .rw, 0x0, 0xFFFFFFFF, false⟩, -- DMP_GRID_START [1]
  ⟨0xF0008C, .rw, 0x0, 0xFFFFFFFF, false⟩, -- DMP_GRID_END [0]
  ⟨0xF00090, .rw, 0x0, 0xFFFFFFFF, false⟩, -- DMP_GRID_END [1]
  ⟨0xF00094, .rw, 0x2, 0x1F, false⟩, -- DMP_CURT_LAG
  ⟨0xF00098, .ro, 0x3E8, 0x703FF, false⟩, -- DMP_CURT_STAT
  ⟨0xF0009C, .ro, 0x2EE, 0x3FF, false⟩] -- DMP_VREQ

/-- Registers of page DMP 1 (rule R439). -/
def rowsDmp1 : List RegRow := [
  ⟨0xF01040, .rw, 0x0, 0x1, false⟩, -- DMP_WEAR_CTRL
  ⟨0xF01044, .rw, 0x0, 0x7FF, false⟩, -- DMP_WEAR_SEL
  ⟨0xF01048, .rw, 0x0, 0x7FFFFF, false⟩, -- DMP_WEAR_DATA
  ⟨0xF0104C, .ro, 0x0, 0xFFFFFFFF, false⟩, -- DMP_WEAR_SUM_LO
  ⟨0xF01050, .ro, 0x0, 0x3, false⟩, -- DMP_WEAR_SUM_HI
  ⟨0xF01054, .rws, 0x0, 0xFFFFFFFF, false⟩, -- DMP_WEAR_OVER_LO
  ⟨0xF01058, .rws, 0x0, 0xFFFF, false⟩, -- DMP_WEAR_OVER_HI
  ⟨0xF0105C, .ro, 0x1, 0x1, false⟩] -- DMP_WEAR_STAT

/-- Every page of Tables 15-1 and 16-1 (instance 0; `multi` pages at instances 0 to 15). -/
def pageRows : List PageRow := [
  ⟨0x000000, 0x10, 0x10F, false⟩,
  ⟨0x001000, 0x1000, 0x10F, false⟩,
  ⟨0x002000, 0x10101040, 0x10F, false⟩,
  ⟨0x100000, 0x3, 0xF0F, false⟩,
  ⟨0x101000, 0x1000, 0x10F, false⟩,
  ⟨0x200000, 0x10, 0xF0F, false⟩,
  ⟨0x201000, 0x8, 0x30F, false⟩,
  ⟨0x300000, 0x1000, 0xFF0F, false⟩,
  ⟨0x400000, 0x4000020, 0x10F, false⟩,
  ⟨0x500000, 0x10000, 0x3F0F, false⟩,
  ⟨0x600000, 0x100, 0xF, false⟩,
  ⟨0x700000, 0x10000, 0xF, false⟩,
  ⟨0x800000, 0x10000, 0x70F, false⟩,
  ⟨0x900000, 0x40010000, 0x7FF0F, false⟩,
  ⟨0xA00000, 0x10000, 0x30F, false⟩,
  ⟨0xB00000, 0xF0, 0x1F0F, false⟩,
  ⟨0xB01000, 0x4000, 0x10F, false⟩,
  ⟨0xB02000, 0x0, 0xF, false⟩,
  ⟨0xB03000, 0x1, 0x10F, true⟩,
  ⟨0xC00000, 0x10000400, 0xFF0F, false⟩,
  ⟨0xD00000, 0x87, 0x10F, true⟩,
  ⟨0xD01000, 0x7, 0x3F0F, true⟩,
  ⟨0xE00000, 0x8, 0x3F0F, false⟩,
  ⟨0xE01000, 0x1000, 0xFF0F, false⟩,
  ⟨0xF00000, 0x3, 0x30F, false⟩,
  ⟨0xF01000, 0x5A0, 0x30F, false⟩]

/-- Every page-specific register, at instance 0. -/
def regRows : List RegRow :=
  rowsCtl0 ++
  rowsCtl1 ++
  rowsCtl2 ++
  rowsTime0 ++
  rowsTime1 ++
  rowsIden0 ++
  rowsIden1 ++
  rowsHop0 ++
  rowsAnv0 ++
  rowsTmp0 ++
  rowsSwg0 ++
  rowsLtr0 ++
  rowsPck0 ++
  rowsMsh0 ++
  rowsUpd0 ++
  rowsQcn0 ++
  rowsQcn1 ++
  rowsQcn2 ++
  rowsQcn3 ++
  rowsTng0 ++
  rowsMlt0 ++
  rowsMlt1 ++
  rowsGrd0 ++
  rowsGrd1 ++
  rowsDmp0 ++
  rowsDmp1

/-- The page base of a byte address (R4): bits [23:12]. -/
def pageOf (a : Nat) : Nat := a / 4096 * 4096
/-- The offset of a byte address in its page; the port carries no bits [1:0] (Table 2-1). -/
def offOf (a : Nat) : Nat := a % 4096 / 4 * 4
/-- The subsystem code of an address (R4). -/
def subOf (a : Nat) : Nat := a / 2 ^ 20 % 16
/-- The instance of an address. -/
def instOf (a : Nat) : Nat := a / 2 ^ 16 % 16
/-- The address with its instance bits cleared. -/
def inst0 (a : Nat) : Nat := a - instOf a * 2 ^ 16

/-- The row of an implemented page, or none (R33, R402, R422). -/
def pageRow (a : Nat) : Option PageRow :=
  match pageRows.find? (fun p => p.base == inst0 (pageOf a)) with
  | some p => if p.multi || instOf a == 0 then some p else none
  | none => none

/-- The row of a page-specific register of an implemented page, or none. -/
def regRow (a : Nat) : Option RegRow :=
  match pageRow a with
  | none => none
  | some _ => regRows.find? (fun r => r.addr == inst0 (a / 4 * 4))

/-- PG_ID: subsystem code, instance, page, layout version 1 (R33, R422). -/
def pgId (a : Nat) : Nat := subOf a * 2 ^ 24 + instOf a * 2 ^ 16 + (a / 4096 % 16) * 2 ^ 8 + 1

/-- PG_REV of every page (R402, R422). -/
def pgRev : Nat := 0x200

/-- Every implemented page base. -/
def pageBases : List Nat :=
  (pageRows.map (fun p =>
    if p.multi then (List.range 16).map (fun i => p.base + i * 2 ^ 16) else [p.base])).flatten

/-- The reset value of a word of the register space (Table 2-4, chapters 15 and 16); words that hold
no register read zero (R6, R30). -/
def regReset (a : Nat) : W32 :=
  let o := offOf a
  match pageRow a with
  | none => 0
  | some p =>
    if o = 0x00 then BitVec.ofNat 32 (pgId a)
    else if o = 0x04 then BitVec.ofNat 32 pgRev
    else if o = 0x08 then BitVec.ofNat 32 p.cap
    else if o = 0x10 then (if subOf a = 0 then 1 else 0)
    else if o = 0x20 then 8
    else
      match regRow a with
      | some r => BitVec.ofNat 32 r.reset
      | none => 0

end Sys2Proof.Machine
end

