-- ==== Sys2Proof/Machine/State.lean ====
section
/-! DEFINITION. The state of the block as plain data: the queue of waiting commands, package memory, the
registers, the records behind the windows, and the implied state of each subsystem. -/
namespace Sys2Proof.Machine
open Sys2Proof

/-- Why a command faults. -/
inductive Fault where
  /-- An alignment event names a crossing that the block does not build (02 Table 2-8, R408). Raised by
  ALIGN_FREQUENCY, ALIGN_FILL and ALIGN_LOCK. Safe: no such event can occur on the hardware. -/
  | noSuchCrossing
  deriving DecidableEq, Repr

/-- Why a command is refused. -/
inductive Refusal where
  /-- The command has no meaning yet. Safe. Raised by an arm of exec only; no arm does so. -/
  | notModelled (mnemonic : String)
  deriving DecidableEq, Repr

/-- What the block drives at its boundaries, as the model records it. -/
inductive Output where
  /-- A control-port response: KCP_ACK (with read data) or KCP_NAK (02 Table 2-1). -/
  | kcp (ack : Bool) (rdata : W32)
  /-- The level of KRDY (02 R37). -/
  | krdy (level : Bool)
  /-- Whether a Tun port's ready signal is free: a channel 0 request that waits holds it (11 R308): instance. -/
  | tunReady (inst : Nat) (level : Bool)
  /-- A port's ready signal toward the surroundings (02 R22, R53): class, index. -/
  | portReady (cls idx : Nat)
  /-- A frame handed to a MAC client (09 Table 9-1): the port; under Ethernet the destination and source
  addresses and the EtherType that the interface carries, else zero; the bytes. -/
  | frame (port dst src etype : Nat) (bytes : Bytes)

  /-- The answer to a client access of a Malt aperture (11 R293, R304): instance, logical address; 0 performed (with read
  data), 1 the controller's error response, 2 its poison response. -/
  | client (inst addr resp : Nat) (bytes : Bytes)
  /-- A time message handed to a MAC client (13 R362, R363): port, the node it goes to; 0 Sync, 1 Follow_Up, 2 Delay_Req,
  3 Delay_Resp; sequenceId, domainNumber and the time it carries. -/
  | ptp (port dst kind seq dom : Nat) (time : PtpTime)
  /-- The level of KTICK (13 R371). -/
  | ktick (level : Bool)
  deriving DecidableEq, Repr

/-! ### Control port, resets, alignment (02, 15 R406 to R408) -/

/-- The phase or final status of a crossing (02 R53, R55). -/
inductive Xing where
  | presence | frequency | fill | lock | opened | absent | badFreq | failed
  deriving DecidableEq, Repr

/-- A latched high half and a staged low half of a 64-bit field (02 R47): the byte offset it belongs to
and the word. -/
structure Pair where
  latch : Option (Nat × W32)
  stage : Option (Nat × W32)
  deriving DecidableEq, Repr

/-- Control state. -/
structure Ctl where
  /-- KX2_RST_N is low. -/
  rstLow : Bool
  /-- The KCP crossing is aligned (02 R54). -/
  kcpAligned : Bool
  /-- A transfer waiting for the KCP crossing (02 R54). -/
  kcpPend : Option KcpReq
  /-- Pages unlocked for their next write (02 R35), by page base. -/
  unlock : SMap Bool
  /-- R47 latches and stages: by the address of a window's DATA register or of a pair's low register. -/
  pairs : SMap Pair
  /-- SRAM initialisation runs (02 R51). -/
  sramInit : Bool
  /-- The KREF crossing has reached a final status since the reset (01 R22, 02 R53). -/
  krefDone : Bool
  /-- Crossings by 64 × class + index (02 Table 2-8). -/
  xing : SMap Xing
  /-- The opcode of the running control command (02 R43). -/
  cmd : Option Nat
  /-- CTL_KEY_STAGE0-7 (02 R44). -/
  stage : SMap W32
  /-- The sealed key slots (02 R44). -/
  keys : SMap (Option (BitVec 256))
  /-- SEQ of each domain (04 R115). -/
  seq : SMap Nat
  /-- Guard has assigned an incarnation since the domain's key was loaded (04 R116). -/
  incSince : SMap Bool
  /-- 64-bit counters, by the address of their low register. -/
  wide : SMap Nat
  /-- Words with a mode field, written while their LOADED context has a step open: the modes change at the next load (14
  R392). -/
  held : SMap (Option W32)
  deriving DecidableEq, Repr

/-! ### Hopper and Anvil (07, 15 R413 to R416) -/

/-- A prefetched descriptor (07 R198, R199): ring position, its 64 bytes, whether a snooped write
patched it. -/
structure Copy where
  pos : Nat
  bytes : Bytes
  refetch : Bool
  deriving DecidableEq, Repr

/-- A descriptor that has started and waits (STEP, WAIT_CNT, SORT, U_APPLY, U_PUBLISH): position, the
eight words as one number, patched, KTIME at its start. -/
structure Waiting where
  pos : Nat
  d : Nat
  refetch : Bool
  at_ : Nat
  deriving DecidableEq, Repr

/-- A descriptor that has ended and not completed (07 R175): what its completion record will hold and
the ranges it wrote. -/
structure Ended where
  pos : Nat
  op : Nat
  tag : Nat
  status : Nat
  cmpl : Bool
  cnt : Bool
  nf : Bool
  big : Bool
  refetch : Bool
  result : Nat
  hc : Nat
  seq : Nat
  writes : List (Nat × Nat)
  /-- For a U_PUBLISH of a step whose verdict is commit: the step (01 Table 1-4 UPDATE). -/
  upd : Option Nat
  deriving DecidableEq, Repr

/-- What the Hopper holds for a context beside its record. -/
structure HopCtx where
  checkFailed : Bool
  loadRefused : Bool
  copies : List Copy
  waiting : Option Waiting
  ended : List Ended
  resetReq : Bool
  /-- Order number of the moment it last became a candidate (07 R171). -/
  candAt : Option Nat
  /-- Candidate or owner at every instant of the accounting window so far (07 R172). -/
  candWin : Bool
  /-- Descriptors taken from the ring since the load (07 Table 7-4 SEQ). -/
  seq : Nat
  /-- Steps opened since the load (07 R181). -/
  opened : Nat
  /-- KTIME at the end of the last STEP descriptor (12 R332). -/
  stepEnd : Nat
  /-- The open step is a Sparge step (04 R118). -/
  sparge : Bool
  deriving DecidableEq, Repr

/-- The Hopper and the Anvil. -/
structure Hop where
  ctx : SMap HopCtx
  /-- The context that holds the Anvil (07 R170). -/
  owner : Option Nat
  /-- The context whose slice ended last. -/
  lastOwner : Option Nat
  /-- Order counter behind `candAt`. -/
  tick : Nat
  /-- Work estimates of the descriptors started in the accounting window (07 R172): context, W. -/
  winW : List (Nat × Nat)
  /-- hc of the running descriptor already charged in earlier windows. -/
  preHc : Nat
  /-- hc of the last grant's switch that may still pass in a later window (07 R170, R172). -/
  swHc : Nat
  /-- HOP_YIELD, oldest first (12 R356). -/
  yields : List W64
  /-- Hearth elements, by 65,536 × tile + 256 × row + column (07 R189). -/
  hearth : SMap W32
  /-- Claim number of each tile: 0 since SRAM initialisation. -/
  claims : SMap Nat
  /-- The full sort in Lauter: context and the pairs it loaded (04 R109). -/
  sort : Option (Nat × List W64)
  /-- Contexts whose SORT waits for Lauter, in order of start (07 R188). -/
  sortQ : List Nat
  deriving DecidableEq, Repr

/-! ### Temper (03, 05 R125, 15 R417, R418) -/

/-- Rule state of a tensor slot (03 R77): q, DN_CNT and HIST, newest first; HCOUNT is the length. -/
structure RuleSt where
  q : Int
  dn : Nat
  hist : List Nat
  deriving DecidableEq, Repr

/-- Terms of one Grist block's statistics, in ascending element order, kept until they are added in
that order over the step (03 R89, 04 R108, 06 R165): binary64 patterns. -/
structure BlkStat where
  /-- The block's maximum (03 R80). -/
  max : Nat
  e2 : List Nat
  y2 : List Nat
  kept : List Nat
  left : List Nat
  xs : List Nat
  deriving DecidableEq, Repr

/-- Statistics of a slot and step (03 Table 3-6, 05 R125, 04 R108, 06 R166). -/
structure SlotStat where
  step : Nat
  sat : Nat
  esc : Nat
  und : Nat
  wovf : Nat
  wund : Nat
  clamp : Bool
  maxL : Nat
  maxG : Nat
  elems : Nat
  flags : Nat
  nfSpans : Nat
  nfFirst : Option Nat
  blks : SMap BlkStat
  mseN : Nat
  mseD : Nat
  keptL1 : Nat
  leftL1 : Nat
  keptCnt : Nat
  ssq : Nat
  n : Nat
  mean : Nat
  m2 : Nat
  deriving DecidableEq, Repr

/-- A step boundary that waits for Temper (03 R86): the verdict's step, code and EARLY bit, the reduced
max table and stat table, and the resync image that a diverged skip carries (03 R84). -/
structure Bound where
  step : Nat
  verdict : Nat
  early : Bool
  table : List Nat
  stats : List Nat
  image : Option Bytes
  deriving DecidableEq, Repr

/-- Temper. `bB` holds B of a Billet slot once a boundary has set it, `staged` words 5 to 7 of a policy
record written live (key 8 × slot + word), `closed` the last step whose boundary has been processed, `ssqs` the reduced
SSQ of a slot by step, newest first, of the last nine steps (08 R218). -/
structure Tmp where
  rule : SMap RuleSt
  bB : SMap (Option Int)
  now : SMap SlotStat
  last : SMap SlotStat
  staged : SMap (Option W32)
  events : List W64
  bound : SMap (Option Bound)
  closed : SMap (Option Nat)
  ssqs : SMap (List (Nat × Nat))
  deriving DecidableEq, Repr

/-! ### Packer and codec (04) -/

/-- A 256-element group that the collector or the pattern source delivered to the codec front (04 R96,
06 R142, 14 R401). -/
structure Front where
  ctx : Nat
  slot : Nat
  step : Nat
  elem : Nat
  pat : Bool
  vals : List Nat
  deriving DecidableEq, Repr

/-- A Grist block before packing (04 R110 to R113): header fields, positions of a sparse body, element
patterns, escape records (position, value, capped) and tail fields. -/
structure Grist where
  digest : Nat
  tensor : Nat
  block : Nat
  format : Nat
  nelem : Nat
  sparse : Bool
  rot : Bool
  pos : List Nat
  codes : List Nat
  esc : List (Nat × Int × Bool)
  contrib : Nat
  nonfin : Bool
  winOvf : Bool
  last : Bool
  close : Bool
  deriving DecidableEq, Repr

/-- A block that the codec has quantised and the Packer has not taken (06 R160). -/
structure Own where
  ctx : Nat
  slot : Nat
  step : Nat
  bslot : Nat
  blk : Nat
  g : Grist
  deriving DecidableEq, Repr

/-- The codec: staged word 0 of each record (04 R95), groups at the front, quantised blocks, and blocks
of released positions whose own contribution comes later (12 R333). -/
structure Pck where
  staged : SMap (Option W32)
  front : List Front
  own : List Own
  deriving DecidableEq, Repr

/-! ### Mash (06) -/

/-- A leaf tile held in a tile buffer (06 R138, R141): its element patterns, and KTIME at its arrival. -/
structure Tile where
  leaf : Nat
  ctx : Nat
  slot : Nat
  elem : Nat
  step : Nat
  vals : List Nat
  at_ : Nat
  deriving DecidableEq, Repr

/-- An open block (06 R148): its place, its class (0 coded, 1 W192, 2 raw, 3 Sparge window), the child
map (09 R248), the accumulators, and the tail's fields so far. -/
structure Open where
  ctx : Nat
  bslot : Nat
  blk : Nat
  step : Nat
  slot : Nat
  tblk : Nat
  nelem : Nat
  rot : Bool
  kind : Nat
  marked : List Nat
  own : Bool
  released : Bool
  sums : List Int
  /-- Sparge: what the non-finite operands of an element were: 0 none, 1 +Inf, 2 −Inf, 3 mixed or NaN. -/
  marks : List Nat
  /-- Raw: the operands by logical node ID. -/
  raws : List (Nat × List Nat)
  dense : Bool
  pos : List Nat
  contrib : Nat
  nonfin : Bool
  winOvf : Bool
  waited : Bool
  /-- Once complete and handed over: the nodes it has still to be sent to. -/
  todo : Option (List Nat)
  /-- KX1: the parts of a node's operand so far: node, first position, values (09 R264). -/
  parts : List (Nat × Nat × List Nat)
  deriving DecidableEq, Repr

/-- A complete block handed over to the update unit and not yet converted (08 R209, R210): its sums,
or for raw values their binary32 patterns, and its CONTRIB. -/
structure Hand where
  ctx : Nat
  bslot : Nat
  blk : Nat
  step : Nat
  slot : Nat
  tblk : Nat
  rot : Bool
  kind : Nat
  sums : List Int
  raw : List Nat
  contrib : Nat
  deriving DecidableEq, Repr

/-- The pattern source of a context (14 R401): the step and the next slot and element. -/
structure Pat where
  step : Nat
  slot : Nat
  elem : Nat
  deriving DecidableEq, Repr

/-- Mash. `emitted` and `ownNext` are keyed by 65,536 × context + Billet slot. -/
structure Msh where
  tiles : List Tile
  /-- Groups (slot, element, step) whose stall has been reported (06 R143). -/
  stalled : List (Nat × Nat × Nat)
  staged : SMap (Option W32)
  opens : List Open
  emitted : SMap (List Nat)
  ownNext : SMap Nat
  hands : List Hand
  /-- M of each owned slot in the open step (05 R131). -/
  maxSum : SMap Nat
  pat : SMap (Option Pat)
  deriving DecidableEq, Repr

/-! ### Update unit (08) -/


/-- How many owned elements of a record the bank holds for a step (08 R210, R213). -/
structure Bank where
  urec : Nat
  step : Nat
  count : Nat
  deriving DecidableEq, Repr

/-- The update unit. `staged` holds words 1 to 9 written live (key 16 × record + word); `kiln` the Kiln store (08 R226), by
its 8-byte words; `heldIn` the (context, step) pairs in which a U_APPLY held a unit (08 R215). -/
structure Upd where
  staged : SMap (Option W32)
  kiln : SMap Nat
  banks : List Bank
  heldIn : List (Nat × Nat)
  /-- Step of the last gradient applied under a record (08 Table 8-7). -/
  lastStep : SMap Nat
  deriving DecidableEq, Repr

/-! ### Quicon (09) -/

/-- The key of a message (09 R241) but for the sender's own ID. KIND 5 and 6 stand for KX1 DATA and
GRANT (09 R263), whose BILLET is the bucket and whose BLK is SEQ. -/
structure MKey where
  dst : Nat
  ctx : Nat
  gen : Nat
  step : Nat
  billet : Nat
  blk : Nat
  kind : Nat
  deriving DecidableEq, Repr

/-- States of a sent message (09 R241). -/
inductive Phase where
  | queued | sending | sent
  deriving DecidableEq, Repr

/-- A message that this package sends (09 R239 to R243, R254, R256). -/
structure Msg where
  key : MKey
  payload : Bytes
  spec : Nat
  /-- Bytes that Bellows charges (09 R254; a Tongs READ adds its LEN, 10 R273). -/
  charge : Nat
  group : Nat
  phase : Phase
  attempt : Nat
  /-- The attempt is waiting for a grant or has segments to send. -/
  active : Bool
  /-- Segments of the attempt already granted. -/
  done : Nat
  port : Option Nat
  withdrawn : Bool
  order : Nat
  mash : Bool
  /-- KTIME at the first hand-over. -/
  tsend : Nat
  /-- KTIME at the hand-over of the attempt's last segment. -/
  sentAt : Nat
  cancelled : Bool
  /-- A context reset cancelled it: no outcome is reported, and its answers are stray (09 R262). -/
  gone : Bool
  /-- The origin block (tensor slot, q of its step, block), for the Carry fold (12 R334). -/
  own : Option (Nat × Int × Grist)
  /-- A residual read has waited for this message's outcome (12 Table 12-9). -/
  waited : Bool
  deriving DecidableEq, Repr

/-- A frame that is sent once: an ACK, a HEARTBEAT, a Tongs answer. `port` is, of an ACK, the port on which the answered
message's last segment arrived; of any other the port once it is fixed (09 R256). `moved` says that it was withdrawn from a
port that went down (R258), `tsend` holds its first hand-over. -/
structure Shot where
  cls : Nat
  port : Option Nat
  moved : Bool
  tsend : Option Nat
  key : MKey
  attempt : Nat
  spec : Nat
  payload : Bytes
  done : Nat
  order : Nat
  deriving DecidableEq, Repr

/-- A message in reassembly (09 R252). -/
structure Rx where
  src : Nat
  key : MKey
  len : Nat
  spec : Nat
  tsend : Nat
  incarn : Nat
  attempt : Nat
  port : Nat
  segs : List (Nat × Bytes)
  ce : Nat
  last : Nat
  waited : Bool
  deriving DecidableEq, Repr

/-- A Bellows flow (09 R254). -/
structure Flow where
  dst : Nat
  group : Nat
  cwnd : Nat
  alpha : Nat
  acked : Nat
  marked : Nat
  inflight : Nat
  used : Nat
  deriving DecidableEq, Repr

/-- Credit that a parent advertised (09 R246). -/
structure Credit where
  src : Nat
  ctx : Nat
  step : Nat
  bslot : Nat
  first : Nat
  nblk : Nat
  d : Nat
  win : Nat
  deriving DecidableEq, Repr

/-- A MAC port (09 R257): link up, usable, KTIME since which link and crossing have been good. -/
structure MacPort where
  link : Bool
  up : Bool
  since : Option Nat
  deriving DecidableEq, Repr

/-- A cooling entry (09 R248): a child that was not added to an emitted block. -/
structure Cool where
  ctx : Nat
  gen : Nat
  step : Nat
  billet : Nat
  blk : Nat
  node : Nat
  deriving DecidableEq, Repr

/-- A close entry (09 R248). -/
structure Close where
  ctx : Nat
  gen : Nat
  step : Nat
  at_ : Nat
  deriving DecidableEq, Repr

/-- A context that was reset (09 R262): context, GEN, KTIME, whether it was a KX1-mode context, and whether it left READY,
RUNNING or PARKED, so that its GEN is retired (R250). -/
structure Retired where
  ctx : Nat
  gen : Nat
  at_ : Nat
  kx1 : Bool
  was : Bool
  deriving DecidableEq, Repr

/-- Quicon and Bellows. `adv` holds the D last advertised to a child (key: record and child position),
`kx1Seq` the next SEQ for a destination (09 Table 9-8). -/
structure Qcn where
  msgs : List Msg
  shots : List Shot
  rx : List Rx
  flows : List Flow
  credits : List Credit
  adv : SMap (Option Nat)
  ports : SMap MacPort
  cool : List Cool
  closes : List Close
  retired : List Retired
  order : Nat
  /-- By port: first attempts of TONGS come next in the alternation of R260. -/
  altTongs : SMap Bool
  kx1Seq : SMap Nat
  deriving DecidableEq, Repr

/-! ### Tongs (10) -/

/-- A queue entry that has started and not been retired (10 R281 to R284): ring position, its four words
as one number, the key of its outstanding request, its status once completed, KTIME of the next poll of a
WAIT_RCNT, and whether its WRITE is held under the FLAG rule. -/
structure QEnt where
  pos : Nat
  w : Nat
  key : Option MKey
  status : Option Nat
  pollAt : Option Nat
  held : Bool
  deriving DecidableEq, Repr

/-- What a queue holds beside its record (10 R280, R283): the next position to start, the next SEQ, the
started entries in ring order, and a PUBCHK skip span that has not met its MARK. -/
structure TQueue where
  next : Nat
  seq : Nat
  ents : List QEnt
  skip : Bool
  deriving DecidableEq, Repr

/-- A done-list entry (10 R278): the request, the answer once it is known (0 an ACK, else the NAK CODE), and
KTIME at its writing. -/
structure DoneEnt where
  src : Nat
  inc : Nat
  ctx : Nat
  gen : Nat
  queue : Nat
  seq : Nat
  answer : Option Nat
  at_ : Nat
  deriving DecidableEq, Repr

/-- A WRITE whose data has been written and not yet acknowledged by the fabric (10 R276): the request,
the word of the arrival count that it advances, and the bytes written (address, length). -/
structure Perf where
  rx : Rx
  adv : Option Nat
  range : Nat × Nat
  deriving DecidableEq, Repr

/-- A local write of READ data that the fabric has not acknowledged (10 R282): queue, ring position, the bytes written. -/
structure LocalW where
  queue : Nat
  pos : Nat
  addr : Nat
  len : Nat
  deriving DecidableEq, Repr

/-- Tongs. `locals` are the local writes under way, oldest first; `keys` the access keys. -/
structure Tng where
  q : SMap TQueue
  dones : List DoneEnt
  perf : List Perf
  locals : List LocalW
  keys : SMap (Option W64)
  deriving DecidableEq, Repr

/-! ### Malt (11) -/

/-- An entry of a slice's block buffer (11 R298, R303): instance, partition, block; for an open entry the
bytes written so far, for an expanded VR block its bytes; order of opening. -/
structure MEnt where
  inst : Nat
  part : Nat
  blk : Nat
  data : List (Option Byte)
  cached : Bool
  order : Nat
  deriving DecidableEq, Repr

/-- A physical request that waits for admission (11 R306, R308). -/
inductive MKind where
  /-- A stored block on its way to memory. -/
  | write (addr : Nat) (bytes : Bytes)
  /-- A client read of part of a block: partition, block, logical address, length, poison indication. -/
  | read (part blk addr len : Nat) (poison : Bool)
  /-- A channel 0 request: Tun traffic that the controller presents (11 R307). -/
  | tun
  deriving DecidableEq, Repr

/-- A client read that waits until the smoothing queue can take its block's open entry (11 R298, R306), with its block,
logical address and length. -/
structure MHold where
  inst : Nat
  part : Nat
  blk : Nat
  addr : Nat
  len : Nat
  poison : Bool
  deriving DecidableEq, Repr

/-- A waiting request: instance, channel, physical bytes, order of arrival. -/
structure MReq where
  inst : Nat
  ch : Nat
  bytes : Nat
  kind : MKind
  order : Nat
  deriving DecidableEq, Repr

/-- An engine that walks a partition block by block: INIT (11 R299), or a pass of a pack (11 R302). `pass` is 0 for
INIT, 1 and 2; `off` the 64-byte units placed so far; `changed` a length that differed in pass 2. -/
structure MWalk where
  inst : Nat
  part : Nat
  pass : Nat
  next : Nat
  off : Nat
  changed : Bool
  order : Nat
  deriving DecidableEq, Repr

/-- Malt. `tok` holds the tokens of channel c of instance i at 9 × i + c and the instance bucket at 9 × i + 8;
`tabs` the FT table of a partition at 8 × i + p; `lines` the index lines cached (instance, partition, line). -/
structure Mlt where
  ents : List MEnt
  reqs : List MReq
  walks : List MWalk
  held : List MHold
  tok : SMap Int
  tabs : SMap (List Nat)
  lines : List (Nat × Nat × Nat)
  order : Nat
  deriving DecidableEq, Repr

/-! ### Guard (12) -/

/-- A VUP's record (12 Table 12-3), from a verdict child or this package's own merge. Manifest entries
are 128-bit numbers. -/
structure Vup where
  src : Nat
  step : Nat
  flags : Nat
  cover : Nat
  dig : Nat
  table : List Nat
  stats : List Nat
  man : List Nat
  fails : List Nat
  deriving DecidableEq, Repr

/-- A verdict (12 Table 12-4) with its payload as sent; `pseq` is the PSEQ of an agreed park. -/
structure Vd where
  step : Nat
  verdict : Nat
  vflags : Nat
  reasons : Nat
  mandig : Nat
  nman : Nat
  table : List Nat
  stats : List Nat
  man : List Nat
  incs : List Nat
  image : Option Bytes
  pseq : Nat
  deriving DecidableEq, Repr

/-- A park or a resume that waits for its turn in PSEQ order (12 R354). -/
structure ParkOp where
  pseq : Nat
  resume : Bool
  step : Nat
  launch : Nat
  incs : List Nat
  deriving DecidableEq, Repr

/-- A GUARD payload received in parts (12 R319). -/
structure GPart where
  src : Nat
  ctx : Nat
  gop : Nat
  step : Nat
  pseq : Nat
  n : Nat
  parts : List (Nat × Bytes)
  deriving DecidableEq, Repr

/-- What Guard holds for a context. -/
structure GCtx where
  /-- VUPs of the open step, or of a later one, from verdict children. -/
  vups : List Vup
  /-- The package's own VUP of the step has been sent, or at the root merged (12 R320). -/
  sent : Bool
  /-- KTIME at which the next VQUERY is due, and how many have been sent (12 R328). -/
  vqAt : Option Nat
  vqN : Nat
  /-- A decided verdict that waits for the standby's ACK (12 R324). -/
  decided : Option Vd
  /-- A verdict that waits for cooling space (09 R249). -/
  toHold : Option Vd
  /-- A VDOWN of the step that has not been opened here yet. -/
  later : Option Vd
  /-- Verdicts held, newest first, at most 16 (12 R328). -/
  vlog : List Vd
  /-- The code of every verdict held since the load, by step. -/
  verd : SMap (Option Nat)
  /-- This package's manifest entries of the step (12 R333, R336). -/
  man : List Nat
  manOvf : Bool
  /-- A digest or lock-step difference in the step (03 R84, 12 R351). -/
  diverge : Bool
  lsMis : Bool
  /-- A block received in the step carried WIN_OVF in its tail (06 R154). -/
  winOvf : Bool
  /-- Blocks hashed, Billets signed (12 R350, R351): Billet slot, block, hash; and the peer's signatures and block
  hashes, with their step. -/
  hashes : List (Nat × Nat × W64)
  sigs : List (Nat × W64)
  peer : List (Nat × Nat × W64)
  /-- Billets compared. -/
  compared : List Nat
  /-- Last PSEQ applied, and requests held back (12 R354). -/
  pseq : Nat
  ops : List ParkOp
  /-- An agreed park that has not taken effect: the step after which to park. -/
  park : Option Nat
  /-- The RESUME in force for the next STEP descriptor: its launch count (12 R345, R354). -/
  launch : Option Nat
  /-- A HOLD is held and no RESUME has been applied (12 R345). -/
  needResume : Bool
  /-- A RESUME has been applied since the context was loaded: it is a member of a running job. -/
  member : Bool
  /-- At the root: an accepted PARK that is not yet agreed: step and PSEQ (12 R353). -/
  asked : Option (Nat × Nat)
  /-- At the root: PSEQ numbers given; a PARK agreed and not ended by its RESUME. -/
  given : Nat
  agreed : Bool
  /-- Of the root and the standby, those to which a VQUERY of the step ended UNKNOWN (12 R330). -/
  lostTo : List Nat
  /-- Where the next step record goes in the MAN area (12 R337). -/
  manOff : Nat
  /-- A release at RT has happened in the step (12 R332). -/
  released : Bool
  /-- The resync image has been sent to the package that this one is TWIN of (12 R341). -/
  resynced : Bool
  /-- A VDOWN that carries a park is held and its RESUME has not been applied (14 Table 14-5 PARK_AGREED). -/
  parkHeld : Bool
  deriving DecidableEq, Repr

/-- An adoption in progress at the root (12 R340): the failed node, its new incarnation, the spare, and
whether its READY has arrived. -/
structure Adoption where
  node : Nat
  inc : Nat
  spare : Nat
  ready : Bool
  deriving DecidableEq, Repr

/-- Guard. -/
structure Grd where
  ctx : SMap GCtx
  staged : SMap (Option W32)
  parts : List GPart
  /-- Incarnations held, by node (12 R318, 16 GRD_INC_DATA). -/
  inc : SMap (Option Nat)
  /-- KTIME of the last valid heartbeat of each watch entry, or of its start; and which were heard. -/
  seen : SMap Nat
  heard : SMap Bool
  declared : SMap Bool
  /-- Heartbeat period: its number and KTIME of the last one (12 R315). -/
  period : Nat
  periodAt : Option Nat
  /-- FAILREPs held: subject and watcher; failures confirmed here (12 R316). -/
  reps : List (Nat × Nat)
  confirmed : List Nat
  /-- Confirmed nodes that reported themselves (12 R316, R347). -/
  selfs : List Nat
  fenced : Bool
  joins : List Nat
  adoptions : List Adoption
  /-- This package adopted an ID: the ID, its former ID; READY sent (12 R341). -/
  adopted : Option (Nat × Nat)
  readySent : Bool
  transferred : List Nat
  /-- Spares that have been told to adopt, by the ID they had. -/
  spent : List Nat
  /-- Nodes whose INCARN has arrived since the last RESUME (12 R341). -/
  newIncs : List Nat
  /-- The configuration registers of GRD page 0 in force since the last heartbeat period (16 R435). -/
  conf : SMap W32
  /-- SHARD_LOST has been found: the job stays held (12 R344). -/
  shardLost : Bool
  /-- Contexts that were reset as members of a running job and not loaded again since; an ADOPT of this package's own ID that
  waits for them, with its incarnation (12 R347). -/
  reload : List Nat
  ownAdopt : Option Nat
  deriving DecidableEq, Repr

/-! ### Time (13) -/

/-- What the Phase Timer has stamped for a step of a context (12 R352): KTIME of the start and of the end
of QUANT, PACK, REDUCE, VERDICT, UPDATE and FETCH, the verdict code with its EARLY bit, PARKED_AFTER. -/
structure PhaseRec where
  step : Nat
  verdict : Nat
  early : Bool
  parked : Bool
  /-- The record has been written (12 R352). -/
  written : Bool
  starts : SMap (Option Nat)
  ends : SMap (Option Nat)
  deriving DecidableEq, Repr

/-- A time exchange of a child (13 R363): the server asked, sequenceId, domainNumber, TIME_SYNC_LOG2 in force,
and the stamps known so far in KTIME units. -/
structure Exch where
  src : Nat
  seq : Nat
  dom : Nat
  log2 : Nat
  t2 : Nat
  t1 : Option Nat
  t3 : Option Nat
  deriving DecidableEq, Repr

/-- Time state. `pt` holds the Phase Timer records in force (15 R410). -/
structure TimeSt where
  /-- KTIME, modulo 2^64 (13 R359). -/
  ktime : Nat
  /-- The 40 fraction bits below it. -/
  frac : Nat
  /-- Phase stamps by 2 × context + step mod 2. -/
  ph : SMap PhaseRec
  pt : SMap W32
  /-- Record writes that TIME 1 holds back while it quiesces, oldest first: context, address, bytes (15 Table 15-1). -/
  ptHeld : List (Nat × Nat × Bytes)
  /-- The exchange in progress (13 R363). -/
  exch : Option Exch
  /-- Exchanges are taken from TIME_ALT (13 R364). -/
  onAlt : Bool
  /-- KTIME of the last valid exchange, and of the last one with TIME_PARENT, or of the start (13 Table 13-2). -/
  lastOk : Nat
  parentOk : Nat
  /-- Consecutive valid exchanges within 1 µs in SLEWING. -/
  slewN : Nat
  /-- KTIME at the entry to HOLDOVER. -/
  holdAt : Nat
  /-- rf × 2^40 (13 R366), and the value that it last had in LOCKED. -/
  rf : Int
  rfLocked : Int
  /-- The MAC port that time messages use (13 Table 13-1). -/
  port : Option Nat
  /-- As a server: the next sequenceId, and KTIME of the last Sync to each child (13 R362). -/
  syncSeq : Nat
  syncAt : SMap (Option Nat)
  /-- The last multiple of 2^21 units that KTIME has crossed, and the KREF cycles that KTICK stays high (13 R371). -/
  tick : Nat
  tickHigh : Nat
  deriving DecidableEq, Repr

/-! ### Identity (13) -/

/-- A scan (13 R374, R381): full or changed-only, and whether it runs on its own. -/
structure Scan where
  full : Bool
  auto : Bool
  deriving DecidableEq, Repr

/-- The identity master. `pos` is the position table, 64 bytes for each port (13 R376). -/
structure Iden where
  pos : SMap Bytes
  scan : Option Scan
  pend : Option Scan
  /-- Ports whose read failed on the bus in the running scan (13 R377). -/
  stuck : List Nat
  /-- The topology check: 0 none, 1 waiting, 2 running, 3 held back while IDEN 1 quiesces (13 R380, 15 Table 15-1). -/
  check : Nat
  /-- MAC ports that have gone down and not come back; expected ports that came back and await their scan (13 R381). -/
  down : List Nat
  due : List Nat
  deriving DecidableEq, Repr

/-! ### Damper (13) -/

/-- The launches of a context under pacing or curtailment (13 R385): TR, PL of the last launch, P_NOM, M0 and RAMP of
the ramp, and the curtailed level that the chain ran under, 1,000 for none. -/
structure Pace where
  tr : Nat
  pl : Nat
  nom : Nat
  m0 : Nat
  ramp : Nat
  level : Nat
  deriving DecidableEq, Repr

/-- The Damper. `hist` holds the telemetry words, newest first, `tel` the last one; `bins` the wear ring, bin 0 first; `snap`
its snapshot. -/
structure Dmp where
  hist : List W32
  tel : W32
  /-- Consecutive invalid words. -/
  bad : Nat
  /-- F and T of R384. -/
  fill : Nat
  tgt : Int
  /-- Fill has run in the present telemetry interval (13 R383). -/
  filled : Bool
  /-- KCURT as taken (13 R386). -/
  kcurt : Bool
  /-- The level in force, Pc; of KCURT and of the grid window the level in force, and the changes that have not taken effect:
  level, the KTICK rise from which on (13 R386). -/
  level : Nat
  pc : Nat
  kLev : Nat
  gLev : Nat
  changes : List (Nat × Nat)
  gchanges : List (Nat × Nat)
  /-- KTICK rises since reset, as R386 counts them. -/
  ticks : Nat
  pace : SMap (Option Pace)
  bins : List Nat
  snap : List Nat
  /-- Samples since the last advance of the ring. -/
  samples : Nat
  /-- The budget is spent (13 R389); WEAR_SPENT waits for the end of a STEP descriptor (R390). -/
  spent : Bool
  spentDue : Bool
  /-- 0 live, 2 deep park, 3 entering, 4 leaving (15 DMP_STATE). -/
  power : Nat
  deriving DecidableEq, Repr

/-! ### The state -/

/-- The state of the block. `pending` is the queue of commands, `out` what the block has driven (newest
first), `fresh` the counter behind the free values; the stores hold the records behind the windows by
record × words + word. -/
structure State where
  pending : List Instr
  out : List Output
  fresh : Nat
  /-- Package memory (00 R4, 07 R177); an unlisted byte reads 0. -/
  mem : List Host.Cell
  /-- Page headers and plain registers by byte address; an unlisted word holds its reset value. -/
  regs : SMap W32
  /-- Context records: 128 words each (15 R414). -/
  ctxR : SMap W32
  /-- Phase Timer records: 4 words (15 R410). -/
  ptR : SMap W32
  /-- Scale policy records: 8 words (03 R74). -/
  polR : SMap W32
  /-- Billet slot records: 1 word (03 R73). -/
  bslR : SMap W32
  /-- Codec records: 8 words (04 R93). -/
  pckR : SMap W32
  /-- Mash slot records: 4 words (06 R137). -/
  mshR : SMap W32
  /-- Update records with their state areas: 48 words (08 R205). -/
  updR : SMap W32
  /-- Tongs domain records and arrival counts: 48 words (10 R268, 16 R432). -/
  domR : SMap W32
  /-- Tongs queue records: 16 words (10 R279). -/
  tqR : SMap W32
  /-- Malt partition records: 24 words, by 8 × instance + partition (11 R290). -/
  partR : SMap W32
  /-- Guard context records: 25 words (12 R314). -/
  grdR : SMap W32
  ctl : Ctl
  hop : Hop
  tmp : Tmp
  pck : Pck
  msh : Msh
  upd : Upd
  qcn : Qcn
  tng : Tng
  mlt : Mlt
  grd : Grd
  time : TimeSt
  iden : Iden
  dmp : Dmp
  deriving DecidableEq, Repr

/-! ### Reset -/

/-- The machine right after its first power-up reset, KX2_RST_N still low (02 R50, Table 2-7; log entry 5): every register at
its reset value with TIME_EPOCH 1 (13 R360), SRAM initialised to zero, the key slots empty, KTIME 0, no crossing
aligned, nothing listed in package memory. -/
def State.reset : State :=
  { pending := [], out := [], fresh := 0, mem := [], regs := [(0x100048, 1)]
    ctxR := [], ptR := [], polR := [], bslR := [], pckR := [], mshR := [], updR := [], domR := [], tqR := [], partR := []
    grdR := []
    ctl := { rstLow := true, kcpAligned := false, kcpPend := none, unlock := [], pairs := [], sramInit := false, krefDone := false, xing := []
             cmd := none, stage := [], keys := [], seq := [], incSince := [], wide := [], held := [] }
    hop := { ctx := [], owner := none, lastOwner := none, tick := 0, winW := [], preHc := 0, swHc := 0, yields := [], hearth := []
             claims := [], sort := none, sortQ := [] }
    tmp := { rule := [], bB := [], now := [], last := [], staged := [], events := [], bound := [], closed := [], ssqs := [] }
    pck := { staged := [], front := [], own := [] }
    msh := { tiles := [], stalled := [], staged := [], opens := [], emitted := [], ownNext := [], hands := [], maxSum := []
             pat := [] }
    upd := { staged := [], kiln := [], banks := [], heldIn := [], lastStep := [] }
    qcn := { msgs := [], shots := [], rx := [], flows := [], credits := [], adv := [], ports := [], cool := [], closes := []
             retired := [], order := 0, altTongs := [], kx1Seq := [] }
    tng := { q := [], dones := [], perf := [], locals := [], keys := [] }
    mlt := { ents := [], reqs := [], walks := [], held := [], tok := [], tabs := [], lines := [], order := 0 }
    grd := { ctx := [], staged := [], parts := [], inc := [], seen := [], heard := [], declared := [], period := 0
             periodAt := none, reps := [], confirmed := [], selfs := [], fenced := false, joins := [], adoptions := []
             adopted := none, readySent := false, transferred := [], spent := [], newIncs := [], conf := []
             shardLost := false, reload := [], ownAdopt := none }
    time := { ktime := 0, frac := 0, ph := [], pt := [], ptHeld := [], exch := none, onAlt := false, lastOk := 0, parentOk := 0, slewN := 0
              holdAt := 0, rf := 0, rfLocked := 0, port := none, syncSeq := 0, syncAt := [], tick := 0, tickHigh := 0 }
    iden := { pos := [], scan := none, pend := none, stuck := [], check := 0, down := [], due := [] }
    dmp := { hist := [], tel := 0, bad := 0, fill := 0, tgt := 0, filled := false, kcurt := false, level := 1000, pc := 0
             kLev := 1000, gLev := 1000, changes := [], gchanges := [], ticks := 0
             pace := [], bins := [], snap := [], samples := 0, spent := false, spentDue := false, power := 0 } }

end Sys2Proof.Machine
end

