-- ==== Sys2Proof/Machine/Codec.lean ====
section
/-! DEFINITION. The arithmetic of the ingress path and of the element formats: the generator
(04 R97), scales (03 R65), windows (03 R70, R71), rotation (04 R103), selection (04 R107), rounding
and escapes (04 R105, 03 R66 to R68), and packing (03 R62, 04 R110 to R113). Pure functions of
their arguments; binary32 values are their patterns. -/
namespace Sys2Proof.Machine
open Sys2Proof

/-! ### The generator, 04 R97, R98 -/

/-- KA of 04 R97. -/
def kA : W64 := 0x8F3A6C1D52E9B4C7
/-- KB of 04 R97. -/
def kB : W64 := 0xE2F68B4D39A17C65
/-- KG of 04 R97. -/
def kG : W64 := 0xA5C31E976B2D48F1

/-- MIX of 04 R97. -/
def mix (z : W64) : W64 :=
  let z := (z ^^^ (z >>> 31)) * kA
  let z := (z ^^^ (z >>> 29)) * kB
  z ^^^ (z >>> 32)

/-- The four values a draw depends on beside its stream and index. -/
structure Seed where
  job : W64
  step : Nat
  node : Nat
  tensor : Nat
  deriving DecidableEq, Repr

/-- DRAW of 04 R97. -/
def draw (sd : Seed) (stream index : Nat) : W64 :=
  let z := mix (sd.job ^^^ BitVec.ofNat 64 ((stream <<< 48) ||| sd.step))
  let z := mix (z ^^^ BitVec.ofNat 64 ((sd.tensor <<< 40) ||| index))
  mix (z ^^^ (BitVec.ofNat 64 sd.node * kG))

/-- The 24 rounding bits of stream 0x0001 (04 Table 4-3). -/
def drawU24 (sd : Seed) (i : Nat) : Nat := nfld (draw sd 1 i).toNat 40 24
/-- The 16 rounding bits of stream 0x0002. -/
def drawU16 (sd : Seed) (i : Nat) : Nat := nfld (draw sd 2 i).toNat 0 16
/-- The sign bit of stream 0x0003: node 0, index `i - i mod 64`, bit `i mod 64`. -/
def signBit (sd : Seed) (i : Nat) : Bool :=
  (draw { sd with node := 0 } 3 (i - i % 64)).getLsbD (i % 64)

/-! ### Formats -/

/-- Width in bits of a block format (03 Table 3-1, 04 Table 4-4). -/
def fmtWidth (f : Nat) : Nat :=
  match f with
  | 0 => 8 | 1 => 6 | 2 => 4 | 3 => 2 | 4 => 192 | 5 => 32 | 6 => 16 | 8 => 16 | 9 => 32 | _ => 0

/-- Qmax of a K format (03 Table 3-1). -/
def qmaxOf (f : Nat) : Nat := match f with | 0 => 127 | 1 => 31 | 2 => 7 | 3 => 1 | _ => 0
/-- QOFF of 03 R76. -/
def qoffOf (f : Nat) : Nat := match f with | 0 => 27 | 1 => 19 | 2 => 11 | _ => 0
/-- K8, K6, K4 or K2. -/
def isCoded (f : Nat) : Bool := f ≤ 3
/-- Raw F32 or raw BF16. -/
def isRaw (f : Nat) : Bool := f == 5 || f == 6

/-! ### Scales, 03 R65 -/

/-- UP[j] of 03 Table 3-2. -/
def upC (j : Nat) : Nat :=
  match j with | 0 => 0x3F800000 | 1 => 0x3F9837F0 | 2 => 0x3FB504F3 | _ => 0x3FD744FD
/-- DN[j] of 03 Table 3-2. -/
def dnC (j : Nat) : Nat :=
  match j with | 0 => 0x3F800000 | 1 => 0x3F5744FD | 2 => 0x3F3504F3 | _ => 0x3F1837F0

/-- `⌊q/4⌋`. -/
def qk (q : Int) : Int := q / 4
/-- `q − 4⌊q/4⌋`. -/
def qj (q : Int) : Nat := (q % 4).toNat

/-- SCALE_DOWN of 03 R65. -/
def scaleDown (y : Nat) (q : Int) : Nat := fldexp f32 (fmul f32 y (dnC (qj q))) (-(qk q))
/-- SCALE_UP of 03 R65: the exact product of an integer and UP[j], rounded once. -/
def scaleUp (n : Int) (q : Int) : Nat :=
  fldexp f32 (encF f32 (vmul (ofInt false n 0) (decF f32 (upC (qj q))))) (qk q)

/-! ### Rotation, 04 R103 -/

/-- One stage of BUTTERFLIES: pairs `i`, `i + h` inside runs of `2h`. -/
def butterflyRun (h : Nat) (run : List Nat) : List Nat :=
  let a := run.take h
  let b := run.drop h
  List.zipWith (fadd f32) a b ++ List.zipWith (fsub f32) a b

/-- BUTTERFLIES of 04 R103 on 256 elements. -/
def butterflies (u : List Nat) : List Nat :=
  (List.range 8).foldl (fun v s => ((chunks (2 ^ (s + 1)) v).map (butterflyRun (2 ^ s))).flatten) u

/-- Negate the elements whose sign bit is 1. -/
def applySigns (sd : Seed) (g : Nat) (u : List Nat) : List Nat :=
  (indexed 0 u).map (fun p => if signBit sd (g + p.1) then fneg f32 p.2 else p.2)

/-- ROTATE of 04 R103; `g` is the index of the group's first element. -/
def rotate (sd : Seed) (g : Nat) (u : List Nat) : List Nat :=
  (butterflies (applySigns sd g u)).map (fun x => fldexp f32 x (-4))
/-- UNROTATE of 04 R103. -/
def unrotate (sd : Seed) (g : Nat) (y : List Nat) : List Nat :=
  applySigns sd g ((butterflies y).map (fun x => fldexp f32 x (-4)))

/-- A function applied to each group of 256 with the index of its first element. -/
def byGroups (f : Nat → List Nat → List Nat) (base : Nat) (u : List Nat) : List Nat :=
  ((indexed 0 (chunks 256 u)).map (fun p => f (base + 256 * p.1) p.2)).flatten

/-! ### Rounding, 04 R101, R105, 05 R127 -/

/-- SR_ROUND of 04 R105 on an exact value. -/
def srRound (v : FVal) (u : Nat) : Int :=
  match v with
  | .fin neg m e =>
    if 0 ≤ e then smant neg m * 2 ^ e.toNat
    else
      let d : Int := ((2 ^ (-e).toNat : Nat) : Int)
      let f := smant neg m / d
      let r := smant neg m - f * d
      if (u : Int) * d < r * 2 ^ 24 then f + 1 else f
  | _ => 0

/-- The clamp of 04 R106 to [−2^22, 2^22]; ±Inf clamps to ±2^22 (05 Table 5-4). -/
def clamp22 (v : FVal) : FVal :=
  match v with
  | .nan => .fin false 0 0
  | .inf n => .fin n 1 22
  | .fin n m e => if vlt (.fin false 1 22) (.fin false m e) then .fin n 1 22 else .fin n m e

/-- BF16_SR of 04 R101 with the saturation of 05 R127; also whether it saturated. -/
def bf16Sr (e u16 : Nat) : Nat × Bool :=
  let x := (e + u16) / 65536
  if isFin bf16 x then (x % 65536, false) else (bf16.maxFin (e.testBit 31), true)

/-- Widen a bfloat16 pattern to binary32 exactly. -/
def widenB (x : Nat) : Nat := x * 65536

/-! ### Selection, 04 R107 -/

/-- KEY of 04 R107. -/
def keyOf (y : Nat) : Nat := y % 2 ^ 31

/-- `a` ranks before `b`: larger key, then lower position. -/
def ranks (a b : Nat × Nat) : Bool := b.2 < a.2 || (a.2 == b.2 && a.1 < b.1)

/-- The kept positions of KEPT_SET(y, k): non-zero keys, the k largest, ties to the lower position. -/
def keptSet (y : List Nat) (k : Nat) : List Nat :=
  let es := ((indexed 0 y).map (fun p => (p.1, keyOf p.2))).filter (fun p => p.2 != 0)
  ((sortBy ranks es).take k).map (·.1)

/-! ### Escapes, 03 R66, R67 -/

/-- ESCAPE_SPLIT of 03 R66: (code, esc, sent). -/
def escapeSplit (qmax : Nat) (n : Int) (granted : Bool) (cap : Nat) : Int × Int × Int :=
  if n.natAbs ≤ qmax then (n, 0, n)
  else
    let code : Int := if n < 0 then -(qmax : Int) else qmax
    let e := n - code
    let esc : Int :=
      if !granted then 0 else if e.natAbs ≤ cap then e else if n < 0 then -(cap : Int) else cap
    (code, esc, code + esc)

/-- The positions granted an escape record (03 R67): largest |e| first, then the lower position. -/
def grants (qmax per : Nat) (ns : List (Nat × Int)) : List Nat :=
  let es := (ns.filter (fun p => qmax < p.2.natAbs)).map (fun p => (p.1, p.2.natAbs))
  ((sortBy ranks es).take per).map (·.1)

/-! ### Quantising a block, 04 R106 with 05 R127 -/

/-- What QUANTISE_BLOCK of 04 R106 depends on. -/
structure QIn where
  fmt : Nat
  q : Int
  escPer : Nat
  escCap : Nat
  rot : Bool
  topk : Bool
  resid : Bool
  k : Nat
  base : Nat
  underU : Nat
  seed : Seed
  /-- x of 04 R96, binary32. -/
  x : List Nat
  /-- residuals as read, bfloat16; empty when RESID = 0. -/
  res : List Nat
  /-- SV_FLAGS bits that each element's source value sets (05 R125, R128). -/
  src : List Nat
  deriving DecidableEq, Repr

/-- One pass of the codec for a given set of poisoned elements. -/
structure QPass where
  y : List Nat
  kept : List Nat
  ns : List (Nat × Int)
  split : List (Int × Int × Int)
  e : List Nat
  r : List Nat
  deriving DecidableEq, Repr

/-- Whether position `i` is in the same span as position `j` (05 R127). -/
def sameSpan (rot : Bool) (i j : Nat) : Bool := if rot then i / 256 == j / 256 else i == j

/-- Look up in an association list of positions. -/
def lookupPos {α : Type} (d : α) (xs : List (Nat × α)) (i : Nat) : α :=
  match xs.find? (fun p => p.1 == i) with | some p => p.2 | none => d

/-- u of 04 R106. -/
def qU (a : QIn) : List Nat :=
  if a.resid then List.zipWith (fun x r => fadd f32 x (widenB r)) a.x a.res else a.x

/-- Poison flags of each element before the rotation: the source's, RES_NF (bit 5) and ARITH_OVF
(bit 4) of the residual add. -/
def qFlags0 (a : QIn) : List Nat :=
  (indexed 0 (qU a)).map (fun p =>
    let s := a.src.getD p.1 0
    let rnf := a.resid && !isFin bf16 (a.res.getD p.1 0)
    let ovf := a.resid && isFin f32 (a.x.getD p.1 0) && !rnf && !isFin f32 p.2
    s ||| (if rnf then 32 else 0) ||| (if ovf then 16 else 0))

/-- The flags that poison: SRC_NAN, SRC_INF, CONV_OVF, ARITH_OVF, RES_NF (05 Table 5-2). -/
def poisonMask : Nat := 0x37

/-- Mark ARITH_OVF at the positions where a list is non-finite. -/
def markNf (flags ys : List Nat) : List Nat :=
  List.zipWith (fun f y => if isFin f32 y then f else f ||| 16) flags ys

/-- The spans poisoned by the given flags, spread over whole spans. -/
def spread (rot : Bool) (flags : List Nat) : List Bool :=
  let own := flags.map (fun f => f &&& poisonMask != 0)
  if rot then ((chunks 256 own).map (fun g => List.replicate g.length (g.any id))).flatten else own

/-- The values y with poisoned spans replaced by +0. -/
def qY (_a : QIn) (y : List Nat) (bad : List Bool) : List Nat :=
  List.zipWith (fun v b => if b then 0 else v) y bad

/-- Selection, rounding, escapes and residuals of 04 R106 on y. -/
def qPass (a : QIn) (y : List Nat) : QPass :=
  let n := y.length
  let kept := if a.topk then sortBy (fun i j => decide (i < j)) (keptSet y a.k) else List.range n
  let ns := kept.map (fun i =>
    (i, srRound (clamp22 (decF f32 (scaleDown (y.getD i 0) a.q))) (drawU24 a.seed (a.base + i))))
  let gr := grants (qmaxOf a.fmt) a.escPer ns
  let kx := ns.map (fun p => (p.1, escapeSplit (qmaxOf a.fmt) p.2 (gr.contains p.1) a.escCap))
  let split := (List.range n).map (fun i => lookupPos (0, 0, 0) kx i)
  let e := List.zipWith (fun v s => fsub f32 v (scaleUp s.2.2 a.q)) y split
  let r := if a.resid && a.rot then byGroups (unrotate a.seed) a.base e else e
  { y := y, kept := kept, ns := ns, split := split, e := e, r := r }

/-- Passes until no further span is poisoned by its residual computation (05 R127): the flags of the
block and the last pass. `fuel` bounds the spans. -/
def qSettle (a : QIn) (yAll : List Nat) : Nat → List Nat → List Nat × QPass
  | 0, flags => (flags, qPass a (qY a yAll (spread a.rot flags)))
  | k + 1, flags =>
    let p := qPass a (qY a yAll (spread a.rot flags))
    let flags' := markNf (markNf flags p.e) p.r
    if flags' = flags then (flags, p) else qSettle a yAll k flags'

/-- What the codec makes of a coded block. -/
structure QOut where
  /-- Flags of each element. -/
  flags : List Nat
  /-- Which elements lie in a poisoned span. -/
  bad : List Bool
  pass : QPass
  /-- Residuals to store, bfloat16 (empty when RESID = 0). -/
  res : List Nat
  /-- A residual store saturated. -/
  resSat : Bool
  deriving DecidableEq, Repr

/-- QUANTISE_BLOCK of 04 R106 with the poisoned spans of 05 R127. -/
def quantise (a : QIn) : QOut :=
  let u := qU a
  let f0 := qFlags0 a
  let bad0 := spread a.rot f0
  let y0 := if a.rot then byGroups (rotate a.seed) a.base (qY a u bad0) else u
  let f1 := List.zipWith (fun f p => if p.2 then f else if isFin f32 p.1 then f else f ||| 16) f0
    (List.zip y0 bad0)
  let (flags, p) := qSettle a y0 (u.length + 1) f1
  let bad := spread a.rot flags
  let st := (indexed 0 p.r).map (fun v =>
    if bad.getD v.1 false then
      let r := a.res.getD v.1 0
      (if isFin bf16 r then r else 0, false)
    else bf16Sr v.2 (drawU16 a.seed (a.base + v.1)))
  { flags := flags, bad := bad, pass := p
    res := if a.resid then st.map (·.1) else []
    resSat := a.resid && st.any (·.2) }

/-! ### The 64-bit window, 03 R70, R71 -/

/-- Into the window: N for a value, or none when `|x| ≥ 2^(top+1)` (03 R71, R72). -/
def windowIn (top : Int) (v : FVal) : Option Int :=
  match v with
  | .fin neg m e =>
    if vlt (.fin false m e) (.fin false 1 (top + 1)) then some (rneInt (.fin neg m (e + 170 - top)))
    else none
  | _ => none

/-- Out of the window to a format. -/
def windowOut (f : Fmt) (top : Int) (n : Int) : Nat := encF f (ofInt false n (top - 170))

/-! ### Source conversion, 04 R96, 05 R128 -/

/-- x of 04 R96 for a coded or raw slot and its SV_FLAGS bits; `c` is the width of the collected
value (binary32, or binary64 for an FP64 source). -/
def convert32 (c : Fmt) (ls : Int) (v : Nat) : Nat × Nat :=
  if isNan c v then (f32.qnan, 1)
  else if isInf c v then (cvt c f32 v, 2)
  else
    let x := fldexp f32 (cvt c f32 v) (-ls)
    if !isFin f32 x then (x, 4)
    else
      let exact := vshift (-ls) (decF c v)
      let small := nfld x 23 8 == 0
      let inexact := vlt exact (decF f32 x) || vlt (decF f32 x) exact
      (x, if small && inexact then 8 else 0)

/-- x of 04 R96 for a W192 slot, in binary64, and its SV_FLAGS bits. -/
def convert64 (c : Fmt) (ls : Int) (v : Nat) : Nat × Nat :=
  if isNan c v then (f64.qnan, 1)
  else if isInf c v then (cvt c f64 v, 2)
  else
    let x := fldexp f64 (cvt c f64 v) (-ls)
    if !isFin f64 x then (x, 4)
    else
      let exact := vshift (-ls) (decF c v)
      let small := nfld x 52 11 == 0
      let inexact := vlt exact (decF f64 x) || vlt (decF f64 x) exact
      (x, if small && inexact then 8 else 0)

/-! ### Packing, 03 R62 -/

/-- Pack numbers of `w` bits, least significant bit first, into bytes. -/
def packBits (w : Nat) (xs : List Nat) : Bytes :=
  leBytes (cdiv (w * xs.length) 8) (xs.foldr (fun x acc => (x % 2 ^ w) + acc * 2 ^ w) 0)

/-- Unpack `n` numbers of `w` bits. -/
def unpackBits (w n : Nat) (bs : Bytes) : List Nat :=
  let v := ofLe bs
  (List.range n).map (fun i => nfld v (w * i) w)

/-- Escape record of 03 Table 3-3. -/
def escBytes (e : Nat × Int × Bool) : Bytes :=
  leBytes 6 (ofIntF f32 e.2.1 + (e.1 <<< 32) + (b2n e.2.2 <<< 44))

/-- Header of 04 Table 4-4. -/
def gristHeader (g : Grist) : Bytes :=
  leBytes 16 (g.digest + (g.tensor <<< 32) + (g.block <<< 56) + (g.format <<< 84)
    + ((g.nelem - 1) <<< 88) + ((if g.sparse then g.pos.length else 0) <<< 100)
    + (g.esc.length <<< 113) + (b2n g.sparse <<< 120) + (b2n g.rot <<< 121))

/-- Body and escape area of 04 Table 4-5. -/
def gristBody (g : Grist) : Bytes :=
  let w := fmtWidth g.format
  let body :=
    if g.sparse then
      let p := packBits 12 g.pos
      let c := packBits w g.codes
      fitBytes (pad8 p.length) p ++ fitBytes (pad8 c.length) c
    else
      let c := packBits w g.codes
      fitBytes (pad8 c.length) c
  let ea := (g.esc.map escBytes).flatten
  body ++ fitBytes (pad8 ea.length) ea

/-- Tail bytes 0 to 3 of 04 Table 4-6. -/
def gristTail4 (g : Grist) : Bytes :=
  leBytes 4 (g.contrib + (b2n g.nonfin <<< 20) + (b2n g.winOvf <<< 21) + (b2n g.last <<< 22)
    + (b2n g.close <<< 23))

/-- A plain block: header, body, escape area, tail with BCHK (04 R110 to R113). -/
def gristBytes (g : Grist) : Bytes :=
  let p := gristHeader g ++ gristBody g ++ gristTail4 g
  p ++ leBytes 4 (crc32c p)

/-- Bytes of the body, position list and escape area that a header announces (04 Table 4-5). -/
def areaSizes (format nelem npos nesc : Nat) (sparse : Bool) : Nat :=
  let w := fmtWidth format
  (if sparse then pad8 (cdiv (12 * npos) 8) + pad8 (cdiv (npos * w) 8) else pad8 (cdiv (nelem * w) 8))
    + pad8 (6 * nesc)

/-- Strictly ascending. -/
def ascending : List Nat → Bool
  | a :: b :: xs => a < b && ascending (b :: xs)
  | _ => true

/-- The BCHK of a plain block matches (04 Table 4-8 check 2). -/
def bchkOk (bs : Bytes) : Bool :=
  24 ≤ bs.length && ofLe (bs.drop (bs.length - 4)) == crc32c (bs.take (bs.length - 4))

/-- The reserved pattern of a K format (03 Table 3-1). -/
def reservedCode (f : Nat) : Option Nat :=
  match f with | 0 => some 0x80 | 1 => some 0x20 | 2 => some 8 | 3 => some 2 | _ => none

/-- An escape record read back: position, value, capped; none when it breaks 03 R68. -/
def escOf (cap nelem : Nat) (bs : Bytes) : Option (Nat × Int × Bool) :=
  let v := ofLe bs
  let x := decF f32 (nfld v 0 32)
  let n := rneInt x
  let pos := nfld v 32 12
  if nfld v 45 3 = 0 && pos < nelem && n.natAbs ≤ cap && isFin f32 (nfld v 0 32)
      && encF f32 (ofInt ((nfld v 0 32).testBit 31) n 0) == nfld v 0 32
  then some (pos, n, v.testBit 44) else none

/-- All of a list of options, or none. -/
def allSome {α : Type} : List (Option α) → Option (List α)
  | [] => some []
  | none :: _ => none
  | some x :: xs => (allSome xs).map (x :: ·)

/-- A plain block parsed under check 3 of 04 Table 4-8, as far as the block alone decides: FORMAT not
reserved, areas, padding, reserved patterns and escape values (03 R63, R68). -/
def gristParse (cap : Nat) (bs : Bytes) : Option Grist :=
  let h := ofLe (bs.take 16)
  let format := nfld h 84 4
  let nelem := nfld h 88 12 + 1
  let npos := nfld h 100 13
  let nesc := nfld h 113 7
  let sparse := h.testBit 120
  let w := fmtWidth format
  let n := if sparse then npos else nelem
  let ps := if sparse then pad8 (cdiv (12 * npos) 8) else 0
  let body := bs.drop 16
  let pos := if sparse then unpackBits 12 npos body else []
  let codes := unpackBits w n (body.drop ps)
  let eoff := ps + pad8 (cdiv (n * w) 8)
  let ea := (body.drop eoff).take (6 * nesc)
  let escs := allSome ((chunks 6 ea).map (escOf cap nelem))
  let t := ofLe ((bs.drop (bs.length - 8)).take 4)
  match escs with
  | none => none
  | some esc =>
    let g : Grist :=
      { digest := nfld h 0 32, tensor := nfld h 32 24, block := nfld h 56 28, format := format,
        nelem := nelem, sparse := sparse, rot := h.testBit 121, pos := pos, codes := codes, esc := esc,
        contrib := nfld t 0 20, nonfin := t.testBit 20, winOvf := t.testBit 21, last := t.testBit 22,
        close := t.testBit 23 }
    let ok := w != 0 && nfld h 122 6 == 0 && nfld t 24 8 == 0
      && bs.length == 24 + areaSizes format nelem npos nesc sparse
      && (sparse || npos == 0)
      && (!sparse || (ascending pos && pos.all (fun p => decide (p < nelem))
           && (format ≤ 3 || format == 8 || format == 9)))
      && (nesc == 0 || format ≤ 3) && decide (nesc ≤ 64)
      && ascending (esc.map (·.1))
      && (!sparse || esc.all (fun e => pos.contains e.1))
      && codes.all (fun c => some c != reservedCode format)
      && gristHeader g ++ gristBody { g with esc := [] } ++ fitBytes (pad8 ea.length) ea ++ gristTail4 g
        == bs.take (bs.length - 4)
    if ok then some g else none

/-- The signed value of a code of a coded, P16 or P32 format. -/
def codeVal (f c : Nat) : Int := sgn (fmtWidth f) c

/-- The element sums that a coded block carries: codes and escapes at their positions, 0 elsewhere. -/
def gristVals (g : Grist) : List Int :=
  let cs := if g.sparse then List.zip g.pos g.codes else indexed 0 g.codes
  (List.range g.nelem).map (fun i =>
    (match cs.find? (fun p => p.1 == i) with | some p => codeVal g.format p.2 | none => 0)
    + (match g.esc.find? (fun e => e.1 == i) with | some e => e.2.1 | none => 0))

/-- The positions a coded block makes present (06 R150). -/
def gristPresent (g : Grist) : List Nat := if g.sparse then g.pos else List.range g.nelem

/-- QLOG4 of 03 R76 for a positive normal binary32. -/
def qlog4 (m : Nat) : Int :=
  let e : Int := (nfld m 23 8 : Int) - 127
  let s := m % 2 ^ 23 + 2 ^ 23
  if s = 8388608 then 4 * e
  else if s ≤ 9975792 then 4 * e + 1
  else if s ≤ 11863283 then 4 * e + 2
  else if s ≤ 14107900 then 4 * e + 3
  else 4 * e + 4

/-- PAT_VALUE of 14 R400 in a format: `kind` 0 RANDOM, 1 INDEX. -/
def patValue (f : Fmt) (sd : Seed) (kind : Nat) (pexp : Int) (len i : Nat) : Nat :=
  if len ≤ i then 0
  else if kind = 0 then encF f (ofInt false (sgn 24 (nfld (draw sd 4 i).toNat 40 24)) (pexp - 23))
  else encF f (ofInt false (((i % 4096 : Nat) : Int) - 2048) (pexp - 11))

end Sys2Proof.Machine
end

