-- ==== Sys2Proof/Machine/Operands.lean ====
section
/-! DEFINITION. Operand fields: registers and records read by name (15 Tables 15-11, 15-15; 16), and the
words of a descriptor (07 R174, Tables 7-2, 7-6 to 7-10). -/
namespace Sys2Proof.Machine
open Sys2Proof

/-! ### Registers and records -/

/-- A word of the register space. -/
def State.reg (s : State) (a : Nat) : W32 := s.regs.get regReset a
/-- Store a word of the register space. -/
def State.setReg (s : State) (a : Nat) (v : W32) : State := { s with regs := s.regs.set regReset a v }
/-- A register as a number. -/
def State.regN (s : State) (a : Nat) : Nat := (s.reg a).toNat
/-- Store a number in a register. -/
def State.setRegN (s : State) (a v : Nat) : State := s.setReg a (BitVec.ofNat 32 v)
/-- A field of a register. -/
def State.regF (s : State) (a lo n : Nat) : Nat := fld (s.reg a) lo n
/-- A 64-bit quantity in two registers, low word first (15, 02 R47). -/
def State.reg64 (s : State) (a : Nat) : Nat := s.regN a + s.regN (a + 4) * 2 ^ 32
/-- Store a 64-bit quantity in two registers. -/
def State.setReg64 (s : State) (a v : Nat) : State :=
  (s.setRegN a (v % 2 ^ 32)).setRegN (a + 4) (v / 2 ^ 32)

/-- A word of a context record. -/
def State.cw (s : State) (c w : Nat) : W32 := s.ctxR.get zero32 (c * 128 + w)
/-- Store a word of a context record. -/
def State.setCw (s : State) (c w : Nat) (v : W32) : State :=
  { s with ctxR := s.ctxR.set zero32 (c * 128 + w) v }
/-- A field of a context record. -/
def State.cf (s : State) (c w lo n : Nat) : Nat := fld (s.cw c w) lo n
/-- Store a field of a context record. -/
def State.setCf (s : State) (c w lo n v : Nat) : State := s.setCw c w (setFld (s.cw c w) lo n v)
/-- A 64-bit quantity in two words of a context record. -/
def State.c64 (s : State) (c w : Nat) : Nat := (s.cw c w).toNat + (s.cw c (w + 1)).toNat * 2 ^ 32
/-- Store a 64-bit quantity in two words of a context record. -/
def State.setC64 (s : State) (c w v : Nat) : State :=
  (s.setCw c w (BitVec.ofNat 32 v)).setCw c (w + 1) (BitVec.ofNat 32 (v / 2 ^ 32))
/-- An address or size field: the low word, and bits [15:0] of the high word (10 R268). -/
def State.cAddr (s : State) (c w : Nat) : Nat := s.c64 c w % 2 ^ 48

/-- Context states of 01 Table 1-2. -/
def stFree : Nat := 0
def stLoaded : Nat := 1
def stReady : Nat := 2
def stRunning : Nat := 3
def stParked : Nat := 4
def stFaulted : Nat := 7

/-- STATE (15 Table 15-11). -/
def State.cState (s : State) (c : Nat) : Nat := s.cf c 0 0 3
/-- PDOM. -/
def State.cPdom (s : State) (c : Nat) : Nat := s.cf c 0 16 12
/-- PRIO. -/
def State.cPrio (s : State) (c : Nat) : Nat := s.cf c 0 28 2
/-- SHARE. -/
def State.cShare (s : State) (c : Nat) : Nat := s.cf c 2 0 9
/-- QUANTUM with 0 selecting 4,096 (07 R170). -/
def State.cQuantum (s : State) (c : Nat) : Nat :=
  let q := s.cf c 3 0 32
  if q = 0 then 4096 else q
/-- MAX_HC. -/
def State.cMaxHc (s : State) (c : Nat) : Nat := s.cf c 4 0 32
/-- ENC. -/
def State.cEnc (s : State) (c : Nat) : Bool := bit (s.cw c 5) 0
/-- TNG_EN. -/
def State.cTng (s : State) (c : Nat) : Bool := bit (s.cw c 5) 1
/-- KX1. -/
def State.cKx1 (s : State) (c : Nat) : Bool := bit (s.cw c 5) 2
/-- PATTERN. -/
def State.cPattern (s : State) (c : Nat) : Bool := bit (s.cw c 5) 3
/-- RING_LOG2. -/
def State.cRingLog2 (s : State) (c : Nat) : Nat := s.cf c 5 16 5
/-- Ring positions: 2^n (02 R49). -/
def State.cRing (s : State) (c : Nat) : Nat := 2 ^ s.cRingLog2 c
/-- GEN. -/
def State.cGen (s : State) (c : Nat) : Nat := s.cf c 6 0 16
/-- HEARTH_MASK. -/
def State.cHearth (s : State) (c : Nat) : Nat := s.cf c 7 0 32
/-- RING_BASE. -/
def State.cRingBase (s : State) (c : Nat) : Nat := s.cAddr c 8
/-- CMPL_BASE. -/
def State.cCmplBase (s : State) (c : Nat) : Nat := s.cAddr c 10
/-- MEM_BASE. -/
def State.cMemBase (s : State) (c : Nat) : Nat := s.cAddr c 12
/-- MEM_SIZE. -/
def State.cMemSize (s : State) (c : Nat) : Nat := s.cAddr c 14
/-- ROUTE_BASE. -/
def State.cRouteBase (s : State) (c : Nat) : Nat := s.cAddr c 16
/-- ROUTE_CNT. -/
def State.cRouteCnt (s : State) (c : Nat) : Nat := s.cf c 18 0 32
/-- CHILD_BASE. -/
def State.cChildBase (s : State) (c : Nat) : Nat := s.cAddr c 19
/-- STAGE_BASE. -/
def State.cStageBase (s : State) (c : Nat) : Nat := s.cAddr c 21
/-- STAGE_SEGS. -/
def State.cStageSegs (s : State) (c : Nat) : Nat := s.cf c 23 0 16
/-- STAGE_OUT. -/
def State.cStageOut (s : State) (c : Nat) : Nat := s.cf c 23 16 16
/-- JOB_SEED. -/
def State.cSeed (s : State) (c : Nat) : W64 := BitVec.ofNat 64 (s.c64 c 24)
/-- STEP_CUR. -/
def State.cStep (s : State) (c : Nat) : Nat := s.c64 c 26 % 2 ^ 48
/-- CMPL_CNT. -/
def State.cCmplCnt (s : State) (c : Nat) : Nat := s.c64 c 28 % 2 ^ 48
/-- HEAD. -/
def State.cHead (s : State) (c : Nat) : Nat := s.cf c 30 0 16
/-- TAIL. -/
def State.cTail (s : State) (c : Nat) : Nat := s.cf c 30 16 16
/-- WIN_HC. -/
def State.cWinHc (s : State) (c : Nat) : Nat := s.cf c 33 0 32

/-- READY, RUNNING or PARKED (02 R48, 15 Table 15-11). -/
def State.cActive (s : State) (c : Nat) : Bool :=
  s.cState c == stReady || s.cState c == stRunning || s.cState c == stParked
/-- READY or RUNNING (01 R17). -/
def State.cRunnable (s : State) (c : Nat) : Bool := s.cState c == stReady || s.cState c == stRunning

/-- Contexts that a store of context records mentions: a context with no word listed is FREE. -/
def ctxIds : SMap W32 → List Nat
  | [] => []
  | (k, _) :: m =>
    match ctxIds m with
    | [] => [k / 128]
    | c :: cs => if c = k / 128 then c :: cs else k / 128 :: c :: cs
/-- The non-FREE contexts, ascending. -/
def State.live (s : State) : List Nat := (ctxIds s.ctxR).filter (fun c => s.cState c != stFree)

/-- What the Hopper holds for a context that nothing has touched. -/
def hopCtx0 (_ : Nat) : HopCtx :=
  { checkFailed := false, loadRefused := false, copies := [], waiting := none, ended := [],
    resetReq := false, candAt := none, candWin := false, seq := 0, opened := 0, stepEnd := 0,
    sparge := false }
/-- What the Hopper holds for a context. -/
def State.hx (s : State) (c : Nat) : HopCtx := s.hop.ctx.get hopCtx0 c
/-- Change what the Hopper holds for a context. -/
def State.setHx (s : State) (c : Nat) (h : HopCtx) : State :=
  { s with hop := { s.hop with ctx := s.hop.ctx.set hopCtx0 c h } }

/-! ### Guard's state of a context -/

/-- What Guard holds for a context that nothing has touched. -/
def gctx0 (_ : Nat) : GCtx :=
  { vups := [], sent := false, vqAt := none, vqN := 0, decided := none, toHold := none, later := none, vlog := [], verd := [],
    man := [], manOvf := false, diverge := false, lsMis := false, winOvf := false, hashes := [], sigs := [],
    peer := [], compared := [], pseq := 0, ops := [], park := none, launch := none,
    needResume := false, member := false, asked := none, given := 0, agreed := false, lostTo := [],
    manOff := 0, released := false, resynced := false, parkHeld := false }
/-- What Guard holds for a context. -/
def State.gx (s : State) (c : Nat) : GCtx := s.grd.ctx.get gctx0 c
/-- Store what Guard holds for a context. -/
def State.setGx (s : State) (c : Nat) (g : GCtx) : State :=
  { s with grd := { s.grd with ctx := s.grd.ctx.set gctx0 c g } }
/-- A word of a Guard context record (12 Table 12-1). -/
def State.gw (s : State) (c w : Nat) : W32 := s.grdR.get zero32 (25 * c + w)
/-- An address field of a Guard context record. -/
def State.gAddr (s : State) (c w : Nat) : Nat := ((s.gw c w).toNat + (s.gw c (w + 1)).toNat * 2 ^ 32) % 2 ^ 48

/-- The verdict that the package holds for a step: 0 COMMIT, 1 SKIP, 2 HOLD (12 R326). -/
def State.verdictOf (s : State) (c step : Nat) : Option Nat := (s.gx c).verd.get (fun _ => none) step

/-! ### Update records -/

/-- A word of an update record or of its state area (08 Tables 8-1, 8-3). -/
def State.uw (s : State) (u w : Nat) : W32 := s.updR.get zero32 (48 * u + w)
/-- A field of an update record. -/
def State.uf (s : State) (u w lo n : Nat) : Nat := fld (s.uw u w) lo n
/-- A 64-bit quantity of an update record. -/
def State.u64 (s : State) (u w : Nat) : Nat := (s.uw u w).toNat + (s.uw u (w + 1)).toNat * 2 ^ 32
/-- An address field of an update record. -/
def State.uAddr (s : State) (u w : Nat) : Nat := s.u64 u w % 2 ^ 48
/-- Store a word of an update record. -/
def State.setUw (s : State) (u w v : Nat) : State :=
  { s with updR := s.updR.set zero32 (48 * u + w) (BitVec.ofNat 32 v) }
/-- Store a 64-bit quantity of an update record. -/
def State.setU64 (s : State) (u w v : Nat) : State := (s.setUw u w v).setUw u (w + 1) (v / 2 ^ 32)
/-- CONTEXT of an update record. -/
def State.uCtx (s : State) (u : Nat) : Nat := s.uf u 13 0 12
/-- USED. -/
def State.uUsed (s : State) (u : Nat) : Bool := bit (s.uw u 0) 31
/-- OWN_FIRST. -/
def State.ownFirst (s : State) (u : Nat) : Nat := (s.uw u 10).toNat + s.uf u 11 0 8 * 2 ^ 32
/-- OWN_LEN. -/
def State.ownLen (s : State) (u : Nat) : Nat := (s.uw u 12).toNat
/-- SLOW_D. -/
def State.slowD (s : State) (u : Nat) : Nat := s.uf u 0 24 4
/-- Every owned element of a step is in its gradient bank (08 R213). -/
def State.bankFull (s : State) (u step : Nat) : Bool :=
  s.upd.banks.any (fun b => b.urec == u && b.step == step && b.count == s.ownLen u)

/-! ### Package memory -/

/-- What a byte of package memory that nothing has written reads as (log entry 4). -/
def mem0 (_ : Nat) : Byte := 0
/-- The canonical form of package memory: addresses strictly rising, no entry equal to what an unlisted byte reads as. -/
def Memory.wf (m : List Host.Cell) : Bool := SMap.wf mem0 m
/-- One byte of package memory. -/
def State.byte (s : State) (a : Nat) : Byte := SMap.get mem0 s.mem a
/-- The entries of a store from key `a` on. -/
def SMap.dropTo {α : Type} : SMap α → Nat → SMap α
  | [], _ => []
  | (k, v) :: m, a => if k < a then SMap.dropTo m a else (k, v) :: m
/-- `n` consecutive values from key `a`, reading along the sorted entries. -/
def SMap.readRun {α : Type} (d : Nat → α) : SMap α → Nat → Nat → List α
  | _, _, 0 => []
  | [], a, n + 1 => d a :: SMap.readRun d [] (a + 1) n
  | (k, v) :: m, a, n + 1 =>
    if k = a then v :: SMap.readRun d m (a + 1) n else d a :: SMap.readRun d ((k, v) :: m) (a + 1) n
/-- `n` bytes of package memory from `a`. -/
def State.bytes (s : State) (a n : Nat) : Bytes := SMap.readRun mem0 (SMap.dropTo s.mem a) a n
/-- `n` bytes from `a` as a little-endian number. -/
def State.memN (s : State) (a n : Nat) : Nat := ofLe (s.bytes a n)
/-- Write bytes to package memory, without the snoop. -/
def State.poke (s : State) (a : Nat) (bs : Bytes) : State := { s with mem := SMap.setRun mem0 s.mem a bs }

/-! ### Descriptor words -/

/-- Bits `[lo+n-1:lo]` of word Qk of a descriptor. -/
def dq (d k lo n : Nat) : Nat := nfld d (64 * k + lo) n
/-- OP (07 Table 7-2). -/
def dOp (d : Nat) : Nat := dq d 0 0 8
/-- CMPL. -/
def dCmpl (d : Nat) : Bool := d.testBit 8
/-- CNT. -/
def dCnt (d : Nat) : Bool := d.testBit 9
/-- ORD. -/
def dOrd (d : Nat) : Bool := d.testBit 10
/-- TAG. -/
def dTag (d : Nat) : Nat := dq d 0 16 16

/-- Every bit of words Q0 to Q7 outside the masks is zero (07 R174); a word past the list is reserved. -/
def reservedOk (d : Nat) (masks : List Nat) : Bool :=
  (List.range 8).all (fun k => dq d k 0 64 &&& (2 ^ 64 - 1 - masks.getD k 0) == 0)
/-- The bits of Q0 that Table 7-2 lists. -/
def q0Mask : Nat := 0xFFFF07FF

end Sys2Proof.Machine
end

