-- ==== Sys2Proof/Machine/Flags.lean ====
section
/-! DEFINITION. Flags and counters: PG_ERR, PG_ERR_FIRST and attention (02 R36, R39), KRDY and its causes
(02 R37, R38), page event counters (15 R404) and saturating counters. -/
namespace Sys2Proof.Machine
open Sys2Proof

/-- Record what the block drives. -/
def State.emit (s : State) (o : Output) : State := { s with out := o :: s.out }

/-- A final status (02 R55). -/
def Xing.final : Xing → Bool
  | .opened | .absent | .badFreq | .failed => true
  | _ => false
/-- The status code of CTL_ALIGN_STAT (02 R55). -/
def Xing.code : Xing → Nat
  | .opened => 0 | .absent => 1 | .badFreq => 2 | .failed => 3 | _ => 4

/-- Ports that a class builds (02 Table 2-8; PG_CAP of CTL page 2 in 15 Table 15-1). -/
def portsOf (cls : Nat) : Nat :=
  match cls with | 0 => 1 | 1 => 64 | 2 => 16 | 3 => 16 | 4 => 16 | 5 => 1 | _ => 0
/-- The key of a crossing. -/
def xKey (cls idx : Nat) : Nat := 64 * cls + idx
/-- The key of every crossing built. -/
def xAll : List Nat :=
  ((List.range 6).map (fun c => (List.range (portsOf c)).map (fun i => xKey c i))).flatten
/-- A crossing after reset waits in PRESENCE (02 R53). -/
def xing0 (_ : Nat) : Xing := .presence
/-- The status of a crossing. -/
def State.xing (s : State) (cls idx : Nat) : Xing := s.ctl.xing.get xing0 (xKey cls idx)

/-- CTL_BUSY_CAUSE (02 Table 2-5): RESET, ALIGN, DOORBELL, ATTN. -/
def State.busyCause (s : State) : Nat :=
  let align := s.ctl.rstLow || !s.ctl.kcpAligned || xAll.any (fun k => !(s.ctl.xing.get xing0 k).final)
  b2n (s.ctl.rstLow || s.ctl.sramInit) + 2 * b2n align + 4 * b2n s.ctl.cmd.isSome
    + 8 * b2n (s.regN 0x000044 != 0)
/-- KRDY (02 R37). -/
def State.krdy (s : State) : Bool := !s.ctl.rstLow && s.busyCause == 0

/-- PG_CNT counts `n` occurrences of an event of its page, saturating (02 Table 2-4, 15 R404). -/
def State.countEv (s : State) (pg ev n : Nat) : State :=
  if s.regF (pg + 0x28) 0 8 = ev then s.setRegN (pg + 0x2C) (satAdd 32 (s.regN (pg + 0x2C)) n) else s
/-- A saturating 32-bit counter register advances by `n`. -/
def State.bump (s : State) (a n : Nat) : State := s.setRegN a (satAdd 32 (s.regN a) n)

/-- After a change that may move KRDY: record its edge; CTL 0 event 0x10 counts falling edges (15 R406). -/
def krdyEdge (was : Bool) (s : State) : State :=
  if was && !s.krdy then (s.emit (.krdy false)).countEv 0x000000 0x10 1
  else if !was && s.krdy then s.emit (.krdy true)
  else s

/-- The index of the lowest bit set among the first `fuel` bits from `i`. -/
def lowBitF : Nat → Nat → Nat → Nat
  | 0, i, _ => i
  | k + 1, i, x => if x.testBit i then i else lowBitF k (i + 1) x
/-- The index of the lowest bit set of a 32-bit value. -/
def lowBit (x : Nat) : Nat := lowBitF 31 0 x

/-- Attention for a subsystem: SUB[n] becomes 1 (02 R39). -/
def State.attend (s : State) (n : Nat) : State :=
  krdyEdge s.krdy (s.setRegN 0x000044 (s.regN 0x000044 ||| 2 ^ n))

/-- Bits of PG_ERR become 1: PG_ERR_FIRST when PG_ERR leaves all zero (lowest index, KTIME[33:10]), and
attention for the bits that rise and are routed (02 R36, R39). -/
def State.raise (s : State) (pg bits : Nat) : State :=
  let m := match pageRow pg with | some p => bits &&& p.err | none => 0
  let old := s.regN (pg + 0x18)
  let rising := m &&& (old ^^^ 0xFFFFFFFF)
  let s1 := s.setRegN (pg + 0x18) (old ||| m)
  let s2 :=
    if old = 0 && m != 0 then
      s1.setRegN (pg + 0x24) (2 ^ 31 + lowBit m * 2 ^ 24 + nfld s.time.ktime 10 24)
    else s1
  if rising &&& s.regN (pg + 0x20) != 0 then s2.attend (subOf pg) else s2

/-- One PG_ERR bit. -/
def State.err (s : State) (pg i : Nat) : State := s.raise pg (2 ^ i)

/-! ### Phase stamps, 12 R352 -/

/-- Phases of 01 Table 1-4. -/
def phQuant : Nat := 0
def phPack : Nat := 1
def phReduce : Nat := 2
def phVerdict : Nat := 3
def phUpdate : Nat := 4
def phFetch : Nat := 5
/-- Stamps of a step before its first event. -/
def phase0 (_ : Nat) : PhaseRec := ⟨0, 0, false, false, false, [], []⟩
/-- The stamps of a step. -/
def State.phase (s : State) (c step : Nat) : PhaseRec :=
  let p := s.time.ph.get phase0 (2 * c + step % 2)
  if p.step = step then p else { phase0 0 with step := step }
/-- Store the stamps of a step. -/
def State.setPhase (s : State) (c : Nat) (p : PhaseRec) : State :=
  { s with time := { s.time with ph := s.time.ph.set phase0 (2 * c + p.step % 2) p } }
/-- The earliest start of a phase. -/
def State.phStart (s : State) (c step i : Nat) : State :=
  let p := s.phase c step
  if (p.starts.get (fun _ => none) i).isSome then s
  else s.setPhase c { p with starts := p.starts.set (fun _ => none) i (some s.time.ktime) }
/-- The latest end of a phase. -/
def State.phEnd (s : State) (c step i : Nat) : State :=
  let p := s.phase c step
  s.setPhase c { p with ends := p.ends.set (fun _ => none) i (some s.time.ktime) }

end Sys2Proof.Machine
end

