-- ==== Sys2Proof/Machine/Ops.lean ====
section
/-! DEFINITION. The shared operations over memory, contexts and descriptors: writes that the block issues
and the snoop (07 R199), Malt footprints (11 R292), context states (01 R16), the start and the end of a
descriptor (07 R175, R176) and their decoding (07 R173, R177). -/
namespace Sys2Proof.Machine
open Sys2Proof

/-! ### Ranges and footprints -/

/-- Two byte ranges share a byte. -/
def overlaps (a n b m : Nat) : Bool := 0 < n && 0 < m && a < b + m && b < a + n

/-- A word of a Malt partition record (11 Table 11-1). -/
def State.pw (s : State) (inst part w : Nat) : W32 := s.partR.get zero32 ((8 * inst + part) * 24 + w)
/-- An address field of a partition record. -/
def State.pAddr (s : State) (inst part w : Nat) : Nat :=
  ((s.pw inst part w).toNat + (s.pw inst part (w + 1)).toNat * 2 ^ 32) % 2 ^ 48
/-- The (instance, partition) pairs whose EN is 1. -/
def State.enabledParts (s : State) : List (Nat × Nat) :=
  ((List.range 16).map (fun i => (List.range 7).map (fun p => (i, p + 1)))).flatten.filter
    (fun e => bit (s.pw e.1 e.2 0) 0)
/-- A byte range reaches the footprint of an enabled partition: its logical range or its physical store
(11 R289, R292). -/
def State.inFootprint (s : State) (a n : Nat) : Bool :=
  s.enabledParts.any (fun e =>
    overlaps a n (s.pAddr e.1 e.2 1) (s.pAddr e.1 e.2 3)
    || overlaps a n (s.pAddr e.1 e.2 5) (s.pAddr e.1 e.2 7))

/-- Some Tun crossing is open, so that memory traffic moves (01 R22; log entry 94). -/
def State.tunOpen (s : State) : Bool := (List.range 16).any (fun i => s.xing 2 i == .opened)

/-! ### Context states -/

/-- Release the Anvil when the context holds it. -/
def State.release (s : State) (c : Nat) : State :=
  if s.hop.owner = some c then { s with hop := { s.hop with owner := none, lastOwner := some c } } else s

/-- Opcode classes (07 Table 7-5, 08 Table 8-4): the Anvil-class opcodes. -/
def anvilOp (op : Nat) : Bool :=
  [0x08, 0x09, 0x10, 0x11, 0x12, 0x13, 0x40, 0x48, 0x50, 0x51].contains op
/-- Every opcode the tables list. -/
def knownOp (op : Nat) : Bool := [0x00, 0x01, 0x02, 0x03, 0x0A, 0x41].contains op || anvilOp op

/-- The next descriptor of a context that is free to start (07 R175): READY or RUNNING, none waiting, no
reset requested, ring not empty, the position prefetched, memory in reach (01 R22), ORD satisfied (U_PUBLISH behaves as if
ORD = 1, 08 R215). -/
def State.ready (s : State) (c : Nat) : Option Waiting :=
  let h := s.hx c
  if s.cRunnable c && h.waiting.isNone && !h.resetReq && s.cHead c != s.cTail c && s.tunOpen then
    match h.copies.find? (fun cp => cp.pos == s.cHead c) with
    | none => none
    | some cp =>
      let d := ofLe cp.bytes
      if (dOrd d || dOp d == 0x41) && !h.ended.isEmpty then none else some ⟨cp.pos, d, cp.refetch, s.time.ktime⟩
  else none

/-- Beyond R175, a U_APPLY is free to start only when the package holds the verdict of its step and, after a
commit, every owned element is in the bank (08 R213); UPDATE never begins before VERDICT has ended, which takes the scales
too (01 R24, Table 1-4; log entry 95). -/
def State.applyFree (s : State) (c d : Nat) : Bool :=
  if dOp d != 0x40 then true
  else
    match s.verdictOf c (dq d 1 16 48) with
    | none => false
    | some v =>
      (match s.tmp.bound.get (fun _ => none) c with | some b => b.step != dq d 1 16 48 | none => true)
        && (v != 0 || s.bankFull (dq d 1 0 16) (dq d 1 16 48))
/-- A candidate for the Anvil (07 R171). -/
def State.isCand (s : State) (c : Nat) : Bool :=
  match s.ready c with | some w => anvilOp (dOp w.d) && s.applyFree c w.d | none => false

/-- Bring the candidate marks of a context up to date (07 R171, R172). -/
def State.touch (s : State) (c : Nat) : State :=
  let h := s.hx c
  let cand := s.isCand c
  let on := cand || s.hop.owner == some c
  let h1 := { h with
    candAt := if cand then (match h.candAt with | some t => some t | none => some s.hop.tick) else none,
    candWin := h.candWin && on }
  let s1 := s.setHx c h1
  if cand && h.candAt.isNone then { s1 with hop := { s1.hop with tick := s.hop.tick + 1 } } else s1

/-! ### Writes -/

/-- The bytes of `bs` at `a` merged over the bytes `old` at `b`. -/
def mergeBytes (a : Nat) (bs : Bytes) (b : Nat) (old : Bytes) : Bytes :=
  (indexed b old).map (fun p => if a ≤ p.1 && p.1 < a + bs.length then bs.getD (p.1 - a) p.2 else p.2)
/-- A prefetched copy after a snooped write (07 R199). -/
def Copy.snoop (ring a : Nat) (bs : Bytes) (cp : Copy) : Copy :=
  if overlaps a bs.length (ring + 64 * cp.pos) 64 then
    { cp with bytes := mergeBytes a bs (ring + 64 * cp.pos) cp.bytes, refetch := true }
  else cp
/-- Every context's copies after a snooped write. -/
def snoopAll (s : State) (a : Nat) (bs : Bytes) : SMap HopCtx → SMap HopCtx
  | [] => []
  | (c, h) :: m =>
    (c, { h with copies := h.copies.map (Copy.snoop (s.cRingBase c) a bs) }) :: snoopAll s a bs m
/-- How many copies of a context any of several written ranges overlaps. -/
def anyHits (ring : Nat) (ws : List (Nat × Nat)) (cps : List Copy) : Nat :=
  (cps.filter (fun cp => ws.any (fun w => overlaps w.1 w.2 (ring + 64 * cp.pos) 64))).length
/-- Copies hit by several written ranges, over every context. -/
def State.hitCount (s : State) (ws : List (Nat × Nat)) : Nat :=
  (s.hop.ctx.map (fun e => anyHits (s.cRingBase e.1) ws e.2.copies)).sum
/-- The contexts of which a copy was hit. -/
def State.hitCtxs (s : State) (ws : List (Nat × Nat)) : List Nat :=
  (s.hop.ctx.filter (fun e => anyHits (s.cRingBase e.1) ws e.2.copies != 0)).map (·.1)

/-- Bytes land and are merged into the prefetched copies (07 R199). -/
def State.land (s : State) (a : Nat) (bs : Bytes) : State :=
  { s.poke a bs with hop := { s.hop with ctx := snoopAll s a bs s.hop.ctx } }
/-- Copies were patched: HOP 0 event 0x12 counts them (07 R199), and a context whose next descriptor changed may have become a
candidate or ceased to be one (07 R171, R172). -/
def State.patched (s : State) (cs : List Nat) (hits : Nat) : State :=
  if hits = 0 then s else (cs.foldl State.touch s).countEv 0x300000 0x12 hits
/-- A write that the block issues to package memory: the bytes land and are compared with every prefetched copy (07
R199). -/
def State.busWrite (s : State) (a : Nat) (bs : Bytes) : State :=
  (s.land a bs).patched (s.hitCtxs [(a, bs.length)]) (s.hitCount [(a, bs.length)])

/-- Move a context to a state of 01 Table 1-2. -/
def State.setCState (s : State) (c v : Nat) : State := (s.setCf c 0 0 3 v).touch c

/-- A fault moves a context to FAULTED from any state other than FREE and sets HOP PG_ERR.CTX_FAULT
(01 R16, 15 Table 15-3). -/
def State.faultCtx (s : State) (c : Nat) : State :=
  if s.cState c = stFree || s.cState c = stFaulted then s
  else (((s.release c).setCState c stFaulted).err 0x300000 10)

/-- A write of a context other than a descriptor's: not made, and the context faults, when it would
reach a footprint (11 R292). -/
def State.ctxWrite (s : State) (c a : Nat) (bs : Bytes) : State :=
  if s.inFootprint a bs.length then s.faultCtx c else s.busWrite a bs

/-! ### Descriptors -/

/-- What decoding a descriptor depends on (07 R174, R176): the listed bits of each word, the argument
checks, the Hearth checks, the work estimate and the extents it touches. -/
structure Dec where
  masks : List Nat
  args : Bool
  tiles : Bool
  w : Nat
  ext : List (Nat × Nat)
  deriving DecidableEq, Repr

/-- A byte range lies in the context's memory window (07 R177). -/
def State.inWindow (s : State) (c a n : Nat) : Bool :=
  s.cMemBase c ≤ a && a + n ≤ s.cMemBase c + s.cMemSize c
/-- A descriptor may touch a byte range (07 R177, 11 R292). -/
def State.extOk (s : State) (c : Nat) (e : Nat × Nat) : Bool :=
  e.2 == 0 || (s.inWindow c e.1 e.2 && !s.inFootprint e.1 e.2)
/-- Where the completion record of a ring position lies (07 R178). -/
def State.cmplAt (s : State) (c pos : Nat) : Nat := s.cCmplBase c + 32 * pos

/-- The status of a descriptor at decode, lowest failing code first (07 Table 7-3; log entry 10). -/
def State.decode (s : State) (c : Nat) (w : Waiting) (k : Dec) : Nat :=
  if !reservedOk w.d (q0Mask :: k.masks) || !k.args then 3
  else if !k.tiles then 4
  else if s.cMaxHc c != 0 && s.cMaxHc c < k.w then 5
  else if !(k.ext.all (s.extOk c)) || (dCmpl w.d && !s.extOk c (s.cmplAt c w.pos, 32)) then 6
  else 0

/-- How a descriptor ended. -/
structure Fin where
  status : Nat
  nf : Bool
  big : Bool
  result : Nat
  hc : Nat
  writes : List (Nat × Nat)
  upd : Option Nat := none
  deriving DecidableEq, Repr

/-- An end with nothing to report but its status. -/
def Fin.plain (status : Nat) : Fin := ⟨status, false, false, 0, 0, [], none⟩

/-- A descriptor boundary (07 R170, 01 Table 1-2): a RUNNING context with an empty ring becomes LOADED;
one with no Anvil-class descriptor free to start becomes READY; either gives up its slice. -/
def State.boundary (s : State) (c : Nat) : State :=
  if s.cState c = stRunning then
    if s.cHead c = s.cTail c then (s.release c).setCState c stLoaded
    else if s.isCand c then s.touch c
    else (s.release c).setCState c stReady
  else s.touch c

/-- The errors that a descriptor status records (07 Table 7-3) and the context's state after it. -/
def State.afterStatus (s : State) (c st : Nat) : State :=
  if st = 0 then s
  else if st = 6 then (s.countEv 0x300000 0x13 1).faultCtx c
  else if st = 7 then (s.err 0x400000 3).faultCtx c
  else (s.err 0x300000 9).countEv 0x300000 0x13 1

/-- A descriptor ends: HEAD advances, it joins the descriptors that wait for completion, and the boundary
follows (07 R175, R176). -/
def State.endDesc (s : State) (c : Nat) (w : Waiting) (f : Fin) : State :=
  let h := s.hx c
  let e : Ended :=
    { pos := w.pos, op := dOp w.d, tag := dTag w.d, status := f.status, cmpl := dCmpl w.d,
      cnt := dCnt w.d, nf := f.nf, big := f.big, refetch := w.refetch, result := f.result, hc := f.hc,
      seq := h.seq, writes := f.writes, upd := f.upd }
  let h1 := { h with
    waiting := none, ended := h.ended ++ [e], seq := h.seq + 1, candAt := none,
    copies := h.copies.filter (fun cp => cp.pos != w.pos) }
  let s1 := (s.setHx c h1).setCf c 30 0 16 ((w.pos + 1) % s.cRing c)
  let s2 := s1.setCw c 32 (BitVec.ofNat 32 (h.seq + 1))
  (s2.afterStatus c f.status).boundary c

/-- Ranges that descriptors have written and the fabric has not acknowledged (07 R200). -/
def unackedOf (m : SMap HopCtx) : List (Nat × Nat) :=
  (m.map (fun e => (e.2.ended.map (fun d => d.writes)).flatten)).flatten
/-- Every range that KX2 has written and the fabric has not acknowledged, as far as the model keeps it (07 R200): of ended
descriptors, of performed Tongs WRITEs (10 R276) and of READ data (10 R282). Log entry 96. -/
def State.unacked (s : State) : List (Nat × Nat) :=
  unackedOf s.hop.ctx ++ s.tng.perf.map (·.range) ++ s.tng.locals.map (fun l => (l.addr, l.len))

/-! ### Prefetch, 07 R198 to R200 -/

/-- The number of descriptors from ring position `a` to TAIL. -/
def State.below (s : State) (c a : Nat) : Nat := (s.cTail c + s.cRing c - a) % s.cRing c
/-- The two ring positions that the Hopper holds copies of (07 R198), those below TAIL. -/
def State.window (s : State) (c : Nat) : List Nat :=
  let n := s.cRing c
  let from0 := match (s.hx c).waiting with | some w => (w.pos + 1) % n | none => s.cHead c
  (List.range (min 2 (s.below c from0))).map (fun i => (from0 + i) % n)

/-- DESCRIPTOR_FETCH: copies of the window's positions that no unacknowledged write touches
(07 R198, R200); none while HOP 0 quiesces (15 Table 15-1) or memory is out of reach (01 R22). -/
def fetch (c : Nat) (s : State) : State :=
  if !s.cRunnable c || (s.reg 0x300010).getLsbD 1 || !s.tunOpen then s
  else
    let h := s.hx c
    let base := s.cRingBase c
    let busy := s.unacked
    let new := (s.window c).filter (fun p =>
      !(h.copies.any (fun cp => cp.pos == p)) && !(busy.any (fun r => overlaps r.1 r.2 (base + 64 * p) 64)))
    let cps := new.map (fun p => (⟨p, s.bytes (base + 64 * p) 64, false⟩ : Copy))
    (s.setHx c { h with copies := h.copies ++ cps }).touch c

/-- A descriptor starts: it is latched, so that its own position is no prefetched copy any more, and the window moves to the
two positions after it (07 R198). -/
def State.latch (s : State) (c : Nat) (w : Waiting) : State :=
  let h := s.hx c
  fetch c ((s.setHx c { h with waiting := some w, copies := h.copies.filter (fun cp => cp.pos != w.pos) }).touch c)

/-- A control or Lauter descriptor of opcode `op`: refused at decode, or its action (07 R169, R176). -/
def State.runCtl (s : State) (c op : Nat) (k : Nat → Dec) (act : Waiting → State → State) : State :=
  match s.ready c with
  | none => s
  | some w =>
    if dOp w.d != op then s
    else
      let st := s.decode c w (k w.d)
      if st != 0 then s.endDesc c w (Fin.plain st) else act w s

/-- Charge a context with hc of the Anvil (07 R172): WIN_HC, and ANV 0 event 0x11. -/
def State.charge (s : State) (c hc : Nat) : State :=
  (s.setCw c 33 (BitVec.ofNat 32 (satAdd 32 (s.cWinHc c) hc))).countEv 0x400000 0x11 hc

/-- Account for an Anvil-class descriptor that ran `hc` with estimate `w`: what an earlier window already
charged is not charged again, and a switch before it has passed (07 R172, log entry 11). -/
def State.account (s : State) (c w hc : Nat) : State :=
  let s1 := s.charge c (hc - s.hop.preHc)
  let s2 := s1.countEv 0x400000 0x10 1
  { s2 with hop := { s2.hop with
      winW := if s.hop.preHc = 0 then s2.hop.winW ++ [(c, w)] else s2.hop.winW, preHc := 0, swHc := 0 } }

/-- The first `k` bytes of a list of writes, in order. -/
def takeWrites : Nat → List (Nat × Bytes) → List (Nat × Bytes)
  | _, [] => []
  | k, (a, bs) :: ws =>
    if k = 0 then [] else (a, bs.take k) :: takeWrites (k - bs.length) ws
/-- Issue a list of writes in order. -/
def State.issue (s : State) (ws : List (Nat × Bytes)) : State :=
  ws.foldl (fun s w => if w.2 = [] then s else s.busWrite w.1 w.2) s
/-- The ranges of a list of writes. -/
def ranges (ws : List (Nat × Bytes)) : List (Nat × Nat) := ws.map (fun w => (w.1, w.2.length))

/-- What an engine descriptor computes: its memory writes in order, the state with its effects inside the
block, and its completion fields; `marks` are the sizes of the elements written, in order, and which are not finite. -/
structure Work where
  writes : List (Nat × Bytes)
  st : State
  nf : Bool
  big : Bool
  result : Nat
  marks : List (Nat × Bool) := []
/-- The marks of elements of a format code. -/
def marksOf (fc : Nat) (xs : List Nat) : List (Nat × Bool) := xs.map (fun x => (fmtBytes fc, !isFin (fmtOf fc) x))
/-- Some element that lies whole within the first `k` bytes written is not finite (07 R185). -/
def nfWithin : Nat → List (Nat × Bool) → Bool
  | _, [] => false
  | k, (n, f) :: xs => if k < n then false else f || nfWithin (k - n) xs

/-- Correctable Hearth errors (07 R189): the counter, ECC_CORR and the page event. -/
def State.corr (s : State) (n : Nat) : State :=
  if n = 0 then s else ((s.bump 0x40004C n).err 0x400000 2).countEv 0x400000 0x02 n

/-- An uncorrectable error: its Hearth location, kept until ECC_UNCORR is cleared (15 Table 15-13). -/
def State.eccLoc (s : State) (loc : Option (BitVec 5 × BitVec 8)) : State :=
  match loc with
  | none => s
  | some (t, r) =>
    let s1 := s.countEv 0x400000 0x03 1
    if (s.reg 0x400050).getLsbD 31 then s1
    else s1.setRegN 0x400050 (2 ^ 31 + r.toNat * 32 + t.toNat)

/-- A descriptor that wrote a non-finite value: ANV_NF_CNT (07 R185). -/
def State.noteNf (s : State) (nf : Bool) : State := if nf then s.bump 0x400044 1 else s

/-- An Anvil-class descriptor: the context holds the Anvil, ANV 0 (and UPD 0 for the update unit's) is not
quiescing; refused at decode, or run to its end, or to its uncorrectable error (07 R169, R176). -/
def State.runAnv (s : State) (c op : Nat) (run : Run) (k : Nat → State → Dec) (act : Nat → State → Work) :
    State :=
  match s.ready c with
  | none => s
  | some w =>
    let kd := k w.d s
    let st := s.decode c w kd
    if dOp w.d != op then s
    else if st != 0 then s.endDesc c w (Fin.plain st)
    else if s.hop.owner != some c || s.cState c != stRunning || !s.applyFree c w.d
        || (s.reg 0x400010).getLsbD 1 || (0x40 ≤ op && (s.reg 0xA00010).getLsbD 1) then s
    else
        let s1 := ((s.latch c w).account c kd.w run.hc).corr run.corr
        let x := act w.d s1
        match run.ecc with
        | none =>
          ((x.st.issue x.writes).noteNf x.nf).endDesc c w
            ⟨0, x.nf, x.big, x.result, run.hc, ranges x.writes, none⟩
        | some (n, loc) =>
          let ws := takeWrites n x.writes
          let nf := nfWithin n x.marks
          (((s1.issue ws).eccLoc loc).noteNf nf).endDesc c w ⟨7, nf, false, 0, run.hc, ranges ws, none⟩

/-! ### Completion -/

/-- The 32 bytes of a completion record (07 Table 7-4). -/
def cmplRecord (e : Ended) (ring ktime : Nat) : Bytes :=
  leBytes 8 (e.tag + e.op * 2 ^ 16 + e.status * 2 ^ 24 + e.pos * 2 ^ 32
    + (1 - e.seq / ring % 2) * 2 ^ 48 + b2n e.nf * 2 ^ 49 + b2n e.big * 2 ^ 50 + b2n e.refetch * 2 ^ 51)
  ++ leBytes 8 ktime ++ leBytes 8 e.result ++ leBytes 8 (min e.hc (2 ^ 32 - 1))

/-- Write the completion record of a descriptor where one is due (07 R174, R178). -/
def State.writeCmpl (s : State) (c : Nat) (e : Ended) : State :=
  let a := s.cmplAt c e.pos
  if (e.cmpl || e.status != 0) && s.extOk c (a, 32) then
    s.busWrite a (cmplRecord e (s.cRing c) s.time.ktime)
  else s

/-- CMPL_CNT advances by one (07 R179). -/
def State.advCmpl (s : State) (c : Nat) : State :=
  s.setC64 c 28 ((s.cCmplCnt c + 1) % 2 ^ 48)

/-! ### Phase Timer records -/

/-- A word of the Phase Timer record in force for a context (15 R410). -/
def State.pt (s : State) (c w : Nat) : W32 := s.time.pt.get zero32 (4 * c + w)
/-- The 48 bytes of phase offsets: units of 8 ns from T0, all ones where there is none (12 R352). -/
def phaseBytes (p : PhaseRec) (t0 : Nat) : Bytes :=
  let off (t : Option Nat) : Bytes :=
    match t with
    | none => leBytes 4 (2 ^ 32 - 1)
    | some t => leBytes 4 ((t + 2 ^ 64 - t0) % 2 ^ 64 / 16)
  ((List.range 6).map (fun i =>
    match p.starts.get (fun _ => none) i, p.ends.get (fun _ => none) i with
    | some a, some b => off (some a) ++ off (some b)
    | _, _ => off none ++ off none)).flatten
/-- N of the Phase Timer record in force, and where the record of a step goes; none where the record breaks R410. -/
def State.ptAt (s : State) (c step : Nat) : Option Nat :=
  let n := fld (s.pt c 0) 0 5
  let base := ((s.pt c 1).toNat + (s.pt c 2).toNat * 2 ^ 32) % 2 ^ 48
  if 16 < n || base % (64 * 2 ^ n) != 0 || !s.inWindow c base (64 * 2 ^ n) then none
  else some (base + 64 * (step % 2 ^ n))
/-- A write of the Phase Timer; TIME 1 holds it back while it quiesces (15 Table 15-1). -/
def State.ptWrite (s : State) (c a : Nat) (bs : Bytes) : State :=
  if (s.reg 0x101010).getLsbD 1 then { s with time := { s.time with ptHeld := s.time.ptHeld ++ [(c, a, bs)] } }
  else s.ctxWrite c a bs
/-- The writes held back are made once TIME 1 no longer quiesces. -/
def State.ptFlush (s : State) : State :=
  s.time.ptHeld.foldl (fun s w => s.ctxWrite w.1 w.2.1 w.2.2) { s with time := { s.time with ptHeld := [] } }
/-- A record written before its step's park took effect gets PARKED_AFTER (12 R354). -/
def State.ptParked (s : State) (c step : Nat) : State :=
  let p := s.phase c step
  match s.ptAt c step with
  | some a => if p.written then s.ptWrite c (a + 7) (leBytes 1 (b2n p.early + 2)) else s
  | none => s
/-- TIME writes a step's Phase Timer record (12 R352, 15 R410); PT_BAD for a record that breaks R410. T0 of a
step without a QUANT phase is open (log entry 3). -/
def State.writePhase (s : State) (c step : Nat) : State :=
  if fld (s.pt c 0) 0 5 = 0 then s
  else
    match s.ptAt c step with
    | none => s.err 0x101000 8
    | some a =>
    let p := s.phase c step
    let q := p.starts.get (fun _ => none) phQuant
    let t0 := q.getD (Config.openValue 2 s.fresh).toNat
    let s1 := if q.isSome then s else { s with fresh := s.fresh + 1 }
    (s1.setPhase c { p with written := true }).ptWrite c a
      (leBytes 6 step ++ leBytes 1 p.verdict ++ leBytes 1 (b2n p.early + 2 * b2n p.parked) ++ leBytes 8 t0
        ++ phaseBytes p t0)

end Sys2Proof.Machine
end

