-- ==== Sys2Proof/Machine/Hopper.lean ====
section
/-! DEFINITION. The Hopper: prefetch (07 R198, R200), grants (01 R18, 07 R170), control descriptors
(07 R181 to R183), the full sort (04 R109, 07 R188), completion (07 R178, R179) and yield events
(12 R356). -/
namespace Sys2Proof.Machine
open Sys2Proof

/-- Every meaning of a command that completes. -/
def done (s : State) : Host.Outcome State Fault Refusal := .next s

/-- A yield event enters HOP_YIELD, or is lost when it holds 64 (12 R356): context, guarantee of R355,
reason of Table 12-9. -/
def State.yieldEv (s : State) (c guarantee reason : Nat) : State :=
  if 64 ≤ s.hop.yields.length then s.err 0x300000 15
  else
    let e := BitVec.ofNat 64 (c + guarantee * 2 ^ 12 + reason * 2 ^ 16 + nfld s.time.ktime 8 44 * 2 ^ 20)
    ({ s with hop := { s.hop with yields := s.hop.yields ++ [e] } }).err 0x300000 14

/-! ### Prefetch -/

/-- DESCRIPTOR_FETCH (07 R198). -/
def execDescriptorFetch (c : Ctx) (s : State) : Host.Outcome State Fault Refusal := done (fetch c.toNat s)

/-! ### Grants -/

/-- Less than its reserved share charged in the accounting window (01 R18 test 1, 07 R172). -/
def State.under (s : State) (c : Nat) : Bool := s.cWinHc c < s.cShare c * 256
/-- Context `a` goes before `b` (01 R18). -/
def State.goesFirst (s : State) (a b : Nat) : Bool :=
  if s.under a != s.under b then s.under a
  else if s.cPrio a != s.cPrio b then s.cPrio a < s.cPrio b
  else
    let ta := (s.hx a).candAt.getD 0
    let tb := (s.hx b).candAt.getD 0
    if ta != tb then ta < tb else a < b
/-- The first of a list under R18. -/
def State.pick (s : State) : List Nat → Option Nat
  | [] => none
  | c :: cs =>
    match s.pick cs with
    | none => some c
    | some d => if s.goesFirst d c then some d else some c
/-- Every candidate (07 R171). -/
def State.cands (s : State) : List Nat := s.live.filter s.isCand

/-- Grant the Anvil to a context: RUNNING; a grant to another context than the one whose slice ended last
costs it 12 hc (07 R170, R172), which the end of the window takes back as far as they pass after it. -/
def State.grant (s : State) (c : Nat) : State :=
  let sw := match s.hop.lastOwner with | some o => o != c | none => false
  let s1 := { s with hop := { s.hop with owner := some c, lastOwner := some c, swHc := if sw then 12 else 0 } }
  let s2 := (s1.setCState c stRunning).countEv 0x300000 0x10 1
  if sw then ((s2.charge c 12).bump 0x400058 1).countEv 0x300000 0x11 1 else s2

/-- The slice ends at this boundary: `sliceHc` is how long it has lasted (07 R170). -/
def State.sliceOver (s : State) (o sliceHc : Nat) : Bool :=
  !s.isCand o || (s.cQuantum o ≤ sliceHc && s.cands.any (fun c => c != o))

/-- The owner's slice ends: RUNNING becomes READY (01 Table 1-2). -/
def State.endSlice (s : State) (o : Nat) : State :=
  let s1 := s.release o
  if s1.cState o = stRunning then s1.setCState o stReady else s1

/-- ANVIL_GRANT: at a descriptor boundary, the present slice ends when R170 ends it, and the next goes to
the first candidate under R18. -/
def anvilGrant (sliceHc : Nat) (s : State) : State :=
  if (s.reg 0x300010).getLsbD 1 then s
  else
    let go (t : State) : State := match t.pick t.cands with | none => t | some c => t.grant c
    match s.hop.owner with
    | none => go s
    | some o => if s.sliceOver o sliceHc then go (s.endSlice o) else s

/-- ANVIL_GRANT (01 R18, 07 R170). -/
def execAnvilGrant (sliceHc : Nat) (s : State) : Host.Outcome State Fault Refusal := done (anvilGrant sliceHc s)

/-! ### Control descriptors -/

/-- NOP has no operand word (07 R174, Table 7-6). -/
def decNop (_ : Nat) : Dec := ⟨[], true, true, 0, []⟩
/-- NOP: nothing (07 R180). -/
def nopDesc (c : Nat) (s : State) : State :=
  s.runCtl c 0x00 decNop (fun w s => s.endDesc c w (Fin.plain 0))
/-- NOP (07 R180). -/
def execNop (c : Ctx) (s : State) : Host.Outcome State Fault Refusal := done (nopDesc c.toNat s)

/-- STEP operands: STEP must be STEP_CUR + 1, LAUNCH zero without AT (07 R181). -/
def decStep (cur d : Nat) : Dec :=
  ⟨[2 ^ 50 - 1, 2 ^ 64 - 1], dq d 1 0 48 == cur + 1 && (d.testBit (64 + 49) || dq d 2 0 64 == 0), true, 0, []⟩
/-- An agreed park takes effect when the context has reached its STEP descriptor of the step after it (12 R354):
PARKED, and PARKED_AFTER in the Phase Timer record of the step. -/
def State.parkCheck (s : State) (c : Nat) : State :=
  match (s.hx c).waiting, (s.gx c).park with
  | some w, some p =>
    if dOp w.d = 0x01 && dq w.d 1 0 48 == p + 1 && s.cRunnable c then
      let s1 := s.setGx c { s.gx c with park := none }
      (((s1.setPhase c { s1.phase c p with parked := true }).ptParked c p).release c).setCState c stParked
    else s
  | _, _ => s
/-- STEP starts and waits for its conditions (07 R181). -/
def stepDesc (c : Nat) (s : State) : State :=
  s.runCtl c 0x01 (decStep (s.cStep c)) (fun w s =>
    (s.latch c w).parkCheck c)
/-- STEP (07 R181). -/
def execStep (c : Ctx) (s : State) : Host.Outcome State Fault Refusal := done (stepDesc c.toNat s)

/-- WAIT_CNT operands (07 Table 7-6). -/
def decWaitCnt (_ : Nat) : Dec := ⟨[2 ^ 12 - 1, 2 ^ 48 - 1], true, true, 0, []⟩
/-- WAIT_CNT starts and waits (07 R182). -/
def waitCnt (c : Nat) (s : State) : State :=
  s.runCtl c 0x02 decWaitCnt (fun w s => s.latch c w)
/-- WAIT_CNT (07 R182). -/
def execWaitCnt (c : Ctx) (s : State) : Host.Outcome State Fault Refusal := done (waitCnt c.toNat s)

/-- The descriptor of opcode `op` that a runnable context waits in. -/
def State.waitingOp (s : State) (c op : Nat) : Option Waiting :=
  match (s.hx c).waiting with
  | some w => if dOp w.d = op && s.cRunnable c then some w else none
  | none => none

/-- WAIT_CNT_MET: the watched CMPL_CNT is at least VALUE (07 R182). -/
def waitCntMet (c : Nat) (s : State) : State :=
  match s.waitingOp c 0x02 with
  | none => s
  | some w =>
    if dq w.d 2 0 48 ≤ s.cCmplCnt (dq w.d 1 0 12) then s.endDesc c w (Fin.plain 0) else s
/-- WAIT_CNT_MET (07 R182). -/
def execWaitCntMet (c : Ctx) (s : State) : Host.Outcome State Fault Refusal := done (waitCntMet c.toNat s)

/-- The runs of enabled bytes of a WRITE_IMM, in ascending order. -/
def immRuns (addr en data : Nat) : List (Nat × Bytes) :=
  (List.range 8).filterMap (fun i =>
    if en.testBit i then some (addr + i, [BitVec.ofNat 8 (data >>> (8 * i))]) else none)
/-- Several bytes written as one memory write: the snoop sees them whole (07 R183, R199). -/
def State.oneWrite (s : State) (ws : List (Nat × Bytes)) : State :=
  (ws.foldl (fun t w => t.land w.1 w.2) s).patched (s.hitCtxs (ranges ws)) (s.hitCount (ranges ws))
/-- WRITE_IMM operands: ADDR a multiple of 8, BYTE_EN not zero (07 Table 7-6). -/
def decWriteImm (d : Nat) : Dec :=
  ⟨[2 ^ 56 - 1, 2 ^ 64 - 1], dq d 1 0 48 % 8 == 0 && dq d 1 48 8 != 0, true, 0,
    (immRuns (dq d 1 0 48) (dq d 1 48 8) 0).map (fun r => (r.1, 1))⟩
/-- WRITE_IMM writes its enabled bytes (07 R183). -/
def writeImm (c : Nat) (s : State) : State :=
  s.runCtl c 0x03 decWriteImm (fun w s =>
    let ws := immRuns (dq w.d 1 0 48) (dq w.d 1 48 8) (dq w.d 2 0 64)
    ((s.latch c w).oneWrite ws).endDesc c w { Fin.plain 0 with writes := ranges ws })
/-- WRITE_IMM (07 R183). -/
def execWriteImm (c : Ctx) (s : State) : Host.Outcome State Fault Refusal := done (writeImm c.toNat s)

/-- BAD_OP: an opcode that no table lists is refused (07 R180, 08 R211). -/
def badOp (c : Nat) (s : State) : State :=
  match s.ready c with
  | none => s
  | some w => if knownOp (dOp w.d) then s else s.endDesc c w (Fin.plain 2)
/-- BAD_OP (07 R180). -/
def execBadOp (c : Ctx) (s : State) : Host.Outcome State Fault Refusal := done (badOp c.toNat s)

/-! ### Full sort -/

/-- SORT operands (07 R188). -/
def decSort (d : Nat) : Dec :=
  let n := dq d 3 0 17
  ⟨[2 ^ 48 - 1, 2 ^ 48 - 1, 2 ^ 20 - 1],
    dq d 1 0 48 % 8 == 0 && dq d 2 0 48 % 8 == 0 && 2 ≤ n && n ≤ 65536 && dq d 3 17 2 != 3, true, 0,
    [(dq d 1 0 48, 8 * n), (dq d 2 0 48, 8 * n)]⟩
/-- The order a sort uses for a key (04 R109): unsigned, magnitude, or binary32 total order. -/
def sortKey (mode k : Nat) : Nat :=
  if mode = 0 then k
  else if mode = 1 then k % 2 ^ 31
  else if k.testBit 31 then 2 ^ 32 - 1 - k else k + 2 ^ 31
/-- A stable sort of pairs (04 R109). -/
def sortPairs (mode : Nat) (desc : Bool) (xs : List W64) : List W64 :=
  let key (x : W64) : Nat := sortKey mode (x.toNat % 2 ^ 32)
  sortBy (fun a b => if desc then key b < key a else key a < key b) xs
/-- Lauter loads the pairs of a context's SORT. -/
def State.sortLoad (s : State) (c : Nat) (d : Nat) : State :=
  let n := dq d 3 0 17
  let xs := (chunks 8 (s.bytes (dq d 1 0 48) (8 * n))).map (fun b => BitVec.ofNat 64 (ofLe b))
  (({ s with hop := { s.hop with sort := some (c, xs) } }).setRegN 0x70004C (c + 2 ^ 16)).setRegN 0x700050 n
/-- SORT starts: Lauter takes it at once or in its turn (07 R188); none starts while LTR 0 quiesces. -/
def sortDesc (c : Nat) (s : State) : State :=
  if (s.reg 0x700010).getLsbD 1 then s
  else
    s.runCtl c 0x0A decSort (fun w s =>
      let s1 := s.latch c w
      if s.hop.sort.isSome then { s1 with hop := { s1.hop with sortQ := s1.hop.sortQ ++ [c] } }
      else s1.sortLoad c w.d)
/-- SORT (07 R188). -/
def execSort (c : Ctx) (s : State) : Host.Outcome State Fault Refusal := done (sortDesc c.toNat s)

/-- Lauter takes the next waiting sort, if any. -/
def State.sortNext (s : State) : State :=
  let s1 := { s with hop := { s.hop with sort := none } }
  let s2 := s1.setRegN 0x70004C (s1.regN 0x70004C % 2 ^ 16)
  match s.hop.sortQ with
  | [] => s2
  | c :: cs =>
    let s3 := { s2 with hop := { s2.hop with sortQ := cs } }
    match (s.hx c).waiting with
    | some w => s3.sortLoad c w.d
    | none => s3
/-- SORT_DONE: the last output pair is written and the descriptor ends (04 R109, 07 R188), or an uncorrectable error ends it
with the writes issued before it (07 Table 7-3). A sort whose context left its descriptor meanwhile ends without writing. -/
def sortDone (c : Nat) (ecc : Option Nat) (s : State) : State :=
  match s.hop.sort with
  | none => s
  | some (o, xs) =>
    if o != c then s
    else
      match s.waitingOp c 0x0A with
      | none => s.sortNext
      | some w =>
        let out := dq w.d 2 0 48
        let ys := sortPairs (dq w.d 3 17 2) (w.d.testBit (64 * 3 + 19)) xs
        let bs := (ys.map (fun y => leBytes 8 y.toNat)).flatten
        match ecc with
        | none =>
          let s1 := ((s.busWrite out bs).bump 0x700054 1).countEv 0x700000 0x11 xs.length
          s1.sortNext.endDesc c w { Fin.plain 0 with writes := [(out, bs.length)] }
        | some n =>
          let ws := takeWrites n [(out, bs)]
          (s.issue ws).sortNext.endDesc c w { Fin.plain 7 with writes := ranges ws }
/-- SORT_DONE (04 R109). -/
def execSortDone (fin : SortEnd) (s : State) : Host.Outcome State Fault Refusal := done (sortDone fin.ctx.toNat fin.ecc s)

/-! ### Completion -/

/-- DESCRIPTOR_COMPLETE: the oldest ended descriptor's writes are acknowledged; its record is written and
CMPL_CNT advances when CNT = 1 and the status is OK (07 R175, R179); for a U_PUBLISH that published a committed step this is
the end of UPDATE (01 Table 1-4). -/
def complete (c : Nat) (s : State) : State :=
  match (s.hx c).ended with
  | [] => s
  | e :: es =>
    let s1 := (s.setHx c { s.hx c with ended := es }).writeCmpl c e
    let s2 := if e.cnt && e.status = 0 then s1.advCmpl c else s1
    let s3 := match e.upd with
      | some step => if e.cnt && e.status = 0 then s2.phEnd c step phUpdate else s2
      | none => s2
    s3.touch c
/-- DESCRIPTOR_COMPLETE (07 R179). -/
def execDescriptorComplete (c : Ctx) (s : State) : Host.Outcome State Fault Refusal := done (complete c.toNat s)

/-! ### Doorbell -/

/-- A write of HOP_RING_DB (02 R49): the new TAIL, or refused. -/
def ringDb (v : W32) (s : State) : State × Bool :=
  let c := fld v 0 12
  let t := fld v 16 16
  let n := s.cRing c
  if s.cState c = stFree || n ≤ t || (t + n - s.cHead c) % n < s.below c (s.cHead c) then
    (s.err 0x300000 8, false)
  else ((s.setCf c 30 16 16 t).touch c, true)

end Sys2Proof.Machine
end

