-- ==== Sys2Proof/Machine/Anvil.lean ====
section
/-! DEFINITION. The Anvil: VOP and VRED (07 R184 to R187), Hearth (07 R189 to R191) and the matrix
descriptors TLOAD, TSTORE, TBCAST and MMT (07 R192 to R196). -/
namespace Sys2Proof.Machine
open Sys2Proof

/-! ### Elements in memory -/

/-- One element of a format code at an address. -/
def State.elem (s : State) (fc a : Nat) : Nat := s.memN a (fmtBytes fc)
/-- `n` consecutive elements of a format code. -/
def State.elems (s : State) (fc a n : Nat) : List Nat :=
  (chunks (fmtBytes fc) (s.bytes a (n * fmtBytes fc))).map ofLe
/-- The bytes of elements of a format code. -/
def elemBytes (fc : Nat) (xs : List Nat) : Bytes := (xs.map (leBytes (fmtBytes fc))).flatten
/-- Some element is a NaN or an infinity. -/
def anyNf (f : Fmt) (xs : List Nat) : Bool := xs.any (fun x => !isFin f x)

/-! ### VOP -/

/-- The functions of 07 Table 7-8 in the arithmetic format. -/
def vopFn (f : Fmt) (fn a b c : Nat) : Nat :=
  match fn with
  | 0 => canon f a
  | 1 => fadd f a b
  | 2 => fsub f a b
  | 3 => fmul f a b
  | 4 => ffma f a b c
  | 5 => fmax f a b
  | 6 => fmin f a b
  | _ => fabsBits f (canon f a)

/-- Whether a function uses operand B, and operand C. -/
def vopUses (fn : Nat) : Bool × Bool :=
  match fn with | 0 => (false, false) | 7 => (false, false) | 4 => (true, true) | _ => (true, false)

/-- Extent of a VOP operand: word k, LEN elements or one when it is broadcast. -/
def vopExt (d k : Nat) (scalar : Bool) : Nat × Nat :=
  (dq d k 0 48, (if scalar then 1 else dq d 5 0 40) * fmtBytes (dq d k 48 2))

/-- D coincides with a source exactly or does not overlap it (07 R184). -/
def vopOverlapOk (dst src : Nat × Nat) : Bool := src == dst || !overlaps dst.1 dst.2 src.1 src.2

/-- VOP operands (07 R184, Tables 7-7, 7-8). -/
def decVop (d : Nat) (_ : State) : Dec :=
  let fn := dq d 5 40 4
  let len := dq d 5 0 40
  let (ub, uc) := vopUses fn
  let ea := vopExt d 1 false
  let eb := vopExt d 2 (d.testBit (64 * 2 + 50))
  let ec := vopExt d 3 (d.testBit (64 * 3 + 50))
  let ed := vopExt d 4 false
  let al (k : Nat) : Bool := dq d k 0 48 % fmtBytes (dq d k 48 2) == 0
  { masks := [2 ^ 50 - 1, 2 ^ 51 - 1, 2 ^ 51 - 1, 2 ^ 50 - 1, 2 ^ 45 - 1]
    args := fn ≤ 7 && 1 ≤ len && al 1 && al 4 && (if ub then al 2 else dq d 2 0 64 == 0)
      && (if uc then al 3 else dq d 3 0 64 == 0)
      && vopOverlapOk ed ea && (!ub || vopOverlapOk ed eb) && (!uc || vopOverlapOk ed ec)
    tiles := true
    w := cdiv len 1024 * (if d.testBit (64 * 5 + 44) then 4 else 1)
    ext := [ea, ed] ++ (if ub then [eb] else []) ++ (if uc then [ec] else []) }

/-- An operand's LEN values in the arithmetic format (07 R185). -/
def State.vopIn (s : State) (d k : Nat) (f : Fmt) (scalar : Bool) : List Nat :=
  let fc := dq d k 48 2
  let len := dq d 5 0 40
  let raw := if scalar then List.replicate len (s.elem fc (dq d k 0 48)) else s.elems fc (dq d k 0 48) len
  raw.map (cvt (fmtOf fc) f)

/-- VOP: D[i] rounded to FD (07 R184, R185). -/
def vopWork (d : Nat) (s : State) : Work :=
  let f := if d.testBit (64 * 5 + 44) then f64 else f32
  let fn := dq d 5 40 4
  let (ub, uc) := vopUses fn
  let a := s.vopIn d 1 f false
  let b := if ub then s.vopIn d 2 f (d.testBit (64 * 2 + 50)) else a
  let c := if uc then s.vopIn d 3 f (d.testBit (64 * 3 + 50)) else a
  let fd := dq d 4 48 2
  let r := List.zipWith (fun x yz => cvt f (fmtOf fd) (vopFn f fn x yz.1 yz.2)) a (List.zip b c)
  ⟨[(dq d 4 0 48, elemBytes fd r)], s, anyNf (fmtOf fd) r, false, 0, marksOf fd r⟩

/-- VOP (07 R184). -/
def execVop (c : Ctx) (run : Run) (s : State) : Host.Outcome State Fault Refusal :=
  done (s.runAnv c.toNat 0x08 run decVop vopWork)

/-! ### VRED -/

/-- VRED operands (07 R186); LEN and NVEC are at least 1 (log entry 12). -/
def decVred (d : Nat) (_ : State) : Dec :=
  let fs := dq d 1 48 2
  let fd := dq d 2 48 2
  let len := dq d 3 0 40
  let nv := dq d 4 0 24
  let mode := dq d 4 24 2
  let stride := dq d 5 0 48
  let sz := fmtBytes fs
  { masks := [2 ^ 50 - 1, 2 ^ 50 - 1, 2 ^ 40 - 1, 2 ^ 26 - 1, 2 ^ 48 - 1]
    args := mode != 3 && 1 ≤ len && 1 ≤ nv && (nv ≤ 1 || len * sz ≤ stride)
      && (mode == 0 || (if mode == 1 then fd == (if fs == 3 then 3 else 2) else fd == 3))
    tiles := true
    w := cdiv (nv * len) 256
    ext := [(dq d 1 0 48, (nv - 1) * stride + len * sz),
      (dq d 2 0 48, (if mode == 0 then len else 1) * fmtBytes fd)] }

/-- The sum of addends of a source format (07 R186): binary64 for FP64, else COMPENSATED up to `few`
addends and CHUNKED beyond; the result's format code and pattern. -/
def vredSum (fs : Nat) (few : Bool) (xs : List Nat) : Nat × Nat :=
  if fs = 3 then (3, runSum f64 xs)
  else
    let ys := xs.map (cvt (fmtOf fs) f32)
    (2, if few then compensated ys else chunked ys)

/-- The square of an addend in binary64 (06 R164). -/
def square64 (fs x : Nat) : Nat :=
  let y := cvt (fmtOf fs) f64 x
  fmul f64 y y

/-- VRED: ELEM, ALL or SSQ (07 R186), and BIGSUM (07 R187), which Mash counts with every summation of that length (06
R157). -/
def vredWork (d : Nat) (s : State) : Work :=
  let fs := dq d 1 48 2
  let fd := dq d 2 48 2
  let len := dq d 3 0 40
  let nv := dq d 4 0 24
  let mode := dq d 4 24 2
  let vec (v : Nat) : List Nat := s.elems fs (dq d 1 0 48 + v * dq d 5 0 48) len
  let vs := (List.range nv).map vec
  let all := vs.flatten
  let dst := dq d 2 0 48
  if mode = 0 then
    let r := (List.range len).map (fun i =>
      let (fc, x) := vredSum fs (nv ≤ 4096) (vs.map (fun v => v.getD i 0))
      cvt (fmtOf fc) (fmtOf fd) x)
    ⟨[(dst, elemBytes fd r)], s, anyNf (fmtOf fd) r, false, 0, marksOf fd r⟩
  else if mode = 1 then
    let (fc, x) := vredSum fs (nv * len ≤ 4096) all
    let big := fs != 3 && 2 ^ 24 < nv * len
    let s1 := if big then (((s.bump 0x400048 1).err 0x400000 8).bump 0x900060 1).err 0x900000 15 else s
    ⟨[(dst, elemBytes fc [x])], s1, !isFin (fmtOf fc) x, big, cvt (fmtOf fc) f64 x, marksOf fc [x]⟩
  else
    let x := runSum f64 (all.map (square64 fs))
    ⟨[(dst, elemBytes 3 [x])], s, !isFin f64 x, false, x, marksOf 3 [x]⟩

/-- VRED (07 R186). -/
def execVred (c : Ctx) (run : Run) (s : State) : Host.Outcome State Fault Refusal :=
  done (s.runAnv c.toNat 0x09 run decVred vredWork)

/-! ### Hearth -/

/-- What a Hearth element that nothing has written since its tile's last claim holds: zero after SRAM
initialisation (02 R50), unspecified after a claim (07 R190). -/
def hearth0 (claims : SMap Nat) (k : Nat) : W32 :=
  let n := claims.get (fun _ => 0) (k / 65536)
  if n = 0 then 0 else Config.hearthFree n k
/-- A Hearth element. -/
def State.hEl (s : State) (k : Nat) : Nat := (s.hop.hearth.get (hearth0 s.hop.claims) k).toNat
/-- The Hearth index of row `r`, column `c` of the strip that starts at tile `t` (07 R189). -/
def hIdx (t r c : Nat) : Nat := (t + c / 256) * 65536 + 256 * r + c % 256
/-- Store a whole strip from tile `t`. -/
def State.setStrip (s : State) (t : Nat) (xs : List Nat) : State :=
  { s with hop := { s.hop with
    hearth := s.hop.hearth.setRun (hearth0 s.hop.claims) (t * 65536) (xs.map (BitVec.ofNat 32)) } }
/-- The values of a strip of `n` tiles, tile by tile and row by row, from a function of row and column. -/
def stripOf (n : Nat) (f : Nat → Nat → Nat) : List Nat :=
  ((List.range n).map (fun t =>
    ((List.range 256).map (fun r => (List.range 256).map (fun k => f r (256 * t + k)))).flatten)).flatten

/-- Claim masks of the other non-FREE contexts. -/
def State.othersMask (s : State) (c : Nat) : Nat :=
  (s.live.filter (fun x => x != c)).foldl (fun m x => m ||| s.cHearth x) 0
/-- The tile checks of a strip (07 R189, R191): inside Hearth, not claimed by another context, and the
context's own when the descriptor reads what the strip held. -/
def State.tilesOk (s : State) (c t n : Nat) (own : Bool) : Bool :=
  let m := (2 ^ n - 1) * 2 ^ t
  t + n ≤ 32 && s.othersMask c &&& m == 0 && (!own || s.cHearth c &&& m == m)

/-! ### TLOAD, TSTORE, TBCAST -/

/-- ROWS, COLS, T, TCNT of 07 Table 7-9. -/
def mRows (d : Nat) : Nat := dq d 3 0 9
def mCols (d : Nat) : Nat := dq d 3 9 14
def mT (d : Nat) : Nat := dq d 3 23 5
def mTcnt (d : Nat) : Nat := dq d 3 28 6
/-- The checks common to the three (07 R192). -/
def mArgs (d : Nat) : Bool :=
  1 ≤ mRows d && mRows d ≤ 256 && 1 ≤ mCols d && mCols d ≤ 8192 && mTcnt d == cdiv (mCols d) 256
/-- Address of element (r, c) of a memory matrix. -/
def mAddr (base ld sz : Nat) (trans : Bool) (r c : Nat) : Nat :=
  if trans then base + c * ld + r * sz else base + r * ld + c * sz
/-- The extent of a memory matrix. -/
def mExt (base ld sz rows cols : Nat) (trans : Bool) : Nat × Nat :=
  (base, if trans then (cols - 1) * ld + rows * sz else (rows - 1) * ld + cols * sz)

/-- TLOAD operands (07 Table 7-9). -/
def decTload (c : Nat) (d : Nat) (s : State) : Dec :=
  { masks := [2 ^ 51 - 1, 2 ^ 32 - 1, 2 ^ 35 - 1]
    args := mArgs d
    tiles := s.tilesOk c (mT d) (mTcnt d) (d.testBit (64 * 3 + 34))
    w := cdiv (mRows d * mCols d) 1024
    ext := [mExt (dq d 1 0 48) (dq d 2 0 32) (fmtBytes (dq d 1 48 2)) (mRows d) (mCols d) (d.testBit (64 + 50))] }

/-- TLOAD: the region of the strip loaded or accumulated (07 R192). -/
def tloadWork (d : Nat) (s : State) : Work :=
  let fc := dq d 1 48 2
  let acc := d.testBit (64 * 3 + 34)
  let cell (r c : Nat) : Nat :=
    if r < mRows d && c < mCols d then
      let v := toF32 fc (s.elem fc (mAddr (dq d 1 0 48) (dq d 2 0 32) (fmtBytes fc) (d.testBit (64 + 50)) r c))
      if acc then fadd f32 (s.hEl (hIdx (mT d) r c)) v else v
    else if acc then s.hEl (hIdx (mT d) r c) else 0
  let xs := stripOf (mTcnt d) cell
  let reg := ((List.range (mRows d)).map (fun r => (List.range (mCols d)).map (fun c => cell r c))).flatten
  ⟨[], s.setStrip (mT d) xs, anyNf f32 reg, false, 0, []⟩

/-- TLOAD (07 R192). -/
def execTload (c : Ctx) (run : Run) (s : State) : Host.Outcome State Fault Refusal :=
  done (s.runAnv c.toNat 0x10 run (decTload c.toNat) tloadWork)

/-- The row maximum of R193. -/
def rowMax (maxabs : Bool) (xs : List Nat) : Nat :=
  match xs.map (fun x => if maxabs then fabsBits f32 (canon f32 x) else canon f32 x) with
  | [] => 0
  | y :: ys => ys.foldl (fmax f32) y
/-- ROWSUM of R193: the tile sums of a row of `tcnt` tiles, columns from `cols` on as +0. -/
def rowSum (tcnt cols : Nat) (h : Nat → Nat) : Nat :=
  let tile (j : Nat) : Nat :=
    sumTree ((List.range 256).map (fun k => if 256 * j + k < cols then h (256 * j + k) else 0))
  match (List.range tcnt).map tile with
  | [] => 0
  | x :: xs => xs.foldl (fadd f32) x
/-- The 8-byte row-statistics entry of R193. -/
def rowStat (rmax rsum maxabs : Bool) (tcnt cols : Nat) (h : Nat → Nat) : Nat :=
  (if rmax then rowMax maxabs ((List.range cols).map h) else 0)
    + (if rsum then rowSum tcnt cols h else 0) * 2 ^ 32
/-- A row-statistics entry holds a non-finite value. -/
def rowStatNf (e : Nat) : Bool := !isFin f32 (e % 2 ^ 32) || !isFin f32 (e / 2 ^ 32)

/-- TSTORE operands (07 Table 7-9, R193). -/
def decTstore (c : Nat) (d : Nat) (s : State) : Dec :=
  let stats := d.testBit (64 * 4 + 48) || d.testBit (64 * 4 + 49)
  { masks := [2 ^ 51 - 1, 2 ^ 32 - 1, 2 ^ 34 - 1, 2 ^ 51 - 1]
    args := mArgs d && (stats || dq d 4 0 48 == 0)
    tiles := s.tilesOk c (mT d) (mTcnt d) true
    w := cdiv (mRows d * mCols d) 1024
    ext := [mExt (dq d 1 0 48) (dq d 2 0 32) (fmtBytes (dq d 1 48 2)) (mRows d) (mCols d) (d.testBit (64 + 50))]
      ++ (if stats then [(dq d 4 0 48, 8 * mRows d)] else []) }

/-- TSTORE: the region written to memory, with row statistics (07 R193). -/
def tstoreWork (d : Nat) (s : State) : Work :=
  let fc := dq d 1 48 2
  let h (r c : Nat) : Nat := s.hEl (hIdx (mT d) r c)
  let rmax := d.testBit (64 * 4 + 48)
  let rsum := d.testBit (64 * 4 + 49)
  let vals := ((List.range (mRows d)).map (fun r =>
    (List.range (mCols d)).map (fun c =>
      (mAddr (dq d 1 0 48) (dq d 2 0 32) (fmtBytes fc) (d.testBit (64 + 50)) r c,
        cvt f32 (fmtOf fc) (h r c))))).flatten
  let es := if rmax || rsum then (List.range (mRows d)).map (fun r =>
    (r, rowStat rmax rsum (d.testBit (64 * 4 + 50)) (mTcnt d) (mCols d) (h r))) else []
  ⟨vals.map (fun v => (v.1, leBytes (fmtBytes fc) v.2)) ++ es.map (fun e => (dq d 4 0 48 + 8 * e.1, leBytes 8 e.2)),
    s, vals.any (fun v => !isFin (fmtOf fc) v.2) || es.any (fun e => rowStatNf e.2), false, 0,
    marksOf fc (vals.map (·.2)) ++ es.map (fun e => (8, rowStatNf e.2))⟩

/-- TSTORE (07 R193). -/
def execTstore (c : Ctx) (run : Run) (s : State) : Host.Outcome State Fault Refusal :=
  done (s.runAnv c.toNat 0x11 run (decTstore c.toNat) tstoreWork)

/-- TBCAST operands (07 Table 7-9, R194): ADDR and LD are zero. -/
def decTbcast (c : Nat) (d : Nat) (s : State) : Dec :=
  let n := if d.testBit (64 * 4 + 52) then mRows d else mCols d
  { masks := [2 ^ 51 - 1, 2 ^ 32 - 1, 2 ^ 34 - 1, 2 ^ 53 - 1]
    args := mArgs d && dq d 1 0 48 == 0 && dq d 2 0 32 == 0
    tiles := s.tilesOk c (mT d) (mTcnt d) true
    w := cdiv (mRows d * mCols d) 1024
    ext := [(dq d 4 0 48, n * fmtBytes (dq d 4 48 2))] }

/-- BFN of R194. -/
def bfn (k h v : Nat) : Nat :=
  match k with | 0 => fadd f32 h v | 1 => fmul f32 h v | 2 => fsub f32 h v | _ => fmax f32 h v

/-- TBCAST: a row or column vector against the region (07 R194). -/
def tbcastWork (d : Nat) (s : State) : Work :=
  let fc := dq d 4 48 2
  let col := d.testBit (64 * 4 + 52)
  let cell (r c : Nat) : Nat :=
    let h := s.hEl (hIdx (mT d) r c)
    if r < mRows d && c < mCols d then
      bfn (dq d 4 50 2) h (toF32 fc (s.elem fc (dq d 4 0 48 + (if col then r else c) * fmtBytes fc)))
    else h
  let xs := stripOf (mTcnt d) cell
  let reg := ((List.range (mRows d)).map (fun r => (List.range (mCols d)).map (fun c => cell r c))).flatten
  ⟨[], s.setStrip (mT d) xs, anyNf f32 reg, false, 0, []⟩

/-- TBCAST (07 R194). -/
def execTbcast (c : Ctx) (run : Run) (s : State) : Host.Outcome State Fault Refusal :=
  done (s.runAnv c.toNat 0x12 run (decTbcast c.toNat) tbcastWork)

/-! ### MMT -/

/-- The operands of MMT (07 Table 7-10). -/
structure Mmt where
  a : Nat
  fa : Nat
  ta : Bool
  b : Nat
  fb : Nat
  tb : Bool
  c : Nat
  fc : Nat
  lda : Nat
  ldb : Nat
  ldc : Nat
  m : Nat
  n : Nat
  k : Nat
  t : Nat
  tcnt : Nat
  accm : Bool
  hacc : Bool
  keep : Bool
  stats : Bool
  maxabs : Bool
  rstat : Nat
  deriving DecidableEq, Repr

/-- Read the operands. -/
def mmtOf (d : Nat) : Mmt :=
  { a := dq d 1 0 48, fa := dq d 1 48 2, ta := d.testBit (64 + 50), b := dq d 2 0 48, fb := dq d 2 48 2,
    tb := d.testBit (128 + 50), c := dq d 3 0 48, fc := dq d 3 48 2, lda := dq d 4 0 32,
    ldb := dq d 4 32 32, ldc := dq d 5 0 32, m := dq d 6 0 20, n := dq d 6 20 14, k := dq d 6 34 20,
    t := dq d 7 0 5, tcnt := dq d 7 5 6, accm := d.testBit (448 + 11), hacc := d.testBit (448 + 12),
    keep := d.testBit (448 + 13), stats := d.testBit (448 + 14), maxabs := d.testBit (448 + 15),
    rstat := dq d 7 16 48 }

/-- MMT checks (07 R195, R191). -/
def decMmt (c : Nat) (d : Nat) (s : State) : Dec :=
  let x := mmtOf d
  { masks := [2 ^ 51 - 1, 2 ^ 51 - 1, 2 ^ 50 - 1, 2 ^ 64 - 1, 2 ^ 32 - 1, 2 ^ 54 - 1, 2 ^ 64 - 1]
    args := x.fa == x.fb && x.fa ≤ 2 && x.tcnt == cdiv x.n 256 && !(x.accm && x.hacc)
      && !((x.hacc || x.keep) && 256 < x.m) && 1 ≤ x.m && 1 ≤ x.k && 1 ≤ x.n && x.n ≤ 8192
    tiles := s.tilesOk c x.t x.tcnt (x.hacc || x.keep)
    w := 256 * cdiv x.m 256 * cdiv x.n 256 * cdiv x.k 256 * (if x.fa == 2 then 4 else 1)
    ext := [mExt x.a x.lda (fmtBytes x.fa) x.m x.k x.ta, mExt x.b x.ldb (fmtBytes x.fb) x.k x.n x.tb]
      ++ (if x.accm || !x.keep then [mExt x.c x.ldc (fmtBytes x.fc) x.m x.n false] else [])
      ++ (if x.stats then [(x.rstat, 8 * x.m)] else []) }

/-- One block of rows: memory writes with their marks, and the strip it leaves (07 R196). -/
def mmtBlock (x : Mmt) (ib : Nat) (s : State) : List (Nat × Bytes) × List Nat × List (Nat × Bool) :=
  let el (base fc ld : Nat) (tr : Bool) (i j : Nat) : Nat :=
    toF32 fc (s.elem fc (mAddr base ld (fmtBytes fc) tr i j))
  let init (r c : Nat) : Nat :=
    let i := 256 * ib + r
    if x.hacc then s.hEl (hIdx x.t r c)
    else if x.accm && i < x.m && c < x.n then el x.c x.fc x.ldc false i c else 0
  let prods (i c kb : Nat) : List Nat :=
    (List.range 256).map (fun t =>
      let k := 256 * kb + t
      if i < x.m && c < x.n && k < x.k then
        fmul f32 (el x.a x.fa x.lda x.ta i k) (el x.b x.fb x.ldb x.tb k c) else 0)
  let cell (r c : Nat) : Nat :=
    (List.range (cdiv x.k 256)).foldl (fun h kb => fadd f32 h (sumTree (prods (256 * ib + r) c kb))) (init r c)
  let xs := stripOf x.tcnt cell
  let h (r c : Nat) : Nat := xs.getD (hIdx 0 r c) 0
  let rows := min 256 (x.m - 256 * ib)
  let cs := if x.keep then [] else ((List.range rows).map (fun r => (List.range x.n).map (fun c =>
    (mAddr x.c x.ldc (fmtBytes x.fc) false (256 * ib + r) c, cvt f32 (fmtOf x.fc) (h r c))))).flatten
  let es := if x.stats then (List.range rows).map (fun r =>
    (256 * ib + r, rowStat true true x.maxabs x.tcnt x.n (h r))) else []
  (cs.map (fun v => (v.1, leBytes (fmtBytes x.fc) v.2)) ++ es.map (fun e => (x.rstat + 8 * e.1, leBytes 8 e.2)),
    xs, marksOf x.fc (cs.map (·.2)) ++ es.map (fun e => (8, rowStatNf e.2)))

/-- The blocks of rows in order; each reads memory as the ones before left it (07 R196). -/
def mmtLoop (x : Mmt) : List Nat → State → Work → Work
  | [], s, k => { k with st := s }
  | ib :: ibs, s, k =>
    let (w, xs, f) := mmtBlock x ib s
    let s1 := w.foldl (fun t p => t.poke p.1 p.2) (s.setStrip x.t xs)
    mmtLoop x ibs s1
      { k with writes := k.writes ++ w, nf := k.nf || f.any (·.2) || anyNf f32 xs, marks := k.marks ++ f }

/-- MMT: C := A × B over whole tensors (07 R196). -/
def mmtWork (d : Nat) (s : State) : Work :=
  let x := mmtOf d
  let k := mmtLoop x (List.range (cdiv x.m 256)) s ⟨[], s, false, false, 0, []⟩
  { k with st := { k.st with mem := s.mem } }

/-- MMT (07 R196). -/
def execMmt (c : Ctx) (run : Run) (s : State) : Host.Outcome State Fault Refusal :=
  done (s.runAnv c.toNat 0x13 run (decMmt c.toNat) mmtWork)

end Sys2Proof.Machine
end

