-- ==== Sys2Proof/Machine/Slots.lean ====
section
/-! DEFINITION. Tensor slots and Billets: the policy, codec and Mash records (03 R73, 04 R93, 06 R137),
effective modes (14 R395 to R398), Billet order (03 R443), scales (03 R78), route records (06 R144) and
the step's statistics (03 R88, 05 R125). -/
namespace Sys2Proof.Machine
open Sys2Proof

/-! ### This package -/

/-- GRD_NODE_ID: the package's logical node ID (12 R314). -/
def State.node (s : State) : Nat := s.regF 0xE00044 0 18

/-! ### Records of a slot -/

/-- A word of a scale policy record (03 Table 3-5). -/
def State.polW (s : State) (t w : Nat) : W32 := s.polR.get zero32 (8 * t + w)
/-- A field of a scale policy record. -/
def State.polF (s : State) (t w lo n : Nat) : Nat := fld (s.polW t w) lo n
/-- USED (03 R443). -/
def State.used (s : State) (t : Nat) : Bool := bit (s.polW t 0) 31
/-- CONTEXT of a slot. -/
def State.slotCtx (s : State) (t : Nat) : Nat := s.polF t 1 0 12
/-- TENSOR. -/
def State.tensor (s : State) (t : Nat) : Nat := s.polF t 0 0 24
/-- Configured FORMAT. -/
def State.fmt (s : State) (t : Nat) : Nat := s.polF t 0 24 3
/-- The format that Temper works with: raw F32 for a coded slot under KX1 (14 code d). -/
def State.tfmt (s : State) (t : Nat) : Nat :=
  if isCoded (s.fmt t) && s.cKx1 (s.slotCtx t) then 5 else s.fmt t
/-- History length H. -/
def State.hLen (s : State) (t : Nat) : Nat := s.polF t 0 27 4 + 1
/-- BSLOT. -/
def State.bslotOf (s : State) (t : Nat) : Nat := s.polF t 3 16 16
/-- ESC_PER_BLOCK. -/
def State.escPer (s : State) (t : Nat) : Nat := s.polF t 4 0 7
/-- 2^ESC_CAP_LOG2. -/
def State.escCap (s : State) (t : Nat) : Nat := 2 ^ s.polF t 4 8 5
/-- UNDER_U. -/
def State.underU (s : State) (t : Nat) : Nat := s.polF t 4 16 5
/-- An 11-bit signed field of a policy record. -/
def State.polS (s : State) (t w lo : Nat) : Int := sgn 11 (s.polF t w lo 11)

/-- A word of a codec record (04 Table 4-2). -/
def State.pckW (s : State) (t w : Nat) : W32 := s.pckR.get zero32 (8 * t + w)
/-- LEN (04 R93). -/
def State.len (s : State) (t : Nat) : Nat := (s.pckW t 1).toNat + fld (s.pckW t 2) 0 8 * 2 ^ 32
/-- LEN_PAD (04 R99). -/
def State.lenPad (s : State) (t : Nat) : Nat := padTo 256 (s.len t)
/-- LS_EXP. -/
def State.lsExp (s : State) (t : Nat) : Int := sgn 8 (fld (s.pckW t 2) 16 8)
/-- SRC: 0 BF16, 1 FP16, 2 FP32, 3 FP64. -/
def State.srcFmt (s : State) (t : Nat) : Nat := fld (s.pckW t 0) 4 2
/-- Residual buffer base (04 R99). -/
def State.resBase (s : State) (t : Nat) : Nat := (s.pckW t 4).toNat + (s.pckW t 5).toNat * 2 ^ 32
/-- LEAF_MASK (06 R137). -/
def State.leafMask (s : State) (t : Nat) : Nat :=
  (s.mshR.get zero32 (4 * t + 2)).toNat + (s.mshR.get zero32 (4 * t + 3)).toNat * 2 ^ 32
/-- STAT_SSQ. -/
def State.statSsq (s : State) (t : Nat) : Bool := bit (s.mshR.get zero32 (4 * t)) 0
/-- STAT_MV. -/
def State.statMv (s : State) (t : Nat) : Bool := bit (s.mshR.get zero32 (4 * t)) 1

/-- Records of `n` words whose word 0 has bit 31 set (USED), ascending. -/
def usedIds (n : Nat) (m : SMap W32) : List Nat :=
  m.filterMap (fun e => if e.1 % n = 0 && bit e.2 31 then some (e.1 / n) else none)
/-- The used slots of a context, ascending (03 R443). -/
def State.slotsOf (s : State) (c : Nat) : List Nat :=
  (usedIds 8 s.polR).filter (fun t => s.slotCtx t == c)
/-- The Billet slots of a context, ascending. -/
def State.billetsOf (s : State) (c : Nat) : List Nat :=
  (List.eraseDups ((s.slotsOf c).map s.bslotOf)).foldl (fun acc b => insertBy (fun x y => decide (x < y)) b acc) []
/-- The tensors of a Billet, in Billet order (03 R443). -/
def State.tensorsOf (s : State) (c b : Nat) : List Nat := (s.slotsOf c).filter (fun t => s.bslotOf t == b)
/-- Billet ID of a Billet slot (03 R73). -/
def State.billetId (s : State) (b : Nat) : Nat := fld (s.bslR.get zero32 b) 8 20
/-- The Billet slot of a context that holds a Billet ID. -/
def State.billetSlot (s : State) (c id : Nat) : Option Nat :=
  (s.billetsOf c).find? (fun b => s.billetId b == id)
/-- The step-closing Billet slot: the last of the context (01 R23; log entry 13). -/
def State.closing (s : State) (c : Nat) : Option Nat := (s.billetsOf c).getLast?
/-- The step-closing Billet's ID, zero for a context with no Billet. -/
def State.closingId (s : State) (c : Nat) : Nat :=
  match s.closing c with | some b => s.billetId b | none => 0

/-! ### Effective modes, 14 -/

/-- The effective straggler policy (14 code g). -/
def State.policy (s : State) (c : Nat) : Nat := if s.cKx1 c then 0 else fld (s.grdR.get zero32 (25 * c)) 0 2

/-- Effective modes of a slot. -/
structure Eff where
  fmt : Nat
  rot : Bool
  topk : Bool
  resid : Bool
  kM1 : Nat
  deriving DecidableEq, Repr

/-- The modes in effect with a given word 0 of the codec record and a given Sparge flag (14 R393, R395,
04 R118). -/
def State.effWith (s : State) (t : Nat) (w0 : W32) (sparge : Bool) : Eff :=
  let f := s.fmt t
  let kx1 := s.cKx1 (s.slotCtx t)
  if !isCoded f then ⟨f, false, false, false, 0⟩
  else if kx1 then ⟨5, false, false, false, 0⟩
  else if sparge then ⟨5, false, false, bit w0 2, 0⟩
  else ⟨f, bit w0 0, bit w0 1, bit w0 2, if bit w0 1 then fld w0 8 8 else 0⟩
/-- The modes in effect in the open step. -/
def State.eff (s : State) (t : Nat) : Eff := s.effWith t (s.pckW t 0) (s.hx (s.slotCtx t)).sparge
/-- A coded slot of a Sparge step (04 R118). -/
def State.spargeSlot (s : State) (t : Nat) : Bool :=
  isCoded (s.fmt t) && (s.hx (s.slotCtx t)).sparge && !s.cKx1 (s.slotCtx t)

/-- Word 0 of a codec record as SLOT_EFF shows it: before the first STEP descriptor that of the step it will open, with what is
staged for it (04 R95, 14 R398). -/
def State.slotWord0 (s : State) (t : Nat) : W32 :=
  let c := s.slotCtx t
  match s.pck.staged.get (fun _ => none) t with
  | some v =>
    if s.cActive c && (s.hx c).opened = 0 && (s.pckW t 7).toNat = (s.cStep c + 1) % 2 ^ 32 then v else s.pckW t 0
  | none => s.pckW t 0
/-- SLOT_EFF (14 Table 14-4). -/
def State.slotEff (s : State) (t : Nat) : W32 :=
  let c := s.slotCtx t
  if !s.used t || s.cState c == stFree then 0
  else
    let w0 := s.slotWord0 t
    let e := s.effWith t w0 (s.hx c).sparge
    let f := s.fmt t
    let fo := e.fmt != f
    let ro := e.rot != bit w0 0
    let to_ := e.topk != bit w0 1
    let so := e.resid != bit w0 2
    let any := fo || ro || to_ || so
    let cause := if !any then 0 else if s.cKx1 c then 2 else if s.spargeSlot t then 3 else 1
    let drop := s.policy c == 1 && !(isCoded f && e.resid)
    BitVec.ofNat 32 (e.fmt + 8 * b2n e.rot + 16 * b2n e.topk + 32 * b2n e.resid + 64 * b2n drop
      + 128 * b2n (s.cPattern c) + 256 * b2n fo + 512 * b2n ro + 1024 * b2n to_ + 2048 * b2n so
      + 4096 * cause + 65536 * e.kM1)

/-! ### Blocks and Billet order -/

/-- Blocks of a tensor. -/
def State.nblocks (s : State) (t : Nat) : Nat := cdiv (s.len t) 4096
/-- NELEM of a block (04 R106). -/
def State.nelem (s : State) (t : Nat) (rot : Bool) (blk : Nat) : Nat :=
  min 4096 ((if rot then s.lenPad t else s.len t) - 4096 * blk)
/-- Blocks of a Billet (06 "Routes"). -/
def State.billetBlocks (s : State) (c b : Nat) : Nat := ((s.tensorsOf c b).map s.nblocks).sum
/-- The tensor slot and block at a Billet block number. -/
def blockAt (s : State) : List Nat → Nat → Option (Nat × Nat)
  | [], _ => none
  | t :: ts, n => if n < s.nblocks t then some (t, n) else blockAt s ts (n - s.nblocks t)
/-- The tensor slot and block at a Billet block number of a context. -/
def State.blockAt (s : State) (c b n : Nat) : Option (Nat × Nat) := Machine.blockAt s (s.tensorsOf c b) n
/-- The Billet block number of a tensor's block. -/
def blockNo (s : State) (t blk : Nat) : List Nat → Nat
  | [] => 0
  | u :: us => if u = t then blk else s.nblocks u + blockNo s t blk us
/-- The Billet block number of a tensor's block. -/
def State.blockNo (s : State) (t blk : Nat) : Nat :=
  Machine.blockNo s t blk (s.tensorsOf (s.slotCtx t) (s.bslotOf t))

/-! ### Temper state, 03 -/

/-- Rule state before any boundary. -/
def rule0 (_ : Nat) : RuleSt := ⟨0, 0, []⟩
/-- Rule state of a slot; q is Q_INIT while HCOUNT is 0 (03 R77), and reads 0 for a raw slot, which has no q (03 R74; log
entry 93). -/
def State.rule (s : State) (t : Nat) : RuleSt :=
  let r := s.tmp.rule.get rule0 t
  if isRaw (s.tfmt t) then { r with q := 0 } else if r.hist = [] then ⟨s.polS t 3 0, r.dn, []⟩ else r
/-- B of a Billet slot: B_INIT until a boundary has set it (03 R78). -/
def State.bOf (s : State) (b : Nat) : Int :=
  match s.tmp.bB.get (fun _ => none) b with
  | some x => x
  | none => sgn 8 (fld (s.bslR.get zero32 b) 0 8)
/-- q − 4B of a coded slot before the clamp of R78. -/
def State.oRaw (s : State) (t : Nat) : Int := (s.rule t).q - 4 * s.bOf (s.bslotOf t)
/-- o of a slot for the current step (03 R78). -/
def State.oOf (s : State) (t : Nat) : Nat := (min (max (s.oRaw t) 0) 63).toNat
/-- q = 4B + o, the scale in use (03 R64). -/
def State.qOf (s : State) (t : Nat) : Int := 4 * s.bOf (s.bslotOf t) + (s.oOf t : Int)
/-- `top` of a W192 slot (03 R70). -/
def State.topOf (s : State) (t : Nat) : Int := (s.rule t).q + 8
/-- `top` of the Sparge window: ⌈q/4⌉ + 16 (06 R155). -/
def State.spargeTop (s : State) (t : Nat) : Int := -((-s.qOf t) / 4) + 16
/-- o was clamped at the boundary that opened the step (03 R78, R88). -/
def State.clamped (s : State) (t : Nat) : Bool :=
  isCoded (s.tfmt t) && (s.rule t).hist != [] && s.oRaw t < 0

/-- The step for which Temper holds a context's scales (03 R86, R87). -/
def State.scalesFor (s : State) (c : Nat) : Nat :=
  match s.tmp.closed.get (fun _ => none) c with
  | some k => k + 1
  | none => if (s.hx c).opened = 0 then s.cStep c + 1 else s.cStep c

/-- Billet scale digest of 03 R82 for a step. -/
def State.digest (s : State) (c b step : Nat) : Nat :=
  crc32c (leBytes 6 step ++ leBytes 3 (s.billetId b) ++ leBytes 1 (unsgn 8 (s.bOf b))
    ++ ((s.tensorsOf c b).map (fun t =>
      let f := s.tfmt t
      leBytes 3 (s.tensor t) ++ leBytes 2
        (if isCoded f then s.oOf t else if f = 4 then unsgn 16 (s.rule t).q else 0))).flatten)

/-- Statistics before the first element. -/
def stat0 (_ : Nat) : SlotStat :=
  { step := 0, sat := 0, esc := 0, und := 0, wovf := 0, wund := 0, clamp := false, maxL := 0,
    maxG := 0, elems := 0, flags := 0, nfSpans := 0, nfFirst := none, blks := [], mseN := 0, mseD := 0,
    keptL1 := 0, leftL1 := 0, keptCnt := 0, ssq := 0, n := 0, mean := 0, m2 := 0 }
/-- Statistics of a slot in the open step. -/
def State.stat (s : State) (t : Nat) : SlotStat := s.tmp.now.get stat0 t
/-- Store a slot's statistics. -/
def State.setStat (s : State) (t : Nat) (x : SlotStat) : State :=
  { s with tmp := { s.tmp with now := s.tmp.now.set stat0 t x } }
/-- Set SV_FLAGS bits of a slot (05 R125). -/
def State.svFlag (s : State) (t bits : Nat) : State :=
  let x := s.stat t
  s.setStat t { x with flags := x.flags ||| bits }

/-! ### Routes, 06 R144 -/

/-- A route record with its child and delivery lists: (logical node ID, CMAX entry). -/
structure Route where
  bslot : Nat
  first : Nat
  nblk : Nat
  parent : Nat
  lane : Nat
  pgrp : Nat
  cmax : Nat
  childIdx : Nat
  children : List (Nat × Nat)
  deliv : List (Nat × Nat)
  deriving DecidableEq, Repr

/-- FINAL (06 Table 6-3). -/
def Route.final (r : Route) : Bool := r.lane == 3
/-- A child-list entry. -/
def State.childEntry (s : State) (c i : Nat) : Nat := s.memN (s.cChildBase c + 8 * i) 8
/-- Read route record `i` of a context. -/
def State.routeAt (s : State) (c i : Nat) : Route :=
  let d := s.memN (s.cRouteBase c + 16 * i) 16
  let n := nfld d 74 8
  let m := nfld d 106 5
  let k := nfld d 111 17
  let ent (j : Nat) : Nat × Nat :=
    let e := s.childEntry c (k + j)
    (nfld e 0 18, nfld e 32 18)
  { bslot := nfld d 0 16, first := nfld d 16 20, nblk := nfld d 36 20, parent := nfld d 56 18,
    lane := nfld d 82 2, pgrp := nfld d 84 4, cmax := nfld d 88 18, childIdx := k,
    children := (List.range n).map ent, deliv := (List.range m).map (fun j => ent (n + j)) }
/-- Every route record of a context. -/
def State.routes (s : State) (c : Nat) : List Route := (List.range (s.cRouteCnt c)).map (s.routeAt c)
/-- The route record that covers a block of a Billet slot. -/
def State.routeFor (s : State) (c b n : Nat) : Option Route :=
  (s.routes c).find? (fun r => r.bslot == b && r.first ≤ n && n < r.first + r.nblk)
/-- The package receives blocks under a record. -/
def State.receives (s : State) (r : Route) : Bool := r.final || r.parent == s.node || !r.children.isEmpty
/-- A root record: PARENT is this package's own ID, and not FINAL. -/
def State.isRoot (s : State) (r : Route) : Bool := !r.final && r.parent == s.node
/-- The position of a node in a record's child list. -/
def Route.childPos (r : Route) (n : Nat) : Option Nat := r.children.findIdx? (fun e => e.1 == n)
/-- Positions of a record's child list. -/
def Route.positions (r : Route) : List Nat := List.range r.children.length

/-- The class of a slot: 0 coded, 1 W192, 2 raw (06 R145). -/
def State.cls (s : State) (t : Nat) : Nat :=
  let f := (s.effWith t (s.pckW t 0) false).fmt
  if isCoded f then 0 else if f = 4 then 1 else 2
/-- The class a block is reduced in: 3 for a coded slot of a Sparge step (06 R155). -/
def State.kind (s : State) (t : Nat) : Nat := if s.spargeSlot t then 3 else s.cls t
/-- ACC_W of an open block (06 Table 6-5). -/
def accW (kind cmax : Nat) : Nat :=
  match kind with | 0 => 16384 | 1 => 98304 | 2 => (if cmax ≤ 4096 then 32768 else 49152) | _ => 98304
/-- The class of a record's range in the open step. -/
def State.kindOf (s : State) (c : Nat) (r : Route) : Nat :=
  match s.blockAt c r.bslot r.first with | some (t, _) => s.kind t | none => 0
/-- IN bytes (06 "Staging"). -/
def State.inBytes (s : State) (c : Nat) : Nat := (s.cStageSegs c - s.cStageOut c) * 65536
/-- OUT bytes. -/
def State.outBytes (s : State) (c : Nat) : Nat := s.cStageOut c * 65536
/-- WIN of a record (06 R160). -/
def State.win (s : State) (c : Nat) (r : Route) : Nat := s.inBytes c / accW (s.kindOf c r) r.cmax
/-- The key of a Billet slot of a context. -/
def bKey (c b : Nat) : Nat := 65536 * c + b
/-- Blocks of a Billet emitted in the open step. -/
def State.emitted (s : State) (c b : Nat) : List Nat := s.msh.emitted.get (fun _ => []) (bKey c b)
/-- D: the lowest block of a record not yet emitted (06 R160); past the range when all are. -/
def State.dOf (s : State) (c : Nat) (r : Route) : Nat :=
  let e := s.emitted c r.bslot
  match (List.range r.nblk).find? (fun i => !e.contains (r.first + i)) with
  | some i => r.first + i
  | none => r.first + r.nblk

/-! ### Phase stamps, 12 R352 -/

/-- A window word that a write changes: the read-modify of a record store. -/
def setWord (m : SMap W32) (n rec w : Nat) (v : W32) : SMap W32 := m.set zero32 (n * rec + w) v

end Sys2Proof.Machine
end

