-- ==== Sys2Proof/Machine/Temper.lean ====
section
/-! DEFINITION. Temper: the max table and the stat table (03 R81, 06 R164 to R166), STEP_SLOT and B (03 R77,
R78), the resync image and the table digest (03 R83, R85), and the step boundary (03 R75, R79, R90,
05 R126, 12 R327). -/
namespace Sys2Proof.Machine
open Sys2Proof

/-! ### Max table and stat table -/

/-- The magnitude of a max-table entry (03 R81). -/
def entryMag (f e : Nat) : Nat := if f = 4 then e % 2 ^ 63 else e % 2 ^ 32
/-- The force vote of an entry: coded formats only. -/
def entryVote (f e : Nat) : Bool := isCoded f && e.testBit 32
/-- An entry from a magnitude and a vote. -/
def mkEntry (m : Nat) (vote : Bool) : Nat := m + 2 ^ 32 * b2n vote
/-- Two entries reduced (03 R81): the larger magnitude and the OR of the votes. -/
def mergeEntry (f a b : Nat) : Nat :=
  mkEntry (max (entryMag f a) (entryMag f b)) (entryVote f a || entryVote f b)

/-- The UND comparison of 03 R90. -/
def State.undOver (s : State) (t : Nat) (x : SlotStat) : Bool :=
  s.polF t 6 0 20 != 0 && s.polF t 6 0 20 * x.elems < x.und * 10 ^ 6
/-- The force vote of this package for a slot (03 R91). -/
def State.localVote (s : State) (t : Nat) : Bool := isCoded (s.tfmt t) && s.undOver t (s.stat t)
/-- This package's max-table entry of a slot, with its vote: the maximum over the blocks that the step's manifest counts (03
R81, R91). -/
def State.localEntry (s : State) (t : Nat) : Nat :=
  mkEntry (((s.stat t).blks.map (fun b => b.2.max)).foldl max 0) (s.localVote t)

/-- MV_ADD of 06 R165 over binary64 patterns; `n` is a count. -/
def mvAdd (a : Nat × Nat × Nat) (x : Nat) : Nat × Nat × Nat :=
  let n := a.1 + 1
  let d := fsub f64 x a.2.1
  let m := fadd f64 a.2.1 (fdiv f64 d (ofIntF f64 n))
  (n, m, fadd f64 a.2.2 (fmul f64 d (fsub f64 x m)))
/-- MV_MERGE of 06 R165. -/
def mvMerge (a b : Nat × Nat × Nat) : Nat × Nat × Nat :=
  if b.1 = 0 then a
  else if a.1 = 0 then b
  else
    let na := ofIntF f64 a.1
    let nb := ofIntF f64 b.1
    let n := ofIntF f64 (a.1 + b.1)
    let d := fsub f64 b.2.1 a.2.1
    let m := fadd f64 a.2.1 (fmul f64 d (fdiv f64 nb n))
    let q := fmul f64 (fmul f64 d d) (fdiv f64 (fmul f64 na nb) n)
    ((a.1 + b.1) % 2 ^ 64, m, fadd f64 (fadd f64 a.2.2 b.2.2) q)

/-- The sums of a slot's statistics, its blocks' terms taken in ascending element order (03 R89, 04 R108,
06 R165). -/
def foldStat (x : SlotStat) : SlotStat :=
  let all (g : BlkStat → List Nat) : List Nat := (x.blks.map (fun e => g e.2)).flatten
  let sum (xs : List Nat) : Nat := xs.foldl (fadd f64) 0
  let mv := (all (·.xs)).foldl mvAdd (0, 0, 0)
  { x with
    mseN := sum (all (·.e2)), mseD := sum (all (·.y2)), keptL1 := sum (all (·.kept)),
    leftL1 := sum (all (·.left)), keptCnt := min (all (·.kept)).length (2 ^ 32 - 1),
    n := mv.1, mean := mv.2.1, m2 := mv.2.2, blks := [] }

/-- The entries of the stat table that a slot has: SSQ, then N, MEAN and M2 (06 R166). -/
def State.statWords (s : State) (t ssq n mean m2 : Nat) : List Nat :=
  (if s.statSsq t then [ssq] else []) ++ (if s.statMv t then [n, mean, m2] else [])
/-- The number of 8-byte words in a context's stat table. -/
def State.statLen (s : State) (c : Nat) : Nat := ((s.slotsOf c).map (fun t => (s.statWords t 0 0 0 0).length)).sum
/-- Two stat tables reduced, slot by slot (06 R164, R165). -/
def mergeStats (s : State) : List Nat → List Nat → List Nat → List Nat
  | [], _, _ => []
  | t :: ts, a, b =>
    let i := b2n (s.statSsq t)
    let k := (s.statWords t 0 0 0 0).length
    let ssq := fadd f64 (a.getD 0 0) (b.getD 0 0)
    let g (xs : List Nat) : Nat × Nat × Nat := (xs.getD i 0, xs.getD (i + 1) 0, xs.getD (i + 2) 0)
    let mv := mvMerge (g a) (g b)
    s.statWords t ssq mv.1 mv.2.1 mv.2.2 ++ mergeStats s ts (a.drop k) (b.drop k)
/-- Two max tables reduced. -/
def mergeTable (s : State) (ts a b : List Nat) : List Nat :=
  (indexed 0 ts).map (fun p => mergeEntry (s.tfmt p.2) (a.getD p.1 0) (b.getD p.1 0))

/-! ### STEP_SLOT and B -/

/-- The exponent of a normal binary64 magnitude. -/
def exp64 (m : Nat) : Int := (nfld m 52 11 : Int) - 1023
/-- The candidate of STEP_SLOT before its clamp (03 R77). -/
def candOf (fmt headroom : Nat) (floor : Int) (m : Nat) : Int :=
  if fmt = 4 then (if m < 2 ^ 52 then floor else exp64 m)
  else if m < 0x00800000 then floor
  else qlog4 m - (qoffOf fmt : Int) + (headroom : Int)

/-- STEP_SLOT of 03 R77 on a slot's rule state. DESIGN CHOICE: STEP_SLOT takes gmax and the force vote as two inputs; the
entry that HIST keeps of a coded slot is the whole max-table entry, vote bit included, in the image and the table digest too
(03 R85; log entry 101). -/
def State.stepSlot (s : State) (t gmax : Nat) : RuleSt :=
  let f := s.tfmt t
  let force := entryVote f gmax
  let r := s.rule t
  let h1 := (gmax :: r.hist).take (s.hLen t)
  let hist := if force then h1.take 1 else h1
  if isRaw f then { r with hist := hist }
  else
    let m := (hist.map (entryMag f)).foldl max 0
    let lo := s.polS t 2 0
    let cand := min (max (candOf f (s.polF t 1 12 4) lo m) lo) (s.polS t 2 16)
    if force || r.q < cand then ⟨cand, 0, hist⟩
    else if r.q - (s.polF t 1 16 2 : Int) ≤ cand then ⟨r.q, 0, hist⟩
    else if r.dn + 1 = s.polF t 1 18 4 + 1 then ⟨cand, 0, hist⟩
    else ⟨r.q, r.dn + 1, hist⟩

/-- B of a Billet after its slots' updates (03 R78). -/
def State.nextB (s : State) (c b : Nat) : Int :=
  let qs := ((s.tensorsOf c b).filter (fun t => isCoded (s.tfmt t))).map (fun t => (s.rule t).q)
  let old := s.bOf b
  match qs with
  | [] => old
  | q :: rest =>
    let hi := rest.foldl max q
    if qs.all (fun q => 4 * old ≤ q && q ≤ 4 * old + 63) then old else max (-128) (-((-(hi - 63)) / 4))

/-- Set the rule state of a slot. -/
def State.setRule (s : State) (t : Nat) (r : RuleSt) : State :=
  { s with tmp := { s.tmp with rule := s.tmp.rule.set rule0 t r } }
/-- Set B of a Billet slot. -/
def State.setB (s : State) (b : Nat) (x : Int) : State :=
  { s with tmp := { s.tmp with bB := s.tmp.bB.set (fun _ => none) b (some x) } }

/-! ### Resync image -/

/-- The 136 bytes of a slot (03 R85). -/
def State.slotImage (s : State) (t : Nat) : Bytes :=
  let r := s.rule t
  leBytes 2 (unsgn 16 r.q) ++ leBytes 1 r.dn ++ leBytes 1 r.hist.length ++ zeros 4
    ++ ((List.range 16).map (fun i => leBytes 8 (r.hist.getD i 0))).flatten
/-- The resync image of a context (03 R85). -/
def State.image (s : State) (c : Nat) : Bytes :=
  ((s.slotsOf c).map s.slotImage).flatten
    ++ ((s.billetsOf c).map (fun b => leBytes 1 (unsgn 8 (s.bOf b)) ++ zeros 1)).flatten
/-- The table digest (03 R83). -/
def State.tableDigest (s : State) (c : Nat) : Nat := crc32c (s.image c)

/-- Rule states read from an image. -/
def takeRules : List Nat → Bytes → State → State
  | [], _, s => s
  | t :: ts, bs, s =>
    let n := (bs.getD 3 0).toNat
    let hist := (List.range (min n 16)).map (fun i => ofLe ((bs.drop (8 + 8 * i)).take 8))
    takeRules ts (bs.drop 136) (s.setRule t ⟨sgn 16 (ofLe (bs.take 2)), (bs.getD 2 0).toNat, hist⟩)
/-- B values read from an image. -/
def takeBs : List Nat → Bytes → State → State
  | [], _, s => s
  | b :: xs, bs, s => takeBs xs (bs.drop 2) (s.setB b (sgn 8 (bs.getD 0 0).toNat))
/-- A package adopts a resync image in full (03 R85). -/
def State.adoptImage (s : State) (c : Nat) (bs : Bytes) : State :=
  let ts := s.slotsOf c
  takeBs (s.billetsOf c) (bs.drop (136 * ts.length)) (takeRules ts bs s)

/-! ### Events and the boundary -/

/-- An entry of TMP_EVT, or EVT_LOST when it holds 64 (03 R90). -/
def State.tmpEvent (s : State) (t kind step : Nat) : State :=
  let s1 := s.err 0x500000 11
  if 64 ≤ s.tmp.events.length then s1.err 0x500000 12
  else
    let e := BitVec.ofNat 64 (t + kind * 2 ^ 16 + 2 ^ 31 + step % 2 ^ 16 * 2 ^ 32)
    { s1 with tmp := { s1.tmp with events := s1.tmp.events ++ [e] } }

/-- The MSE comparison of 03 R90: relative error above MSE_THR. DESIGN CHOICE: whether the quotient MSE_NUM / MSE_DEN is
rounded before the comparison is open; the model compares exactly, MSE_THR × MSE_DEN with MSE_NUM (log entry 104). -/
def mseOver (thr : Nat) (x : SlotStat) : Bool :=
  !isZero f32 thr && !isZero f64 x.mseD && vlt (vmul (decF f32 thr) (decF f64 x.mseD)) (decF f64 x.mseN)

/-- The comparisons of 03 R90 for one slot, on the folded statistics of the step just closed. -/
def State.compareSlot (s : State) (t : Nat) (x : SlotStat) : State :=
  let s1 := if s.polF t 5 0 20 != 0 && s.polF t 5 0 20 * x.elems < x.sat * 10 ^ 6
    then s.tmpEvent t 0 x.step else s
  let s2 := if s.undOver t x then s1.tmpEvent t 1 x.step else s1
  let s3 := if mseOver (s.polW t 7).toNat x then s2.tmpEvent t 2 x.step else s2
  if x.wovf != 0 then s3.tmpEvent t 3 x.step else s3

/-- The flags of the non-finite class (05 Table 5-2). -/
def nfClass : Nat := 0x11B7
/-- Put the staged words 5 to 7 of a policy record in force (03 R75). DESIGN CHOICE: a word still staged when its context
returns to FREE is kept, and applied at the first boundary after the next load (log entry 105). -/
def State.applyPol (s : State) (t : Nat) : State :=
  [5, 6, 7].foldl (fun s w =>
    match s.tmp.staged.get (fun _ => none) (8 * t + w) with
    | none => s
    | some v =>
      { s with
        polR := setWord s.polR 8 t w v
        tmp := { s.tmp with staged := s.tmp.staged.set (fun _ => none) (8 * t + w) none } }) s
/-- Put the staged word 0 of a Mash slot record in force (06 R137). -/
def State.applyMsh (s : State) (t : Nat) : State :=
  match s.msh.staged.get (fun _ => none) t with
  | none => s
  | some v =>
    { s with
      mshR := setWord s.mshR 4 t 0 v
      msh := { s.msh with staged := s.msh.staged.set (fun _ => none) t none } }

/-- Close the statistics of a slot: compare, raise NONFIN, and make them the last completed step's. -/
def State.closeSlot (s : State) (b : Bound) (t g : Nat) (st : List Nat) : State :=
  let i := b2n (s.statSsq t)
  let own := s.stat t
  let x0 := foldStat { own with maxL := mkEntry own.maxL (s.localVote t) }
  let x := { x0 with
    step := b.step, clamp := s.clamped t, maxG := g,
    ssq := if s.statSsq t then st.getD 0 0 else 0,
    n := if s.statMv t then st.getD i 0 else 0,
    mean := if s.statMv t then st.getD (i + 1) 0 else 0,
    m2 := if s.statMv t then st.getD (i + 2) 0 else 0 }
  let s1 := s.compareSlot t x
  let s2 := if x.flags &&& nfClass != 0 then s1.err 0x500000 13 else s1
  { s2 with tmp := { s2.tmp with
      now := s2.tmp.now.del t, last := s2.tmp.last.set stat0 t x
      ssqs := s2.tmp.ssqs.set (fun _ => []) t (((b.step, x.ssq) :: s2.tmp.ssqs.get (fun _ => []) t).take 9) } }

/-- Close every slot of a context, taking the stat table apart. -/
def closeSlots (b : Bound) : List (Nat × Nat) → List Nat → State → State
  | [], _, s => s
  | (t, g) :: ts, st, s =>
    let k := (s.statWords t 0 0 0 0).length
    closeSlots b ts (st.drop k) (s.closeSlot b t g st)

/-- The global maxima that a boundary enters: those of the verdict, or after an EARLY verdict those of the
previous step without votes, zero where there was none (12 R327). -/
def State.gmaxes (s : State) (b : Bound) (ts : List Nat) : List (Nat × Nat) :=
  (indexed 0 ts).map (fun p =>
    (p.2, if b.early then entryMag (s.tfmt p.2) (s.tmp.last.get stat0 p.2).maxG else b.table.getD p.1 0))

/-- The step boundary of a context (03 R75, R77 to R79, R84, R90; 05 R126; 06 R137): comparisons, staged
words, STEP_SLOT, B, and the root's image after a diverged skip. -/
def State.runBoundary (s : State) (c : Nat) (b : Bound) : State :=
  let ts := s.slotsOf c
  let gs := s.gmaxes b ts
  let s1 := closeSlots b gs (if b.early then [] else b.stats) s
  let s2 := ts.foldl (fun s t => (s.applyPol t).applyMsh t) s1
  let forced := (gs.filter (fun p => entryVote (s.tfmt p.1) p.2)).length
  let s3 := gs.foldl (fun s p => s.setRule p.1 (s.stepSlot p.1 p.2)) s2
  let s4 := (s.billetsOf c).foldl (fun s x => s.setB x (s.nextB c x)) s3
  let s5 := match b.image with | some bs => s4.adoptImage c bs | none => s4
  let s6 := (s5.countEv 0x500000 0x10 1).countEv 0x500000 0x12 forced
  { s6 with tmp := { s6.tmp with
      bound := s6.tmp.bound.set (fun _ => none) c none,
      closed := s6.tmp.closed.set (fun _ => none) c (some b.step) } }

/-- Put staged update-record words in force for a context (08 R207). -/
def State.applyUpd (s : State) (c : Nat) : State :=
  s.upd.staged.foldl (fun s e =>
    let r := e.1 / 16
    match e.2 with
    | some v =>
      if fld (s.updR.get zero32 (48 * r + 13)) 0 12 = c then
        { s with
          updR := setWord s.updR 48 r (e.1 % 16) v
          upd := { s.upd with staged := s.upd.staged.set (fun _ => none) e.1 none } }
      else s
    | none => s) s
/-- Put staged words 7 and 8 of the Guard record in force (12 R314). -/
def State.applyGrd (s : State) (c : Nat) : State :=
  [7, 8].foldl (fun s w =>
    match s.grd.staged.get (fun _ => none) (16 * c + w) with
    | none => s
    | some v =>
      { s with
        grdR := setWord s.grdR 25 c w v
        grd := { s.grd with staged := s.grd.staged.set (fun _ => none) (16 * c + w) none } }) s

/-- SCALES_READY: Temper finishes the boundary that the verdict triggered (03 R86); none while TMP 0
quiesces (15 Table 15-1). The package now holds the verdict and the scales: VERDICT ends, and after a commit UPDATE begins (01
Table 1-4, R24; log entry 95). -/
def scalesReady (c : Nat) (s : State) : State :=
  match s.tmp.bound.get (fun _ => none) c with
  | none => s
  | some b =>
    if (s.reg 0x500010).getLsbD 1 then s
    else
      let s1 := (((s.runBoundary c b).applyUpd c).applyGrd c).phEnd c b.step phVerdict
      (if b.verdict = 0 then s1.phStart c b.step phUpdate else s1).touch c
/-- SCALES_READY (03 R86). -/
def execScalesReady (c : Ctx) (s : State) : Host.Outcome State Fault Refusal := done (scalesReady c.toNat s)

end Sys2Proof.Machine
end

