-- ==== Sys2Proof/Machine/Collect.lean ====
section
/-! DEFINITION. The in-package collector: leaf tiles (06 R138, R139, R141), groups (06 R140, R142, R143), and
the pattern source (14 R399 to R401). -/
namespace Sys2Proof.Machine
open Sys2Proof

/-! ### Leaf tiles -/

/-- A tile as received: the header's fields (06 Table 6-2) and the body. -/
structure TileIn where
  slot : Nat
  elem : Nat
  step : Nat
  ctx : Nat
  body : Bytes
  deriving DecidableEq, Repr

/-- Take a tile apart (06 R138). -/
def tileOf (bs : Bytes) : TileIn :=
  let h := ofLe (bs.take 32)
  ⟨nfld h 0 16, nfld h 16 40, nfld h 64 48, nfld h 112 12, bs.drop 32⟩

/-- Why a tile is discarded, in the order of 06 R139; none when no case applies. -/
def State.tileBad (s : State) (leaf : Nat) (t : TileIn) : Option Nat :=
  if !s.cRunnable t.ctx then some 0
  else if s.cPattern t.ctx then some 6
  else if !s.used t.slot || s.slotCtx t.slot != t.ctx then some 1
  else if !(s.leafMask t.slot).testBit leaf then some 2
  else if t.elem % 256 != 0 || s.lenPad t.slot ≤ t.elem then some 3
  else if t.step != s.cStep t.ctx && t.step != s.cStep t.ctx + 1 then some 4
  else none

/-- Count and record a discard (06 R139, 16 Table 16-4). -/
def State.discardTile (s : State) (leaf slot reason bit : Nat) : State :=
  ((s.bump 0x900050 1).setRegN 0x900054 (leaf + slot * 2 ^ 6 + reason * 2 ^ 28 + 2 ^ 31)).err 0x900000 bit

/-- The 256 elements of a tile as patterns of the collector's width (06 R140): binary32, or binary64 for
an FP64 source. -/
def tileVals (src : Nat) (body : Bytes) : List Nat :=
  let w := fmtBytes src
  let out := if src = 3 then f64 else f32
  (List.range 256).map (fun i => cvt (fmtOf src) out (ofLe ((body.drop (w * i)).take w)))

/-- LEAF_TILE: discarded, a duplicate, or held (06 R139, R141). A leaf whose crossing is not OPEN, that has
no free tile buffer, or while MSH 0 quiesces, withholds its ready signal: nothing is taken. -/
def leafTile (leaf : Nat) (bs : Bytes) (s : State) : State :=
  let t := tileOf bs
  if s.xing 1 leaf != .opened || (s.reg 0x900010).getLsbD 1
      || 32 ≤ (s.msh.tiles.filter (fun x => x.leaf == leaf)).length then s
  else
    match s.tileBad leaf t with
    | some r => s.discardTile leaf t.slot r 8
    | none =>
      if s.msh.tiles.any (fun x => x.leaf == leaf && x.slot == t.slot && x.elem == t.elem && x.step == t.step)
      then s.discardTile leaf t.slot 5 9
      else
        let x : Tile :=
          ⟨leaf, t.ctx, t.slot, t.elem, t.step, tileVals (s.srcFmt t.slot) t.body, s.time.ktime⟩
        ({ s with msh := { s.msh with tiles := s.msh.tiles ++ [x] } }).phStart t.ctx t.step phQuant
/-- LEAF_TILE (06 R139). -/
def execLeafTile (leaf : Leaf) (tile : Bytes) (s : State) : Host.Outcome State Fault Refusal :=
  done (leafTile leaf.toNat tile s)

/-! ### Credit and room, 06 R160 -/

/-- Credit to send a block to a node is held (09 R246). -/
def State.mayData (s : State) (c b dst n : Nat) : Bool :=
  s.qcn.credits.any (fun k => k.src == dst && k.ctx == c && k.step == s.cStep c && k.bslot == b && k.first ≤ n
    && n < k.first + k.nblk && n < k.d + k.win)
/-- Bytes of the OUT region in use (06 R160, 09 R241): a message that a context reset cancelled has released its bytes with
the context's staging (06 R167). -/
def State.outUsed (s : State) (c : Nat) : Nat :=
  ((s.qcn.msgs.filter (fun m => m.key.ctx == c && (m.key.kind == 0 || m.key.kind == 5) && !m.gone)).map
    (fun m => m.payload.length)).sum
/-- The pieces of a raw block: 2,048 binary32 elements or 4,096 bfloat16 elements each (09 R264). -/
def kx1Cut (g : Grist) : List (Nat × Nat × Bytes) :=
  let w := if g.format = 6 then 2 else 4
  let n := if g.format = 6 then 4096 else 2048
  (indexed 0 (chunks n g.codes)).map (fun p => (n * p.1, p.2.length, (p.2.map (leBytes w)).flatten))
/-- Bytes of OUT that a raw block takes as KX1 messages. -/
def kx1Size (g : Grist) : Nat := ((kx1Cut g).map (fun p => 32 + p.2.2.length)).sum
/-- Bytes of OUT that a block takes: its KX1 messages, or its plain or sealed form (04 Tables 4-5, 4-7). -/
def State.outSize (s : State) (c : Nat) (g : Grist) : Nat :=
  if s.cKx1 c then kx1Size g else (gristBytes g).length + (if s.cEnc c then 28 else 0)
/-- A quantised block of this package waits under R160: for credit or OUT room on its way to the parent, or for a place in
the accumulators. -/
def State.ownWaits (s : State) (o : Own) : Bool :=
  match s.routeFor o.ctx o.bslot o.blk with
  | none => false
  | some r =>
    if r.final then false
    else if r.children.isEmpty && r.parent != s.node then
      !s.mayData o.ctx o.bslot r.parent o.blk || s.outBytes o.ctx < s.outUsed o.ctx + s.outSize o.ctx o.g
    else decide (s.dOf o.ctx r + s.win o.ctx r ≤ o.blk)
/-- While a block of a slot waits, the codec holds that slot's output: nothing of a later block of the slot and step passes,
and what waits before it fills the tile buffers (06 R160, R141). DESIGN CHOICE: how much the codec takes in before it holds is
open; the model takes in no block above the waiting one. Log entry 97. -/
def State.codecHolds (s : State) (t step blk : Nat) : Bool :=
  s.pck.own.any (fun o => o.slot == t && o.step == step && decide (o.blk < s.blockNo t blk) && s.ownWaits o)

/-! ### Groups -/

/-- One level of COLLECT (06 R140): neighbours added where both are present. -/
def collectLevel (add : Nat → Nat → Nat) : List (Option Nat) → List (Option Nat)
  | a :: b :: r =>
    (match a, b with
     | some x, some y => some (add x y)
     | some x, none => some x
     | none, y => y) :: collectLevel add r
  | r => r
/-- COLLECT over 64 leaves (06 R140). -/
def collect (add : Nat → Nat → Nat) (v : List (Option Nat)) : Nat :=
  let w := (List.range 6).foldl (fun v _ => collectLevel add v) v
  (w.headD none).getD 0

/-- The tiles of a group. -/
def State.groupTiles (s : State) (slot elem step : Nat) : List Tile :=
  s.msh.tiles.filter (fun x => x.slot == slot && x.elem == elem && x.step == step)
/-- A group is complete when every leaf of LEAF_MASK has delivered (06 R139). -/
def State.groupDone (s : State) (slot elem step : Nat) : Bool :=
  let ts := s.groupTiles slot elem step
  (List.range 64).all (fun l => !(s.leafMask slot).testBit l || ts.any (fun x => x.leaf == l))

/-- The codec may work on a step of a context: the step is open and Temper holds its scales (03 R87). -/
def State.quantOk (s : State) (c step : Nat) : Bool :=
  s.cState c != stFree && s.cState c != stFaulted && (s.hx c).opened != 0 && s.cStep c == step
    && s.scalesFor c == step

/-- GROUP_DELIVERY: a complete group of the open step passes the adder tree; its tile buffers are freed
(06 R140 to R142). It stays in its buffers while the codec holds the slot (06 R160) and in a context that PATTERN has been
set for since its tiles arrived (14 R399). -/
def groupDelivery (slot elem : Nat) (s : State) : State :=
  let c := s.slotCtx slot
  let step := s.cStep c
  if !s.quantOk c step || !s.groupDone slot elem step || s.leafMask slot == 0 || s.cPattern c
      || s.codecHolds slot step (elem / 4096) then s
  else
    let ts := s.groupTiles slot elem step
    let add := fadd (if s.srcFmt slot = 3 then f64 else f32)
    let at_ (i : Nat) : Nat :=
      collect add ((List.range 64).map (fun l =>
        (ts.find? (fun x => x.leaf == l)).map (fun x => x.vals.getD i 0)))
    let f : Front := ⟨c, slot, step, elem, false, (List.range 256).map at_⟩
    ({ s with
        msh := { s.msh with
          tiles := s.msh.tiles.filter (fun x => !(x.slot == slot && x.elem == elem && x.step == step)),
          stalled := s.msh.stalled.filter (fun k => k != (slot, elem, step)) },
        pck := { s.pck with front := s.pck.front ++ [f] } }).countEv 0x900000 0x10 1
/-- GROUP_DELIVERY (06 R142). -/
def execGroupDelivery (slot : W16) (elem : BitVec 40) (s : State) : Host.Outcome State Fault Refusal :=
  done (groupDelivery slot.toNat elem.toNat s)

/-- Groups that have stayed incomplete longer than MSH_STALL_LIMIT and have not been reported. -/
def State.stalls (s : State) : List (Nat × Nat × Nat) :=
  List.eraseDups ((s.msh.tiles.filter (fun x =>
    s.regN 0x90004C < s.time.ktime - x.at_ && !s.groupDone x.slot x.elem x.step
      && !s.msh.stalled.contains (x.slot, x.elem, x.step))).map (fun x => (x.slot, x.elem, x.step)))
/-- LEAF_STALL: every group over the limit sets LEAF_STALL; nothing is discarded (06 R143). -/
def leafStall (s : State) : State :=
  s.stalls.foldl (fun s k =>
    (({ s with msh := { s.msh with stalled := s.msh.stalled ++ [k] } }).setRegN 0x900064
      (k.1 + 2 ^ 31)).err 0x900000 10) s
/-- LEAF_STALL (06 R143). -/
def execLeafStall (s : State) : Host.Outcome State Fault Refusal := done (leafStall s)

/-! ### Pattern source -/

/-- The slot after `t` among a context's slots. -/
def nextSlot : List Nat → Nat → Option Nat
  | a :: b :: r, t => if a = t then some b else nextSlot (b :: r) t
  | _, _ => none
/-- The pattern source of a context starts when its STEP descriptor ends (14 R401). -/
def State.patStart (s : State) (c : Nat) : State :=
  if !s.cPattern c then s
  else
    let p := match s.slotsOf c with | t :: _ => some (⟨s.cStep c, t, 0⟩ : Pat) | [] => none
    { s with msh := { s.msh with pat := s.msh.pat.set (fun _ => none) c p } }
/-- The generator's inputs for a slot in a step (04 R97). -/
def State.seed (s : State) (t step : Nat) : Seed :=
  let c := s.slotCtx t
  ⟨s.cSeed c, step, s.node, s.tensor t⟩
/-- PATTERN_SOURCE: the next 256 elements, slots and elements ascending, under the leaf ports' back-pressure (14 R400,
R401). -/
def patternSource (c : Nat) (s : State) : State :=
  match s.msh.pat.get (fun _ => none) c with
  | none => s
  | some p =>
    if !s.quantOk c p.step || (s.reg 0x900010).getLsbD 1 || s.codecHolds p.slot p.step (p.elem / 4096) then s
    else
      let w3 := s.pckW p.slot 3
      let f := if s.fmt p.slot = 4 then f64 else f32
      let v (i : Nat) : Nat :=
        patValue f (s.seed p.slot p.step) (fld w3 8 2) (sgn 8 (fld w3 0 8)) (s.len p.slot) (p.elem + i)
      let g : Front := ⟨c, p.slot, p.step, p.elem, true, (List.range 256).map v⟩
      let nx : Option Pat :=
        if p.elem + 256 < s.lenPad p.slot then some { p with elem := p.elem + 256 }
        else (nextSlot (s.slotsOf c) p.slot).map (fun t => ⟨p.step, t, 0⟩)
      ({ s with
          msh := { s.msh with pat := s.msh.pat.set (fun _ => none) c nx },
          pck := { s.pck with front := s.pck.front ++ [g] } }).phStart c p.step phQuant
/-- PATTERN_SOURCE (14 R401). -/
def execPatternSource (c : Ctx) (s : State) : Host.Outcome State Fault Refusal := done (patternSource c.toNat s)

end Sys2Proof.Machine
end

