-- ==== Sys2Proof/Machine/Gcm.lean ====
section
/-! DEFINITION. AES-256-GCM, the sealing of 04 R114. The manual names the cipher and not its
definition: the definition is that of FIPS 197 and SP 800-38D (PRESUMED, log entry 7). -/
namespace Sys2Proof.Machine
open Sys2Proof

/-- Multiplication by x in GF(2^8). -/
def gfX (a : Nat) : Nat := if a < 128 then 2 * a else (2 * a) ^^^ 0x11B

/-- Product in GF(2^8), bit by bit of `b` from the lowest. -/
def gfMulF : Nat → Nat → Nat → Nat
  | 0, _, _ => 0
  | k + 1, a, b => (if b % 2 = 1 then a else 0) ^^^ gfMulF k (gfX a) (b / 2)

/-- Product in GF(2^8). -/
def gfMul (a b : Nat) : Nat := gfMulF 8 a b

/-- The inverse in GF(2^8) as the 254th power; 0 stays 0. -/
def gfInv (a : Nat) : Nat :=
  let a2 := gfMul a a
  let a3 := gfMul a2 a
  let a6 := gfMul a3 a3
  let a12 := gfMul a6 a6
  let a15 := gfMul a12 a3
  let a30 := gfMul a15 a15
  let a60 := gfMul a30 a30
  let a120 := gfMul a60 a60
  let a126 := gfMul a120 a6
  let a127 := gfMul a126 a
  gfMul a127 a127

/-- Rotate a byte left. -/
def rotl8 (x n : Nat) : Nat := ((x <<< n) ||| (x >>> (8 - n))) % 256

/-- The AES substitution of one byte. -/
def aesSub (x : Nat) : Nat :=
  let b := gfInv x
  b ^^^ rotl8 b 1 ^^^ rotl8 b 2 ^^^ rotl8 b 3 ^^^ rotl8 b 4 ^^^ 0x63

/-- The substitution as a table, computed once. -/
def aesBox : Array Nat := ((List.range 256).map aesSub).toArray

/-- Table look-up of the substitution. -/
def sbox (x : Nat) : Nat := aesBox.getD x 0

/-- XOR of two byte lists. -/
def xorL (a b : List Nat) : List Nat := List.zipWith (· ^^^ ·) a b

/-- The next key word from the last eight words (newest first), for word index `i`. -/
def nextKeyWord (i rc : Nat) (w : List (List Nat)) : List Nat :=
  let t := w.getD 0 []
  let t' :=
    if i % 8 = 0 then
      xorL ([t.getD 1 0, t.getD 2 0, t.getD 3 0, t.getD 0 0].map sbox) [rc, 0, 0, 0]
    else if i % 8 = 4 then t.map sbox else t
  xorL (w.getD 7 []) t'

/-- Key expansion: `n` more words, newest first. -/
def expandF : Nat → Nat → Nat → List (List Nat) → List (List Nat)
  | 0, _, _, w => w
  | n + 1, i, rc, w => expandF n (i + 1) (if i % 8 = 0 then gfX rc else rc) (nextKeyWord i rc w :: w)

/-- The 15 round keys of a 32-byte key, 16 bytes each. -/
def aesKeys (key : List Nat) : List (List Nat) :=
  let w0 := (chunks 4 key).reverse
  chunks 16 (expandF 52 8 1 w0).reverse.flatten

/-- ShiftRows on 16 bytes, column by column. -/
def shiftRows (s : List Nat) : List Nat :=
  (List.range 16).map (fun i => s.getD ((i + 4 * (i % 4)) % 16) 0)

/-- MixColumns of one column. -/
def mixCol : List Nat → List Nat
  | [a, b, c, d] =>
    [gfX a ^^^ gfX b ^^^ b ^^^ c ^^^ d, a ^^^ gfX b ^^^ gfX c ^^^ c ^^^ d,
     a ^^^ b ^^^ gfX c ^^^ gfX d ^^^ d, gfX a ^^^ a ^^^ b ^^^ c ^^^ gfX d]
  | s => s

/-- The rounds after the first key addition. -/
def aesRounds : List (List Nat) → List Nat → List Nat
  | [], s => s
  | [k], s => xorL (shiftRows (s.map sbox)) k
  | k :: ks, s => aesRounds ks (xorL ((chunks 4 (shiftRows (s.map sbox))).map mixCol).flatten k)

/-- One AES-256 block. -/
def aesBlock (ks : List (List Nat)) (blk : List Nat) : List Nat :=
  match ks with
  | [] => blk
  | k :: rest => aesRounds rest (xorL blk k)

/-- A 128-bit number of 16 bytes, first byte most significant. -/
def beNat (bs : List Nat) : Nat := bs.foldl (fun a b => a * 256 + b) 0

/-- The `n` bytes of a number, most significant first. -/
def beBytes (n x : Nat) : List Nat := (List.range n).map (fun i => (x >>> (8 * (n - 1 - i))) % 256)

/-- Product in GF(2^128) of GCM; bit 127 is the coefficient of 1. -/
def ghMulF : Nat → Nat → Nat → Nat → Nat
  | 0, _, _, z => z
  | k + 1, x, v, z =>
    ghMulF k x (if v % 2 = 1 then (v >>> 1) ^^^ (0xE1 <<< 120) else v >>> 1)
      (if x.testBit k then z ^^^ v else z)

/-- GHASH over 16-byte pieces. -/
def ghash (h : Nat) (bs : List (List Nat)) : Nat :=
  bs.foldl (fun y b => ghMulF 128 (y ^^^ beNat (b ++ List.replicate (16 - b.length) 0)) h 0) 0

/-- Counter-mode stream over the pieces of a text, from counter value `c`. -/
def ctrF (ks : List (List Nat)) (iv : List Nat) : Nat → List (List Nat) → List Nat
  | _, [] => []
  | c, b :: bs => xorL b (aesBlock ks (iv ++ beBytes 4 c)) ++ ctrF ks iv (c + 1) bs

/-- The tag of a ciphertext. -/
def gcmTag (ks : List (List Nat)) (iv aad ct : List Nat) : List Nat :=
  let h := beNat (aesBlock ks (List.replicate 16 0))
  let lens := beBytes 8 (8 * aad.length) ++ beBytes 8 (8 * ct.length)
  let s := ghash h (chunks 16 aad ++ chunks 16 ct ++ [lens])
  xorL (beBytes 16 s) (aesBlock ks (iv ++ beBytes 4 1))

/-- Bytes as numbers. -/
def toNats (bs : Bytes) : List Nat := bs.map BitVec.toNat
/-- Numbers as bytes. -/
def toBytes (ns : List Nat) : Bytes := ns.map (BitVec.ofNat 8)

/-- The key bytes of a sealed slot: key word 0 holds key bits [31:0] (02 R44); the AES key's first
byte is bits [7:0] (DESIGN CHOICE, log entry 7). -/
def keyBytes (key : BitVec 256) : List Nat := toNats (leBytes 32 key.toNat)

/-- Seal: the ciphertext followed by the 16-byte tag (04 Table 4-7). `iv` holds the 12 nonce bytes as
they lie in the block, least significant first (DESIGN CHOICE, log entry 7). -/
def gcmSeal (key : BitVec 256) (iv aad pt : Bytes) : Bytes :=
  let ks := aesKeys (keyBytes key)
  let ct := ctrF ks (toNats iv) 2 (chunks 16 (toNats pt))
  toBytes (ct ++ gcmTag ks (toNats iv) (toNats aad) ct)

/-- Open: the plaintext, or none when the tag fails. -/
def gcmOpen (key : BitVec 256) (iv aad sealedText : Bytes) : Option Bytes :=
  if sealedText.length < 16 then none
  else
    let ks := aesKeys (keyBytes key)
    let n := sealedText.length - 16
    let ct := toNats (sealedText.take n)
    if toNats (sealedText.drop n) = gcmTag ks (toNats iv) (toNats aad) ct
    then some (toBytes (ctrF ks (toNats iv) 2 (chunks 16 ct))) else none

end Sys2Proof.Machine
end

