-- ==== Sys2Proof/Machine/Pck.lean ====
section
/-! DEFINITION. The codec and the Packer: QUANTISE_BLOCK (04 R92, R106; 05 R127), statistics (03 R88, R89; 04
R108; 05 R125; 06 R165), sealing (04 R114, R115), the checks on a received block (04 R117, R444; 03 R63), and
the Carry fold (12 R334). -/
namespace Sys2Proof.Machine
open Sys2Proof

/-- A 48-bit counter in a register pair advances. -/
def State.bumpWide (s : State) (a n : Nat) : State :=
  { s with ctl := { s.ctl with
      wide := s.ctl.wide.set (fun _ => 0) a ((s.ctl.wide.get (fun _ => 0) a + n) % 2 ^ 48) } }

/-! ### The front of a block -/

/-- The values of a block at the codec front when every group of it has been delivered, and whether they
come from the pattern source. -/
def State.frontOf (s : State) (t step blk : Nat) : Option (List Nat × Bool) :=
  let base := 4096 * blk
  let n := cdiv (min 4096 (s.len t - base)) 256
  let gs := (List.range n).map (fun i =>
    s.pck.front.find? (fun f => f.slot == t && f.step == step && f.elem == base + 256 * i))
  match allSome gs with
  | none => none
  | some fs => if n = 0 then none else some ((fs.map (·.vals)).flatten, fs.any (·.pat))

/-- Take a block's groups from the front. -/
def State.takeFront (s : State) (t step blk : Nat) : State :=
  { s with pck := { s.pck with
      front := s.pck.front.filter (fun f => !(f.slot == t && f.step == step && f.elem / 4096 == blk)) } }

/-! ### Statistics -/

/-- Add a block's part to a slot's statistics. -/
def SlotStat.plus (x : SlotStat) (blk n sat esc und maxL flags spans : Nat) (first : Option Nat)
    (b : BlkStat) : SlotStat :=
  { x with
    sat := satAdd 32 x.sat sat, esc := satAdd 32 x.esc esc, und := satAdd 32 x.und und,
    maxL := max x.maxL maxL, elems := x.elems + n, flags := x.flags ||| flags,
    nfSpans := satAdd 32 x.nfSpans spans,
    nfFirst := match x.nfFirst, first with
      | some a, some b => some (min a b) | some a, none => some a | none, f => f,
    blks := x.blks.put blk b }

/-- The exact square of a binary32 value, in binary64 (03 R89). -/
def sq32 (e : Nat) : Nat := let w := cvt f32 f64 e; fmul f64 w w
/-- |y| in binary64. -/
def abs64 (y : Nat) : Nat := cvt f32 f64 (fabsBits f32 y)
/-- The lowest element index whose own flags poison (05 R125). -/
def firstBad (base : Nat) (flags : List Nat) : Option Nat :=
  (flags.findIdx? (fun f => f &&& poisonMask != 0)).map (base + ·)
/-- Poisoned spans of a block: groups when rotated, else elements (05 R127). -/
def spansOf (rot : Bool) (bad : List Bool) : Nat :=
  if rot then ((chunks 256 bad).filter (fun g => g.any id)).length else (bad.filter id).length

/-! ### Conversion of a block -/

/-- x of 04 R96 for each element of a block, with the SV_FLAGS bits of its conversion; pad elements are +0
(04 R100), and pattern values are x already (14 R400). -/
def State.convert (s : State) (t n base : Nat) (vals : List Nat) (pat : Bool) : List (Nat × Nat) :=
  let c := if s.srcFmt t = 3 then f64 else f32
  let w := s.fmt t == 4
  (List.range n).map (fun i =>
    let v := vals.getD i 0
    if s.len t ≤ base + i then (0, 0)
    else if pat then (v, 0)
    else if w then convert64 (if s.srcFmt t = 3 then f64 else f32) (s.lsExp t) v
    else convert32 c (s.lsExp t) v)

/-- The residuals of a block as read from the buffer (04 R99). -/
def State.residuals (s : State) (t base n : Nat) : List Nat :=
  (chunks 2 (s.bytes (s.resBase t + 2 * base) (2 * n))).map ofLe
/-- Write residuals: bfloat16 values from element `base`. -/
def State.putResiduals (s : State) (t base : Nat) (rs : List Nat) : State :=
  s.ctxWrite (s.slotCtx t) (s.resBase t + 2 * base) ((rs.map (leBytes 2)).flatten)
/-- Zero the whole residual buffer of a slot (04 R118, 12 R345). -/
def State.zeroResiduals (s : State) (t : Nat) : State :=
  if isCoded (s.fmt t) && bit (s.pckW t 0) 2 then
    s.ctxWrite (s.slotCtx t) (s.resBase t) (zeros (2 * s.lenPad t))
  else s

/-- The header and tail fields that a block's place gives it (04 R110, R113). -/
def State.gristOf (s : State) (t blk step : Nat) : Grist :=
  let c := s.slotCtx t
  let b := s.bslotOf t
  { digest := s.digest c b step, tensor := s.tensor t, block := blk, format := 5, nelem := 0,
    sparse := false, rot := false, pos := [], codes := [], esc := [], contrib := 1, nonfin := false,
    winOvf := false, last := s.blockNo t blk + 1 == s.billetBlocks c b,
    close := s.closing c == some b }

/-- A quantised block joins those that wait for the Packer. -/
def State.pushOwn (s : State) (t blk step : Nat) (g : Grist) : State :=
  let c := s.slotCtx t
  let o : Own := ⟨c, t, step, s.bslotOf t, s.blockNo t blk, g⟩
  ({ s with pck := { s.pck with own := s.pck.own ++ [o] } }).phEnd c step phQuant

/-- A coded block (04 R106): codes, residuals and statistics. -/
def State.codeBlock (s : State) (t blk step : Nat) (e : Eff) (vals : List Nat) (pat : Bool) : State :=
  let base := 4096 * blk
  let n := s.nelem t e.rot blk
  let q := s.qOf t
  let xs := s.convert t n base vals pat
  let a : QIn :=
    { fmt := e.fmt, q := q, escPer := s.escPer t, escCap := s.escCap t, rot := e.rot, topk := e.topk,
      resid := e.resid, k := e.kM1 + 1, base := base, underU := s.underU t, seed := s.seed t step,
      x := xs.map (·.1), res := if e.resid then s.residuals t base n else [], src := xs.map (·.2) }
  let o := quantise a
  let ok (i : Nat) : Bool := !o.bad.getD i false
  let esc := ((indexed 0 o.pass.split).filter (fun p => p.2.2.1 != 0)).map (fun p =>
    (p.1, p.2.2.1, decide (s.escCap t + qmaxOf e.fmt
      < ((o.pass.ns.find? (fun m => m.1 == p.1)).map (fun m => m.2.natAbs)).getD 0)))
  let code (i : Nat) : Nat := unsgn (fmtWidth e.fmt) (o.pass.split.getD i (0, 0, 0)).1
  let kept := o.pass.kept.filter ok
  let y (i : Nat) : Nat := o.pass.y.getD i 0
  let tiny (i : Nat) : Bool :=
    !isZero f32 (y i) && vlt (decF f32 (fabsBits f32 (scaleDown (y i) q))) (.fin false 1 (-(s.underU t : Int)))
  let live := (List.range n).filter ok
  let b : BlkStat :=
    { max := (o.pass.y.map keyOf).foldl max 0, e2 := live.map (fun i => sq32 (o.pass.e.getD i 0)), y2 := live.map (fun i => sq32 (y i)),
      kept := kept.map (fun i => abs64 (y i)),
      left := if e.topk then (live.filter (fun i => !kept.contains i)).map (fun i => abs64 (y i)) else [],
      xs := (live.filter (fun i => decide (base + i < s.len t))).map
        (fun i => cvt f32 f64 ((xs.getD i (0, 0)).1)) }
  let sat := (o.pass.ns.filter (fun p => (o.pass.split.getD p.1 (0, 0, 0)).2.2 != p.2)).length
  let flags := o.flags.foldl (· ||| ·) 0 ||| (if o.resSat then 0x40 else 0)
  let st := (s.stat t).plus blk n sat esc.length ((kept.filter tiny).length)
    b.max flags (spansOf e.rot o.bad) (firstBad base o.flags) b
  let g : Grist := { s.gristOf t blk step with
    format := e.fmt, nelem := n, sparse := e.topk, rot := e.rot,
    pos := if e.topk then o.pass.kept else [],
    codes := (if e.topk then o.pass.kept else List.range n).map code, esc := esc,
    nonfin := o.bad.any id }
  let pads := if !e.rot && s.len t ≤ base + n then List.replicate (s.lenPad t - s.len t) 0 else []
  let s1 := s.setStat t st
  let s2 := if e.resid then s1.putResiduals t base (o.res ++ pads) else s1
  let s3 := if e.rot then s2.bumpWide 0x600040 (cdiv n 256) else s2
  let s4 := if e.rot && e.resid then s3.bumpWide 0x600048 (cdiv n 256) else s3
  (if e.topk then s4.countEv 0x700000 0x10 1 else s4).pushOwn t blk step g

/-- A W192 block (03 R71, R72; 05 R127). -/
def State.windowBlock (s : State) (t blk step : Nat) (vals : List Nat) (pat : Bool) : State :=
  let base := 4096 * blk
  let n := s.nelem t false blk
  let top := s.topOf t
  let xs := s.convert t n base vals pat
  let bad := xs.map (fun x => x.2 &&& poisonMask != 0)
  let ws := xs.map (fun x => if x.2 &&& poisonMask != 0 then some 0 else windowIn top (decF f64 x.1))
  let excess := (ws.filter Option.isNone).length
  let und := ((List.zip xs ws).filter (fun p =>
    p.2 == some 0 && p.1.2 &&& poisonMask == 0 && !isZero f64 p.1.1)).length
  let fin := (xs.filter (fun x => x.2 &&& poisonMask == 0)).map (·.1)
  let b : BlkStat := ⟨(fin.map (fun v => v % 2 ^ 63)).foldl max 0, [], [], [], [], fin⟩
  let x := s.stat t
  let st := { x.plus blk n 0 0 0 b.max (xs.foldl (fun a x => a ||| x.2) 0) (spansOf false bad) (firstBad base (xs.map (·.2))) b with
    wovf := satAdd 32 x.wovf excess, wund := satAdd 32 x.wund und }
  let g : Grist := { s.gristOf t blk step with
    format := 4, nelem := n, codes := ws.map (fun w => unsgn 192 (w.getD 0)), nonfin := bad.any id,
    winOvf := excess != 0 }
  (s.setStat t st).pushOwn t blk step g

/-- bfloat16 of a binary32 value, canonical, with its conversion flags (04 R96, 05 R125). -/
def toBf16 (x : Nat) : Nat × Nat :=
  let y := canon bf16 (cvt f32 bf16 x)
  let inexact := isFin bf16 y && widenB y != x
  (y, (if isFin f32 x && !isFin bf16 y then 4 else 0)
    ||| (if inexact && nfld y 7 8 == 0 then 8 else 0))

/-- A raw block, or a coded slot's block in a Sparge step, which carries u (04 R96, R118; 05 R127). A raw slot poisons no
span, so every x enters its STAT_MV terms (06 R165). DESIGN CHOICE: where the manual defines no poisoned span, NF_FIRST still
names the lowest element with a non-finite flag; in a Sparge step, which rotates nothing, each such element is a span of its
own, whatever the record's ROT (log entry 103); UND_CNT, MSE_NUM and MSE_DEN of such a block, which carries no code, get
nothing (log entry 102). -/
def State.rawBlock (s : State) (t blk step : Nat) (e : Eff) (vals : List Nat) (pat : Bool) : State :=
  let base := 4096 * blk
  let n := s.nelem t false blk
  let sparge := s.spargeSlot t
  let xs := s.convert t n base vals pat
  let res := if sparge && e.resid then s.residuals t base n else []
  let q : QIn :=
    { fmt := 5, q := 0, escPer := 0, escCap := 0, rot := false, topk := false, resid := sparge && e.resid,
      k := 0, base := base, underU := 0, seed := s.seed t step, x := xs.map (·.1), res := res,
      src := xs.map (·.2) }
  let u := (qU q).map (canon f32)
  let fl0 := qFlags0 q
  let out := if e.fmt = 6 then u.map toBf16 else u.map (fun v => (v, 0))
  let flags := List.zipWith (fun f p => f ||| p.2) fl0 out
  let fin := u.filter (isFin f32)
  let own := (indexed base (List.zip (xs.map (·.1)) flags)).filter (fun p =>
    (!sparge || p.2.2 &&& poisonMask == 0) && decide (p.1 < s.len t))
  let b : BlkStat := ⟨(fin.map keyOf).foldl max 0, [], [], [], [], own.map (fun p => cvt f32 f64 p.2.1)⟩
  let bad := flags.map (fun f => f &&& poisonMask != 0)
  let st := (s.stat t).plus blk n 0 0 0 b.max (flags.foldl (· ||| ·) 0)
    (if sparge then spansOf false bad else 0) (firstBad base flags) b
  let g : Grist := { s.gristOf t blk step with
    format := e.fmt, nelem := n, codes := out.map (·.1), nonfin := bad.any id }
  let s1 := (s.setStat t st).pushOwn t blk step g
  if sparge && blk = 0 then s1.countEv 0x800000 0x12 1 else s1

/-- The residuals of a block lie in a Malt footprint, so that they are not read (11 R292). -/
def State.resBlocked (s : State) (t blk : Nat) (e : Eff) : Bool :=
  e.resid && s.inFootprint (s.resBase t + 2 * (4096 * blk)) (2 * s.nelem t e.rot blk)
/-- The codec takes a block and completes it: codes, window integers or raw values; residuals; statistics (04 R106). Residuals
out of reach fault the context (11 R292). -/
def State.codeFront (s : State) (t blk step : Nat) (e : Eff) (vals : List Nat) (pat : Bool) : State :=
  let s1 := s.takeFront t step blk
  if s.resBlocked t blk e then s.faultCtx (s.slotCtx t)
  else if isCoded e.fmt then s1.codeBlock t blk step e vals pat
  else if e.fmt = 4 then s1.windowBlock t blk step vals pat
  else s1.rawBlock t blk step e vals pat

/-- Under CARRY, a message of an earlier step that carries a block and has not ended (12 R334). -/
def carryWaits (t blk step : Nat) (m : Msg) : Bool :=
  match m.own with
  | some (u, _, g) => u == t && g.block == blk && decide (m.key.step < step)
  | none => false

/-- QUANTISE_BLOCK: the codec takes a Grist block of the open step whose groups are all at its front
(04 R92, R106). Nothing while PCK 0, or for a rotated or selected slot SWG 0 or LTR 0, quiesces, or while it holds the slot
behind a waiting block (06 R160). -/
def quantiseBlock (t blk : Nat) (s : State) : State :=
  let c := s.slotCtx t
  let step := s.cStep c
  let e := s.eff t
  let hold := (s.reg 0x800010).getLsbD 1 || (e.rot && (s.reg 0x600010).getLsbD 1)
    || (e.topk && (s.reg 0x700010).getLsbD 1) || s.codecHolds t step blk
  if hold || !s.used t || !s.quantOk c step then s
  else
    match s.frontOf t step blk with
    | none => s
    | some (vals, pat) =>
      if s.policy c == 1 && e.resid && s.qcn.msgs.any (carryWaits t blk step) then
        if s.qcn.msgs.any (fun m => carryWaits t blk step m && !m.waited) then
          ({ s with qcn := { s.qcn with
              msgs := s.qcn.msgs.map (fun m => if carryWaits t blk step m then { m with waited := true } else m)
              } }).yieldEv c 5 4
        else s
      else s.codeFront t blk step e vals pat
/-- QUANTISE_BLOCK (04 R106). -/
def execQuantiseBlock (slot : W16) (blk : BitVec 28) (s : State) : Host.Outcome State Fault Refusal :=
  done (quantiseBlock slot.toNat blk.toNat s)

/-! ### Sealing and opening -/

/-- The incarnation that Guard holds for this package (16 GRD_INCARN). -/
def State.ownInc (s : State) : Nat := s.regF 0xE00058 0 6
/-- The 96-bit nonce (04 R115), least significant byte first. -/
def State.nonce (s : State) (dom : Nat) : Bytes :=
  leBytes 12 (s.ctl.seq.get (fun _ => 0) dom + s.ownInc * 2 ^ 72 + s.node * 2 ^ 78)
/-- Seal or leave plain a block of a context (04 R114); each seal advances SEQ. -/
def State.sealBlock (s : State) (c : Nat) (g : Grist) : Bytes × State :=
  let p := gristBytes g
  if !s.cEnc c then (p, s)
  else
    match s.ctl.keys.get (fun _ => none) (s.cPdom c) with
    | none => (p, s)
    | some key =>
      let d := s.cPdom c
      let iv := s.nonce d
      let h := p.take 16
      let ct := gcmSeal key iv h (p.drop 16)
      let s1 := { s with ctl := { s.ctl with
        seq := s.ctl.seq.set (fun _ => 0) d ((s.ctl.seq.get (fun _ => 0) d + 1) % 2 ^ 72) } }
      (iv ++ h ++ ct, s1.countEv 0x800000 0x10 1)

/-- Open a received block (04 Table 4-8 check 1). DEDUCED: a block of a context without encryption is in sealed form, and so
fails this check and not a later one, when its length is that of a sealed block (Table 4-7), 28 bytes more than a multiple of
8; a plain block is a multiple of 8 bytes long (Table 4-5). Log entry 99. -/
def State.openBlock (s : State) (c : Nat) (bs : Bytes) : Option Bytes :=
  if !s.cEnc c then (if bs.length % 8 = 4 then none else some bs)
  else
    match s.ctl.keys.get (fun _ => none) (s.cPdom c) with
    | none => none
    | some key =>
      if bs.length < 44 then none
      else
        let h := (bs.drop 12).take 16
        (gcmOpen key (bs.take 12) h (bs.drop 28)).map (fun pt => h ++ pt)

/-- A received block failed check 1, 2 or 3 (04 R117, 16 R424). -/
def State.integrity (s : State) (c check src : Nat) : State :=
  let s1 := s.bump 0x80004C 1
  let s2 := if (s.reg 0x800050).getLsbD 31 then s1
    else (s1.setRegN 0x800050 (c + check * 2 ^ 12 + 2 ^ 31)).setRegN 0x800054 src
  s2.err 0x800000 10

/-- Check 3 against the receiver's plan (04 R112, R444): the block that stands at Billet block number `n`; a block in a K
format has left its origin and is sparse exactly under TOPK. -/
def State.planOk (s : State) (c b n : Nat) (g : Grist) : Bool :=
  match s.blockAt c b n with
  | none => false
  | some (t, k) =>
    let e := s.eff t
    g.tensor == s.tensor t && g.block == k && g.nelem == s.nelem t e.rot k && g.rot == e.rot
      && (if s.spargeSlot t then g.format == 5
          else if isCoded e.fmt then g.format == e.fmt || g.format == 8 || g.format == 9
          else if e.fmt = 4 then g.format == 4
          else g.format == 5 || g.format == 6)
      && (!(decide (g.format ≤ 3)) || g.sparse == e.topk)
      && (!(g.sparse && g.format ≤ 3) || decide (g.pos.length ≤ e.kM1 + 1))

/-- Checks 1 to 3 of 04 Table 4-8 on a received block: the block, or the check that failed. -/
def State.checkBlock (s : State) (c b n : Nat) (bs : Bytes) : Grist ⊕ Nat :=
  match s.openBlock c bs with
  | none => .inr 1
  | some p =>
    if !bchkOk p then .inr 2
    else
      match s.blockAt c b n with
      | none => .inr 3
      | some (t, _) =>
        match gristParse (s.escCap t) p with
        | none => .inr 3
        | some g => if s.planOk c b n g then .inl g else .inr 3

/-! ### The Carry fold -/

/-- A block of a coded slot with effective RESID is folded (12 R334, 14 code c), in a Sparge step too, where the block carries
no code and `sent` is 0 throughout. Log entry 100. -/
def State.foldable (s : State) (t : Nat) : Bool := isCoded (s.fmt t) && (s.eff t).resid
/-- The block's own contribution is deferred or missing: its maximum leaves the package's max-table entry (03 R81). -/
def State.dropMax (s : State) (t blk : Nat) : State :=
  let x := s.stat t
  match x.blks.find? (fun e => e.1 == blk) with
  | none => s
  | some (_, b) => s.setStat t { x with blks := x.blks.put blk { b with max := 0 } }
/-- A block of the step `step` is not counted by that step's manifest: while the step is open, `dropMax`. -/
def State.uncounted (s : State) (t step blk : Nat) : State :=
  if step = s.cStep (s.slotCtx t) then s.dropMax t blk else s
/-- CARRY_FOLD of 12 R334: what a block sent returns to the residuals. -/
def State.carryFold (s : State) (t step : Nat) (q : Int) (g : Grist) : State :=
  if !s.foldable t then s
  else
    let base := 4096 * g.block
    let f0 := if isCoded g.format then (gristVals g).map (fun v => scaleUp v q) else List.replicate g.nelem 0
    let sd := s.seed t step
    let f := if g.rot then byGroups (unrotate sd) base f0 else f0
    let rs := s.residuals t base g.nelem
    let out := (indexed base (List.zip rs f)).map (fun p =>
      let r := fadd f32 (widenB p.2.1) p.2.2
      if isFin f32 r then bf16Sr r (drawU16 sd p.1)
      else ((Config.openValue 1 r).toNat % 2 ^ 16, false))
    let s1 := s.putResiduals t base (out.map (·.1))
    let s2 := if g.rot then s1.bumpWide 0x600048 (cdiv g.nelem 256) else s1
    if out.any (·.2) then s2.svFlag t 0x40 else s2

end Sys2Proof.Machine
end

