-- ==== Sys2Proof/Machine/Net.lean ====
section
/-! DEFINITION. Quicon: frames and encapsulations (09 R234 to R240), messages and their egress (R241, R254 to
R256, R260), ports (R257, R258) and reassembly (R252). What the commands of a message's life share. -/
namespace Sys2Proof.Machine
open Sys2Proof

/-! ### Headers and encapsulation -/

/-- The Quicon header (09 Table 9-2). -/
structure Hdr where
  ver : Nat
  kind : Nat
  e2e : Bool
  ecn : Nat
  attempt : Nat
  src : Nat
  incarn : Nat
  dst : Nat
  ctx : Nat
  gen : Nat
  step : Nat
  billet : Nat
  blk : Nat
  len : Nat
  off : Nat
  slen : Nat
  tsend : Nat
  spec : Nat
  deriving DecidableEq, Repr

/-- The 48 header bytes. -/
def hdrBytes (h : Hdr) : Bytes :=
  leBytes 48 (h.ver + h.kind * 2 ^ 4 + b2n h.e2e * 2 ^ 8 + h.ecn * 2 ^ 10 + h.attempt * 2 ^ 12
    + h.src * 2 ^ 16 + h.incarn * 2 ^ 34 + h.dst * 2 ^ 40 + h.ctx * 2 ^ 64 + h.gen * 2 ^ 80
    + h.step * 2 ^ 96 + h.billet * 2 ^ 144 + h.blk * 2 ^ 164 + h.len * 2 ^ 184 + h.off * 2 ^ 204
    + h.slen * 2 ^ 224 + h.tsend * 2 ^ 240 + h.spec * 2 ^ 288)
/-- The header that 48 bytes hold. -/
def hdrOf (bs : Bytes) : Hdr :=
  let x := ofLe (bs.take 48)
  { ver := nfld x 0 4, kind := nfld x 4 4, e2e := x.testBit 8, ecn := nfld x 10 2, attempt := nfld x 12 4,
    src := nfld x 16 18, incarn := nfld x 34 6, dst := nfld x 40 18, ctx := nfld x 64 12,
    gen := nfld x 80 16, step := nfld x 96 48, billet := nfld x 144 20, blk := nfld x 164 20,
    len := nfld x 184 20, off := nfld x 204 20, slen := nfld x 224 14, tsend := nfld x 240 40,
    spec := nfld x 288 96 }

/-- QCN_CTRL.E2E (09 R240). -/
def State.e2e (s : State) : Bool := bit (s.reg 0xB00040) 0
/-- QCN_ENCAP selects Ethernet (09 Table 9-1). -/
def State.ether (s : State) : Bool := bit (s.reg 0xB00044) 0
/-- SEGMAX of 09 R239. -/
def State.segmax (s : State) : Nat :=
  (s.regF 0xB00060 0 14 - (if s.ether then 0 else 48) - 48 - (if s.e2e then 4 else 0)) / 64 * 64

/-- The `n` low bytes of `x`, most significant first. -/
def beBytesN (n x : Nat) : Bytes := (leBytes n x).reverse
/-- The number whose big-endian bytes are given. -/
def ofBe (bs : Bytes) : Nat := ofLe bs.reverse
/-- The Ethernet address of a node's port (09 R235). -/
def State.macAddr (s : State) (node port : Nat) : Nat :=
  s.regF 0xB0004C 0 24 * 2 ^ 24 + node * 2 ^ 6 + port * 2 ^ 2
/-- The IPv6 address of a node's port (09 R235). -/
def State.ipAddr (s : State) (node port : Nat) : Nat :=
  s.reg64 0xB00050 * 2 ^ 64 + node * 2 ^ 4 + port
/-- The 16-bit words of a byte string, summed. -/
def sum16 : Bytes → Nat
  | a :: b :: r => a.toNat * 256 + b.toNat + sum16 r
  | [a] => a.toNat * 256
  | [] => 0
/-- Fold a sum to 16 bits in ones' complement. -/
def fold16 (x : Nat) : Nat :=
  let y := x % 65536 + x / 65536
  let z := y % 65536 + y / 65536
  z % 65536 + z / 65536
/-- The UDP checksum over IPv6 (RFC 8200) of a datagram whose checksum field is zero. -/
def udpSum (src dst : Nat) (udp : Bytes) : Nat :=
  let c := 65535 - fold16 (sum16 (beBytesN 16 src ++ beBytesN 16 dst ++ beBytesN 4 udp.length
    ++ beBytesN 4 17 ++ udp))
  if c = 0 then 65535 else c
/-- A frame as handed to the MAC client (09 R234 to R236): `h` is the port hash of R256. -/
def State.encap (s : State) (port dst h ecn : Nat) (body : Bytes) : Output :=
  if s.ether then
    .frame port (s.macAddr dst port) (s.macAddr s.node port) (s.regF 0xB00048 0 16) body
  else
    let a := s.ipAddr s.node port
    let b := s.ipAddr dst port
    let len := 8 + body.length
    let u (c : Nat) : Bytes :=
      beBytesN 2 (0xC000 ||| h % 2 ^ 14) ++ beBytesN 2 (s.regF 0xB0005C 0 16) ++ beBytesN 2 len
        ++ beBytesN 2 c ++ body
    let ip := beBytesN 4 (6 * 2 ^ 28 + (s.regF 0xB00058 0 6 * 4 + ecn) * 2 ^ 20 + h % 2 ^ 20)
      ++ beBytesN 2 len ++ [17, 64] ++ beBytesN 16 a ++ beBytesN 16 b
    .frame port 0 0 0 (ip ++ u (udpSum a b (u 0)))
/-- A received frame taken out of its encapsulation, with its ECN codepoint when that lies outside the
Quicon header; none when R236 discards it. -/
def State.decap (s : State) (bs : Bytes) : Option (Bytes × Option Nat) :=
  if s.ether then some (bs, none)
  else
    let udp := bs.drop 40
    let f := ofBe (bs.take 4)
    let c := ofBe ((udp.drop 6).take 2)
    let z := udp.take 6 ++ [0, 0] ++ udp.drop 8
    if 48 ≤ bs.length && f / 2 ^ 28 == 6 && ofBe ((bs.drop 4).take 2) == udp.length
        && bs.getD 6 0 == 17 && ofBe ((udp.drop 2).take 2) == s.regF 0xB0005C 0 16
        && ofBe ((udp.drop 4).take 2) == udp.length
        && c == udpSum (ofBe ((bs.drop 8).take 16)) (ofBe ((bs.drop 24).take 16)) z
    then some (udp.drop 8, some (nfld f 20 2)) else none

/-- The port hash of 09 R256: for a CREDIT, RFIRST replaces BLK. A KX1 message keeps its Billet ID and block number, or for a
GRANT the record's first block, in `spec`, since its key holds bucket and SEQ in their place (R264). -/
def hashOf (k : MKey) (spec : Nat) : Nat :=
  let kx1 := decide (5 ≤ k.kind)
  crc32c (leBytes 3 k.dst ++ leBytes 3 (if kx1 then nfld spec 0 20 else k.billet)
    ++ leBytes 3 (if kx1 then nfld spec 20 20 else if k.kind = 2 then nfld spec 0 20 else k.blk))
/-- The (h mod n)-th of a list of ports. -/
def hashPort (h : Nat) (ups : List Nat) : Option Nat := ups[h % ups.length]?

/-! ### Ports -/

/-- A port before anything is known of it. -/
def port0 (_ : Nat) : MacPort := ⟨false, false, none⟩
/-- A MAC port. -/
def State.macPort (s : State) (p : Nat) : MacPort := s.qcn.ports.get port0 p
/-- Store a MAC port. -/
def State.setPort (s : State) (p : Nat) (x : MacPort) : State :=
  { s with qcn := { s.qcn with ports := s.qcn.ports.set port0 p x } }
/-- A register of QCN page 3, instance `p` (16 R430). -/
def qcn3 (p off : Nat) : Nat := 0xB03000 + 0x10000 * p + off
/-- The ports of a group that are up, ascending (09 R256, R257). -/
def State.upPorts (s : State) (g : Nat) : List Nat :=
  (List.range 16).filter (fun p => s.regF (0xB01080 + 4 * g) p 1 == 1 && (s.macPort p).up)
/-- The lowest port that is up. -/
def State.lowestUp (s : State) : Option Nat := (List.range 16).find? (fun p => (s.macPort p).up)
/-- The port of an attempt (09 R256). -/
def State.portFor (s : State) (m : Msg) : Option Nat :=
  match m.port with
  | some p => some p
  | none => hashPort (hashOf m.key m.spec) (s.upPorts m.group)
/-- The port of a frame that is sent once: an ACK goes on the port of the answered message's last segment, or on the lowest up
port when that one is down; any other on a port of group 0 (09 R256). -/
def State.shotPort (s : State) (q : Shot) : Option Nat :=
  match q.port with
  | some p => if q.cls = 1 && !(s.macPort p).up then s.lowestUp else some p
  | none => hashPort (hashOf q.key q.spec) (s.upPorts 0)

/-- One microsecond in KTIME units (13 R359). -/
def usec : Nat := 2000
/-- Link and crossing have become good: the hold interval starts (09 R257). -/
def State.portGood (s : State) (p : Nat) : State :=
  let x := s.macPort p
  if x.link && s.xing 3 p == .opened && x.since.isNone then s.setPort p { x with since := some s.time.ktime }
  else s
/-- The port that time messages use: the lowest up port of group 0, which changes only when that port goes down (13 Table
13-1). -/
def State.timePort (s : State) : State :=
  let ups := s.upPorts 0
  let keep := match s.time.port with | some p => (s.macPort p).up | none => false
  if keep then s else { s with time := { s.time with port := ups.head? } }
/-- An attempt on port `p` is withdrawn (09 R258): whole again, same ATTEMPT, at once on another up port of its group, where
it stays (R259). -/
def State.withdraw (s : State) (p : Nat) (m : Msg) : Msg :=
  if m.active && m.port == some p then
    { m with withdrawn := true, port := hashPort (hashOf m.key m.spec) (s.upPorts m.group), done := 0 }
  else m
/-- A frame that is sent once is withdrawn in the same way, but for an ACK, whose port R256 gives. -/
def State.withdrawShot (s : State) (p : Nat) (q : Shot) : Shot :=
  if q.cls != 1 && q.port == some p then
    { q with moved := true, port := hashPort (hashOf q.key q.spec) (s.upPorts 0), done := 0 }
  else q

/-- A MAC port that was down has come back: an expected one gets a scan of its own (13 R381). -/
def State.portBack (s : State) (p : Nat) : State :=
  if !s.iden.down.contains p then s
  else
    let due := if s.regF 0x002058 (16 + p) 1 = 1 && !s.iden.due.contains p then s.iden.due ++ [p] else s.iden.due
    { s with iden := { s.iden with down := s.iden.down.filter (fun x => x != p), due := due } }
/-- PORT_UP: the hold interval has expired (09 R257). -/
def portUp (p : Nat) (s : State) : State :=
  let x := s.macPort p
  match x.since with
  | none => s
  | some t =>
    if x.link && s.xing 3 p == .opened && t + s.regN 0xB01054 * usec ≤ s.time.ktime then
      ((s.setPort p { x with up := true }).portBack p).timePort
    else s
/-- PORT_UP (09 R257). -/
def execPortUp (p : Port) (s : State) : Host.Outcome State Fault Refusal := done (portUp p.toNat s)

/-! ### Flows -/

/-- The flow of a destination and group, made if room allows (09 R254, R255). -/
def State.flow (s : State) (dst g : Nat) : Option Flow :=
  match s.qcn.flows.find? (fun f => f.dst == dst && f.group == g) with
  | some f => some f
  | none =>
    if s.qcn.flows.length < 16384 || s.qcn.flows.any (fun f => f.inflight == 0) then
      some ⟨dst, g, s.regN 0xB01040, 0, 0, 0, 0, 0⟩
    else none
/-- The index of the least recently used flow with nothing in flight. -/
def lruIdle (fs : List Flow) : Option Flow :=
  (fs.filter (fun f => f.inflight == 0)).foldl (fun b f =>
    match b with | none => some f | some x => if f.used < x.used then some f else some x) none
/-- Store a flow, the most recently used one now, replacing the least recently used idle one when the cache is full (09 R255;
16 R428 event 0x10). -/
def State.setFlow (s : State) (f : Flow) : State :=
  let f1 := { f with used := s.qcn.order }
  let same (x : Flow) : Bool := x.dst == f.dst && x.group == f.group
  let put (fs : List Flow) : State := { s with qcn := { s.qcn with flows := fs, order := s.qcn.order + 1 } }
  if s.qcn.flows.any same then put (s.qcn.flows.map (fun x => if same x then f1 else x))
  else if s.qcn.flows.length < 16384 then put (s.qcn.flows ++ [f1])
  else
    match lruIdle s.qcn.flows with
    | none => s
    | some old =>
      (put (s.qcn.flows.filter (fun x => !(x.dst == old.dst && x.group == old.group)) ++ [f1])).countEv
        0xB01000 0x10 1
/-- MAY_SEND (09 R254). -/
def mayFlow (f : Flow) (len : Nat) : Bool := f.inflight == 0 || f.inflight + len ≤ f.cwnd
/-- BELLOWS_ACK (09 R254). -/
def State.bellowsAck (s : State) (f : Flow) (bytes ce : Nat) : Flow :=
  let g := { f with inflight := f.inflight - bytes, acked := f.acked + bytes, marked := f.marked + ce }
  if g.acked < g.cwnd then g
  else
    let fr := if g.acked = 0 then 0 else g.marked * 65536 / g.acked
    let alpha := g.alpha - g.alpha / 16 + fr / 16
    let cwnd := if 0 < g.marked then max (s.regN 0xB01044) (g.cwnd - g.cwnd * alpha / 2 ^ 17)
      else min (s.regN 0xB01048) (g.cwnd + s.regN 0xB0104C)
    { g with alpha := alpha, cwnd := cwnd, acked := 0, marked := 0 }
/-- Change the flow of a message. -/
def State.onFlow (s : State) (m : Msg) (f : Flow → Flow) : State :=
  match s.qcn.flows.find? (fun x => x.dst == m.key.dst && x.group == m.group) with
  | some x => s.setFlow (f x)
  | none => s

/-! ### Sending -/

/-- The next order number. -/
def State.nextOrder (s : State) : Nat := s.qcn.order
/-- Replace a message by key. -/
def State.putMsg (s : State) (m : Msg) : State :=
  { s with qcn := { s.qcn with msgs := s.qcn.msgs.map (fun x => if x.key == m.key then m else x) } }
/-- Remove a message. -/
def State.dropMsg (s : State) (k : MKey) : State :=
  { s with qcn := { s.qcn with msgs := s.qcn.msgs.filter (fun x => x.key != k) } }
/-- A first hand-over charges the message's flow (09 R254). -/
def State.chargeFlow (s : State) (m : Msg) : State :=
  match s.flow m.key.dst m.group with
  | some f => s.setFlow { f with inflight := f.inflight + m.charge }
  | none => s
/-- An attempt counts as handed over (09 R243). -/
def Msg.counted (now : Nat) (m : Msg) : Msg :=
  { m with
    phase := .sent, tsend := if m.phase = .queued then now else m.tsend, sentAt := now, active := false, done := 0,
    withdrawn := false, port := none }
/-- An attempt that is due while no port of its group is up counts as handed over at that moment, so that its timers run (09
R243). DESIGN CHOICE: a first attempt is due as soon as it is queued, whatever MAY_SEND says, since no port could send it.
Log entry 107. -/
def State.countSent (s : State) (m : Msg) : State :=
  (if m.phase = .queued then s.chargeFlow m else s).putMsg (m.counted s.time.ktime)
/-- Every attempt that waits while no port of its group is up (09 R243). -/
def State.portless (s : State) : State :=
  (s.qcn.msgs.filter (fun m => m.active && (s.upPorts m.group).isEmpty)).foldl State.countSent s

/-- A port stops being good: it goes down if it was up, and its attempts are withdrawn (09 R257, R258). -/
def State.portBad (s : State) (p : Nat) : State :=
  let x := s.macPort p
  let s1 := s.setPort p { x with up := false, since := none }
  if !x.up then s1
  else
    let lost := (s.qcn.msgs.filter (fun m => m.active && m.port == some p)).length
    let s2 := { s1 with
      qcn := { s1.qcn with
        msgs := s1.qcn.msgs.map (s1.withdraw p), shots := s1.qcn.shots.map (s1.withdrawShot p) },
      iden := { s1.iden with down := s1.iden.down ++ [p] } }
    ((((s2.bump (qcn3 p 0x44) 1).bump (qcn3 p 0x54) lost).err (qcn3 p 0) 8).portless).timePort
/-- LINK_UP: the MAC client reports link up (09 R257). -/
def linkUp (p : Nat) (s : State) : State := (s.setPort p { s.macPort p with link := true }).portGood p
/-- LINK_UP (09 R257). -/
def execLinkUp (p : Port) (s : State) : Host.Outcome State Fault Refusal := done (linkUp p.toNat s)
/-- PORT_DOWN: the MAC client reports link down (09 R258). -/
def portDown (p : Nat) (s : State) : State := (s.setPort p { s.macPort p with link := false }).portBad p
/-- PORT_DOWN (09 R258). -/
def execPortDown (p : Port) (s : State) : Host.Outcome State Fault Refusal := done (portDown p.toNat s)

/-- A message is queued (09 R241); a fenced package sends nothing but ACKs (12 R317), and one message per key
is held at a time. With no port of its group up, its first attempt counts as handed over (R243). -/
def State.sendMsg (s : State) (k : MKey) (payload : Bytes) (spec charge group : Nat) (mash : Bool)
    (own : Option (Nat × Int × Grist)) : State :=
  if s.grd.fenced || s.qcn.msgs.any (fun m => m.key == k) then s
  else
    let m : Msg :=
      { key := k, payload := payload, spec := spec, charge := charge, group := group, phase := .queued,
        attempt := 0, active := true, done := 0, port := none, withdrawn := false, order := s.nextOrder,
        mash := mash, tsend := 0, sentAt := 0, cancelled := false, gone := false, own := own, waited := false }
    let s1 := { s with qcn := { s.qcn with msgs := s.qcn.msgs ++ [m], order := s.qcn.order + 1 } }
    if (s.upPorts group).isEmpty then s1.countSent m else s1
/-- A frame that is sent once is queued; its port may be fixed already. -/
def State.sendShot (s : State) (cls : Nat) (port : Option Nat) (k : MKey) (attempt spec : Nat) (payload : Bytes) : State :=
  if s.grd.fenced && k.kind != 1 && k.kind != 7 then s
  else
    let q : Shot := ⟨cls, port, false, none, k, attempt, spec, payload, 0, s.nextOrder⟩
    { s with qcn := { s.qcn with shots := s.qcn.shots ++ [q], order := s.qcn.order + 1 } }

/-- Segments of a message (09 R239). -/
def State.segCount (s : State) (payload : Bytes) : Nat := max 1 (cdiv payload.length s.segmax)
/-- The frame of segment `i` (09 R237 to R240). -/
def State.frameOf (s : State) (port : Nat) (k : MKey) (attempt spec i tsend : Nat) (payload : Bytes) : Output :=
  let seg := (payload.drop (i * s.segmax)).take s.segmax
  let ecn := if k.kind = 1 then 0 else 2
  let h : Hdr :=
    { ver := 2, kind := k.kind, e2e := s.e2e, ecn := 0, attempt := attempt, src := s.node,
      incarn := s.ownInc, dst := k.dst, ctx := k.ctx, gen := k.gen, step := k.step, billet := k.billet,
      blk := k.blk, len := payload.length, off := i * s.segmax, slen := seg.length,
      tsend := tsend / 256 % 2 ^ 40, spec := spec }
  let crc := if s.e2e then leBytes 4 (crc32c (hdrBytes h ++ seg)) else []
  let hw := if s.ether then { h with ecn := ecn } else h
  s.encap port k.dst (hashOf k spec) ecn (hdrBytes hw ++ seg ++ crc)
/-- The frame of a KX1 message (09 R263): its payload holds the header and the data; an ACK is Not-ECT (R253). -/
def State.kx1Frame (s : State) (port : Nat) (k : MKey) (spec : Nat) (bytes : Bytes) : Output :=
  s.encap port k.dst (hashOf k spec) (if k.kind = 7 then 0 else 2) (bytes ++ leBytes 4 (crc32c bytes))

/-- An unsolicited Neighbour Advertisement with the override flag for this package's address on a port (09 R236, RFC 4861):
to all nodes, hop limit 255, with the target's link-layer address. -/
def State.neighbourAd (s : State) (port : Nat) : Bytes :=
  let a := s.ipAddr s.node port
  let b := 0xFF02 * 2 ^ 112 + 1
  let icmp (c : Nat) : Bytes :=
    [136, 0] ++ beBytesN 2 c ++ beBytesN 4 0x20000000 ++ beBytesN 16 a ++ [2, 1] ++ beBytesN 6 (s.macAddr s.node port)
  let sum := fold16 (sum16 (beBytesN 16 a ++ beBytesN 16 b ++ beBytesN 4 32 ++ beBytesN 4 58 ++ icmp 0))
  beBytesN 4 (6 * 2 ^ 28) ++ beBytesN 2 32 ++ [58, 255] ++ beBytesN 16 a ++ beBytesN 16 b ++ icmp (65535 - sum)
/-- The announcement of an adopted ID on a port (09 R236): under Ethernet a GUARD-kind frame to the broadcast address. What
the manual leaves open of these frames is a DESIGN CHOICE (log entry 108). -/
def State.announcement (s : State) (port : Nat) : Output :=
  if s.ether then
    match s.frameOf port ⟨0x3FFFF, 0, 0, 0, 0, 0, 3⟩ 0 0 0 s.time.ktime [] with
    | .frame p _ src etype bs => .frame p (2 ^ 48 - 1) src etype bs
    | o => o
  else .frame port 0 0 0 (s.neighbourAd port)

/-- What the egress arbiter of a port can grant. -/
inductive Pick where
  | shot (q : Shot)
  | msg (m : Msg)
  deriving DecidableEq, Repr

/-- The class of a message's present attempt (09 R260). -/
def msgClass (m : Msg) : Nat :=
  if m.key.kind = 3 then 2
  else if m.withdrawn || m.attempt != 0 then 3
  else if m.key.kind = 2 || m.key.kind = 6 then 4
  else 5
/-- A message may be granted on a port (09 R243, R254, R256, R260, R261; 16 Table 16-1); of a fenced package only the
FAILREP about itself (12 R317, 13 R368). -/
def State.canGrant (s : State) (p : Nat) (m : Msg) : Bool :=
  m.active && (!s.grd.fenced || (m.key.kind == 3 && m.key.blk % 16 == 4 && m.key.billet == s.node))
    && s.portFor m == some p
    && (m.done != 0 || m.attempt != 0 || m.withdrawn
        || (!(s.reg 0xB00010).getLsbD 1
            && (match s.flow m.key.dst m.group with | none => false | some f => mayFlow f m.charge)))
    && (m.phase == .queued || s.time.ktime ≤ m.tsend + 25000 * usec)
/-- Segments of the attempt have been granted. -/
def Pick.begun : Pick → Bool
  | .shot q => q.done != 0
  | .msg m => m.done != 0
/-- When it was queued. -/
def Pick.order : Pick → Nat
  | .shot q => q.order
  | .msg m => m.order
/-- The class of R260: a withdrawn Tongs answer is ahead of first attempts. -/
def Pick.cls : Pick → Nat
  | .shot q => if q.cls = 5 && q.moved then 3 else q.cls
  | .msg m => msgClass m
/-- A TONGS message or answer. -/
def Pick.tongs : Pick → Bool
  | .shot _ => true
  | .msg m => m.key.kind == 4
/-- DATA that Mash emitted. -/
def Pick.mash : Pick → Bool
  | .shot _ => false
  | .msg m => m.mash
/-- The first of two by progress, then age: no attempt is cut by another of its class. -/
def Pick.older (a b : Pick) : Pick :=
  if a.begun then a else if b.begun then b else if b.order < a.order then b else a
/-- The first of a list. -/
def firstPick : List Pick → Option Pick
  | [] => none
  | x :: xs => some (xs.foldl Pick.older x)
/-- The first that there is of two choices. -/
def orPick (a b : Option Pick) : Option Pick := match a with | some x => some x | none => b
/-- Class 5: an attempt under way goes on; then TONGS and DATA alternate, DATA of Mash before origin blocks. -/
def alternate (tongsNext : Bool) (ps : List Pick) : Option Pick :=
  let d := ps.filter (fun x => !x.tongs)
  let tongs := firstPick (ps.filter Pick.tongs)
  let data := orPick (firstPick (d.filter Pick.mash)) (firstPick d)
  orPick (firstPick (ps.filter Pick.begun)) (if tongsNext then orPick tongs data else orPick data tongs)
/-- The next grant of a port: the first non-empty class (09 R260). -/
def State.nextGrant (s : State) (p : Nat) : Option Pick :=
  let ps := (s.qcn.shots.filter (fun q => s.shotPort q == some p)).map Pick.shot
    ++ (s.qcn.msgs.filter (s.canGrant p)).map Pick.msg
  let of (k : Nat) : List Pick := ps.filter (fun x => x.cls == k)
  orPick (firstPick (of 1)) (orPick (firstPick (of 2)) (orPick (firstPick (of 3)) (orPick (firstPick (of 4))
    (alternate (s.qcn.altTongs.get (fun _ => false) p) (of 5)))))
/-- A first attempt of class 5 begins on a port: the other kind comes next there (09 R260). -/
def State.turnAlt (s : State) (p : Nat) (tongs : Bool) : State :=
  { s with qcn := { s.qcn with altTongs := s.qcn.altTongs.set (fun _ => false) p (!tongs) } }

/-- Grant a segment of a message (09 R241, R242). -/
def State.grantMsg (s : State) (p : Nat) (m : Msg) : State :=
  let kx1 := m.key.kind == 5 || m.key.kind == 6
  let n := if kx1 then 1 else s.segCount m.payload
  let first := m.phase == .queued
  let now := s.time.ktime
  let m1 := if first then { m with tsend := now, phase := .sending } else m
  let out := if kx1 then s.kx1Frame p m.key m.spec m.payload
    else s.frameOf p m.key m.attempt m.spec m.done m1.tsend m.payload
  let s1 := s.emit out
  let s2 := if first then s1.chargeFlow m else s1
  let s3 := if m.done = 0 && m.attempt != 0 && !m.withdrawn then s2.bump 0xB02074 1 else s2
  let m2 := if m.done + 1 = n then
      { m1 with
        done := 0, active := false, withdrawn := false, sentAt := now, phase := .sent }
    else { m1 with done := m.done + 1, port := some p }
  let s4 := (s3.bump (qcn3 p 0x48) 1).putMsg { m2 with port := if m2.active then some p else none }
  let s5 := if m.key.kind = 0 || m.key.kind = 5 then s4.phStart m.key.ctx m.key.step phReduce else s4
  if msgClass m = 5 && m.done = 0 then s5.turnAlt p (m.key.kind == 4) else s5
/-- TSEND of a frame that is sent once: its first hand-over (09 R237). -/
def State.shotTime (s : State) (q : Shot) : Nat := q.tsend.getD s.time.ktime
/-- Grant a segment of a frame that is sent once. -/
def State.grantShot (s : State) (p : Nat) (q : Shot) : State :=
  let kx1 := q.key.kind == 7
  let n := if kx1 then 1 else s.segCount q.payload
  let t := s.shotTime q
  let out := if kx1 then s.kx1Frame p q.key q.spec q.payload
    else s.frameOf p q.key q.attempt q.spec q.done t q.payload
  let s1 := (s.emit out).bump (qcn3 p 0x48) 1
  let shots := if q.done + 1 = n then s1.qcn.shots.filter (fun x => x.order != q.order)
    else s1.qcn.shots.map (fun x =>
      if x.order = q.order then { x with done := q.done + 1, port := some p, tsend := some t } else x)
  let s2 := { s1 with qcn := { s1.qcn with shots := shots } }
  if q.cls = 5 && !q.moved && q.done = 0 then s2.turnAlt p true else s2
/-- EGRESS_GRANT: the egress arbiter of an up port grants the next segment (09 R260). -/
def egressGrant (p : Nat) (s : State) : State :=
  if !(s.macPort p).up then s
  else
    match s.nextGrant p with
    | none => s
    | some (.shot q) => s.grantShot p q
    | some (.msg m) => s.grantMsg p m
/-- EGRESS_GRANT (09 R260). -/
def execEgressGrant (p : Port) (s : State) : Host.Outcome State Fault Refusal := done (egressGrant p.toNat s)

/-! ### Receiving -/

/-- Bytes in reassembly. -/
def State.rxBytes (s : State) : Nat := (s.qcn.rx.map (fun r => (r.segs.map (fun g => g.2.length)).sum)).sum
/-- A message whose every byte has arrived. -/
def Rx.full (r : Rx) : Bool := (r.segs.map (fun g => g.2.length)).sum == r.len && r.segs != []
/-- The bytes of a message. -/
def Rx.bytes (r : Rx) : Bytes :=
  ((sortBy (fun a b => decide (a.1 < b.1)) r.segs).map (·.2)).flatten
/-- The oldest complete message that satisfies a condition. -/
def State.rxFind (s : State) (p : Rx → Bool) : Option Rx := s.qcn.rx.find? (fun r => r.full && p r)
/-- A Tongs answer, which carries the key of the request it answers (10 R274). -/
def Rx.answer (r : Rx) : Bool := r.key.kind == 4 && 3 ≤ nfld r.spec 0 3
/-- Two entries of the same message; every ACK is one of its own. -/
def Rx.same (a b : Rx) : Bool := a.key.kind != 1 && a.src == b.src && a.key == b.key && a.answer == b.answer
/-- Remove a message from reassembly. -/
def State.rxDrop (s : State) (r : Rx) : State := { s with qcn := { s.qcn with rx := s.qcn.rx.erase r } }
/-- GOP of a GUARD message (12 R318). -/
def Rx.gop (r : Rx) : Nat := nfld r.spec 0 4
/-- Job-level Guard operations (12 Table 12-2). -/
def jobOp (g : Nat) : Bool := [0, 4, 5, 6, 11, 12].contains g

/-- Incarnation held for a node (16 GRD_INC_DATA). -/
def State.incOf (s : State) (n : Nat) : Option Nat := s.grd.inc.get (fun _ => none) n

/-- Store a segment (09 R252, R253). -/
def State.rxStore (s : State) (port : Nat) (h : Hdr) (ce : Bool) (seg : Bytes) : State :=
  let k : MKey := ⟨s.node, h.ctx, h.gen, h.step, h.billet, h.blk, h.kind⟩
  let new : Rx := ⟨h.src, k, h.len, h.spec, h.tsend, h.incarn, h.attempt, port, [], 0, 0, false⟩
  let old := s.qcn.rx.find? (fun r => r.same new)
  let r := old.getD new
  if r.segs.any (fun g => g.1 == h.off) then
    { s with qcn := { s.qcn with
        rx := s.qcn.rx.map (fun x => if x.same r then { x with attempt := h.attempt, port := port } else x) } }
  else if 2 ^ 23 < s.rxBytes + seg.length then s.bump 0xB02068 1
  else
    let r1 := { r with
      segs := r.segs ++ [(h.off, seg)], attempt := h.attempt, port := port, last := s.time.ktime,
      ce := r.ce + (if ce then seg.length else 0) }
    let rest := s.qcn.rx.filter (fun x => !x.same r)
    { s with qcn := { s.qcn with
        rx := if r1.full then rest ++ [r1]
          else if old.isSome then s.qcn.rx.map (fun x => if x.same r then r1 else x) else rest ++ [r1] } }

/-- REASSEMBLY_TIMEOUT: an incomplete message without a new segment for 3.2 ms is dropped (09 R252). -/
def reassemblyTimeout (s : State) : State :=
  let dead (r : Rx) : Bool := !r.full && r.last + 3200 * usec ≤ s.time.ktime
  let n := (s.qcn.rx.filter dead).length
  if n = 0 then s
  else ({ s with qcn := { s.qcn with rx := s.qcn.rx.filter (fun r => !dead r) } }).bump 0xB0206C n
/-- REASSEMBLY_TIMEOUT (09 R252). -/
def execReassemblyTimeout (s : State) : Host.Outcome State Fault Refusal := done (reassemblyTimeout s)

/-- Answer a received message with an ACK (09 R244, R245, R256): on the port on which its last segment
arrived, or the lowest up port when that port is down. -/
def State.ack (s : State) (r : Rx) (rfirst d win : Nat) (dup late : Bool) : State :=
  let data := r.key.kind != 2
  let spec := rfirst + d * 2 ^ 20 + min win 65535 * 2 ^ 40 + (if data then r.ce else 0) % 2 ^ 20 * 2 ^ 56
    + b2n dup * 2 ^ 76 + b2n late * 2 ^ 77 + r.attempt * 2 ^ 78 + r.key.kind * 2 ^ 82
  s.sendShot 1 (some r.port) { r.key with dst := r.src, kind := 1 } 0 spec []

end Sys2Proof.Machine
end

