-- ==== Sys2Proof/Machine/Msgs.lean ====
section
/-! DEFINITION. What Mash, Quicon and Guard share: manifest entries and
the replayed record (12 R336 to R338), how a message ends (09 R241, 12 R334) and cancellation (09 R261). -/
namespace Sys2Proof.Machine
open Sys2Proof

/-! ### Manifest entries -/

/-- A manifest entry (12 Table 12-6). -/
def manEntry (node kind billet blk count at_ : Nat) : Nat :=
  node + kind * 2 ^ 18 + billet * 2 ^ 22 + blk * 2 ^ 42 + count * 2 ^ 62 + at_ * 2 ^ 80
/-- Entries kept, at most GRD_MAN_MAX per step (12 R337), and whether more came. -/
def State.manCut (s : State) (es : List Nat) : List Nat × Bool :=
  let n := s.regF 0xE01058 0 13
  (es.take n, decide (n < es.length))
/-- Record an entry of the open step; none once the package's VUP has been sent. -/
def State.addMan (s : State) (c e : Nat) : State :=
  let g := s.gx c
  if g.sent then s
  else
    let (es, excess) := s.manCut (g.man ++ [e])
    s.setGx c { g with man := es, manOvf := g.manOvf || excess }
/-- Record that this package folded its own block (12 R334). -/
def State.addCarried (s : State) (c billet blk : Nat) : State :=
  s.addMan c (manEntry s.node 1 billet blk 1 s.node)

/-- Walk the step records of a manifest from step `lo` on to a step (12 R337): its verdict and entries. The walk ends
where the records' steps no longer ascend. -/
def manWalk (s : State) (step : Nat) : Nat → Nat → Nat → Option (Nat × List Nat)
  | 0, _, _ => none
  | f + 1, lo, a =>
    let h := s.memN a 32
    let n := nfld h 80 16
    let k := nfld h 0 48
    if k = step then some (nfld h 76 2, (chunks 16 (s.bytes (a + 32) (16 * n))).map ofLe)
    else if k < lo || step < k then none
    else manWalk s step f (k + 1) (a + 32 + 16 * n)
/-- The record that a REPLAY context follows for a step (12 R338): MAN_IN has no size, so the walk goes as far as the
records ascend, at most one for each step (log entry 18). -/
def State.manIn (s : State) (c step : Nat) : Option (Nat × List Nat) :=
  if s.policy c = 3 then manWalk s step (step + 1 - nfld (s.memN (s.gAddr c 15) 32) 0 48) 0 (s.gAddr c 15) else none
/-- The replayed record of the open step lists a node's operand of a block at this package. -/
def State.listed (s : State) (c billet blk node : Nat) : Bool :=
  match s.manIn c (s.cStep c) with
  | none => false
  | some (_, es) =>
    es.any (fun e => nfld e 0 18 == node && nfld e 22 20 == billet && nfld e 42 20 == blk && nfld e 80 18 == s.node)
/-- The replayed record of the open step lists this package's own block as CARRIED (12 R338). -/
def State.carriedIn (s : State) (c billet blk : Nat) : Bool :=
  match s.manIn c (s.cStep c) with
  | none => false
  | some (_, es) => es.contains (manEntry s.node 1 billet blk 1 s.node)

/-! ### The end of a message -/

/-- Fold an origin block's codes into the residuals and record it (12 R334); a slot without residuals is not
folded. -/
def State.foldOwn (s : State) (c step t : Nat) (q : Int) (g : Grist) (billet blk : Nat) : State :=
  if !s.foldable t then s
  else
    let s1 := s.carryFold t step q g
    if step = s.cStep c then s1.addCarried c billet blk else s1
/-- The flow of a message that ends without an answer forgets its bytes (09 R254). -/
def State.forget (s : State) (m : Msg) : State :=
  if m.phase = .queued then s else s.onFlow m (fun f => { f with inflight := f.inflight - m.charge })
/-- The origin block of a message was not added: under CARRY it is folded, and its maximum leaves the max table of its step
while that is open (12 R334, 03 R81). -/
def State.notAdded (s : State) (m : Msg) : State :=
  match m.own with
  | none => s
  | some (t, q, g) =>
    let s1 := s.uncounted t m.key.step g.block
    if s.policy m.key.ctx = 1 then s1.foldOwn m.key.ctx m.key.step t q g m.key.billet m.key.blk else s1
/-- A message ends with an outcome of 09 R241: 0 ADDED, 1 LATE, 2 NOT_SENT, 3 UNKNOWN. Bellows forgets bytes
that were never answered (R254); a block that ended LATE or NOT_SENT was not added (12 R334); the acknowledgement of DATA, whatever it says, ends REDUCE
here (01 Table 1-4). Of a message that a context reset cancelled, no outcome is reported (R262). -/
def State.endMsg (s : State) (m : Msg) (o : Nat) : State :=
  let s0 := s.dropMsg m.key
  if m.gone then s0.forget m
  else
    let s1 := s0.countEv 0xB00000 (0x10 + o) 1
    let s2 := if 2 ≤ o then s1.forget m else s1
    let s3 := if o ≤ 1 && (m.key.kind = 0 || m.key.kind = 5) then s2.phEnd m.key.ctx m.key.step phReduce else s2
    if o = 1 || o = 2 then s3.notAdded m else s3

/-- A message of a context's Mash traffic: DATA, CREDIT and their KX1 forms. -/
def mashKind (k : Nat) : Bool := k == 0 || k == 2 || k == 5 || k == 6
/-- A cancelled message that has started: the attempt that is under way, or was withdrawn while under way, is sent to its end;
one that has not begun is not made (09 R261). -/
def Msg.stop (m : Msg) : Msg := { m with cancelled := true, active := m.active && (m.done != 0 || m.withdrawn) }
/-- Cancel messages (09 R261): one that is QUEUED ends NOT_SENT; any other makes no further attempt. -/
def State.cancelWhere (s : State) (p : Msg → Bool) : State :=
  (s.qcn.msgs.filter p).foldl (fun s m => if m.phase = .queued then s.endMsg m 2 else s.putMsg m.stop) s
/-- A message of a step of a context: its Mash traffic, and of Guard's the VUP, VQUERY, LOCKSIG and LSLIST. DEDUCED: a VDOWN,
which is queued just before the VERDICT ends (12 R326), and what follows a verdict are not among the messages that its end
cancels. Log entry 106. -/
def Msg.ofStep (c step : Nat) (m : Msg) : Bool :=
  m.key.ctx == c && m.key.step == step
    && (mashKind m.key.kind || (m.key.kind == 3 && ([1, 3, 9, 10] : List Nat).contains (m.key.blk % 16)))
/-- Cancel the messages of a step (09 R261). -/
def State.cancelStep (s : State) (c step : Nat) : State := s.cancelWhere (Msg.ofStep c step)
/-- Nothing of a context is folded any more: its residual buffers are about to be zeroed (12 R345). -/
def State.forgetOwn (s : State) (c : Nat) : State :=
  { s with qcn := { s.qcn with msgs := s.qcn.msgs.map (fun m => if m.key.ctx = c then { m with own := none } else m) } }

/-- An entry of a list that the manual places in package memory without a layout is written there: its bytes are free values.
DESIGN CHOICE: it takes the place after those in use. Log entry 44. -/
def State.listEntry (s : State) (base size slot n : Nat) : State :=
  let bs := ((List.range (n / 8)).map (fun i => leBytes 8 (Config.openValue 7 (s.fresh + i)).toNat)).flatten
  ({ s with fresh := s.fresh + n / 8 }).busWrite (base + n * (slot % size)) bs
/-- Entries of the cooling list in use. -/
def State.coolUsed (s : State) : Nat := s.qcn.cool.length + s.qcn.closes.length
/-- Write an entry of the cooling list to package memory (09 R249). -/
def State.coolEntry (s : State) : State :=
  s.listEntry (s.reg64 0xB00064 % 2 ^ 48) (2 ^ s.regF 0xB0006C 0 5) s.coolUsed 16
/-- Cooling entries join the list (09 R248). -/
def State.addCool (s : State) (cs : List Cool) : State :=
  cs.foldl (fun s x => let t := s.coolEntry; { t with qcn := { t.qcn with cool := t.qcn.cool ++ [x] } }) s
/-- A close entry joins the list (09 R248). -/
def State.addClose (s : State) (x : Close) : State :=
  let t := s.coolEntry
  { t with qcn := { t.qcn with closes := t.qcn.closes ++ [x] } }
/-- Room for `n` more entries in the cooling list (09 R249). -/
def State.coolRoom (s : State) (n : Nat) : Bool :=
  s.coolUsed + n ≤ 2 ^ s.regF 0xB0006C 0 5
/-- The wait for cooling space: COOL_FULL, and a yield event (09 R249). -/
def State.coolFull (s : State) (c : Nat) : State := (s.err 0xB00000 9).yieldEv c 5 1

/-! ### GUARD messages, 12 R318, R319 -/

/-- The SPEC field of a GUARD frame. -/
def guardSpec (gop newinc pseq nparts : Nat) : Nat := gop + newinc * 2 ^ 4 + pseq * 2 ^ 28 + nparts * 2 ^ 60
/-- Queue a GUARD payload, in parts of at most 524,288 bytes. -/
def State.guardSend (s : State) (dst ctx gen step billet gop newinc pseq : Nat) (payload : Bytes) : State :=
  let ps := if payload = [] then [[]] else chunks 524288 payload
  (indexed 0 ps).foldl (fun s p =>
    s.sendMsg ⟨dst, ctx, gen, step, billet, gop + 16 * p.1, 3⟩ p.2 (guardSpec gop newinc pseq ps.length) p.2.length 0
      false none) s

/-! ### KX1 frames, 09 Table 9-8 -/

/-- The 32 header bytes of a KX1 frame. -/
def kx1Hdr (kind : Nat) (ece : Bool) (src dst bucket seq off count dtype step grant : Nat) : Bytes :=
  leBytes 32 (1 + kind * 2 ^ 4 + b2n ece * 2 ^ 8 + src % 65536 * 2 ^ 16 + dst % 65536 * 2 ^ 32
    + bucket % 65536 * 2 ^ 48 + seq % 2 ^ 32 * 2 ^ 64 + off % 2 ^ 32 * 2 ^ 96 + (count - 1) * 2 ^ 128
    + dtype * 2 ^ 140 + step % 2 ^ 32 * 2 ^ 160 + grant % 2 ^ 32 * 2 ^ 192)
/-- Take the next SEQ for a destination. -/
def State.nextSeq (s : State) (dst : Nat) : Nat × State :=
  let q := s.qcn.kx1Seq.get (fun _ => 0) dst
  (q, { s with qcn := { s.qcn with kx1Seq := s.qcn.kx1Seq.set (fun _ => 0) dst ((q + 1) % 2 ^ 32) } })
/-- Send KX1 DATA messages for pieces of a block (09 R264): first element offset, elements, bytes. -/
def kx1Pieces (c dst group step billet blk dtype : Nat) (mash : Bool) : List (Nat × Nat × Bytes) → State → State
  | [], s => s
  | (off, n, bs) :: ps, s =>
    let (q, s1) := s.nextSeq dst
    let p := kx1Hdr 0 false s.node dst billet q (4096 * blk + off) n dtype step 0 ++ bs
    let k : MKey := ⟨dst, c, s.cGen c, step, billet % 65536, q, 5⟩
    kx1Pieces c dst group step billet blk dtype mash ps
      (s1.sendMsg k p (billet + blk * 2 ^ 20) bs.length group mash none)

/-- Queue a block as KX1 DATA. -/
def State.sendKx1 (s : State) (c dst group billet blk : Nat) (mash : Bool) (g : Grist) : State :=
  kx1Pieces c dst group (s.cStep c) billet blk (if g.format = 6 then 1 else 0) mash (kx1Cut g) s

end Sys2Proof.Machine
end

