-- ==== Sys2Proof/Machine/Tongs.lean ====
section
/-! DEFINITION. Tongs: domain and queue records (10 R268, R279), the queues at the requester (R280 to R286), requests
on the wire (R271 to R274) and the target (R275 to R278). -/
namespace Sys2Proof.Machine
open Sys2Proof

/-! ### Records -/

/-- A word of a domain record or of its arrival counts (10 Table 10-1, 16 R432). -/
def State.dw (s : State) (d w : Nat) : W32 := s.domR.get zero32 (48 * d + w)
/-- Store a word of a domain record. -/
def State.setDw (s : State) (d w v : Nat) : State :=
  { s with domR := s.domR.set zero32 (48 * d + w) (BitVec.ofNat 32 v) }
/-- WBASE or WSIZE. -/
def State.dAddr (s : State) (d w : Nat) : Nat := ((s.dw d w).toNat + (s.dw d (w + 1)).toNat * 2 ^ 32) % 2 ^ 48
/-- Arrival count `a` of a domain (10 R277). -/
def State.arrival (s : State) (d a : Nat) : Nat :=
  ((s.dw d (16 + 2 * a)).toNat + (s.dw d (17 + 2 * a)).toNat * 2 ^ 32) % 2 ^ 48
/-- Store an arrival count. -/
def State.setArrival (s : State) (d a v : Nat) : State :=
  (s.setDw d (16 + 2 * a) (v % 2 ^ 32)).setDw d (17 + 2 * a) (v / 2 ^ 32 % 2 ^ 16)
/-- The access key of a domain (10 R268). -/
def State.tkey (s : State) (d : Nat) : Option W64 := s.tng.keys.get (fun _ => none) d
/-- Some context of the domain is READY, RUNNING or PARKED (10 R269). -/
def State.domActive (s : State) (d : Nat) : Bool := s.live.any (fun c => s.cActive c && s.cPdom c == d)

/-- A word of a queue record (10 Table 10-6). -/
def State.qw (s : State) (q w : Nat) : W32 := s.tqR.get zero32 (16 * q + w)
/-- A field of a queue record. -/
def State.qf (s : State) (q w lo n : Nat) : Nat := fld (s.qw q w) lo n
/-- Store a word of a queue record. -/
def State.setQw (s : State) (q w v : Nat) : State :=
  { s with tqR := s.tqR.set zero32 (16 * q + w) (BitVec.ofNat 32 v) }
/-- RING or MIRROR. -/
def State.qAddr (s : State) (q w : Nat) : Nat := ((s.qw q w).toNat + (s.qw q (w + 1)).toNat * 2 ^ 32) % 2 ^ 48
/-- CONTEXT. -/
def State.qCtx (s : State) (q : Nat) : Nat := s.qf q 0 0 12
/-- MODE is RELAXED. -/
def State.qRelaxed (s : State) (q : Nat) : Bool := bit (s.qw q 0) 12
/-- CYCLIC. -/
def State.qCyclic (s : State) (q : Nat) : Bool := bit (s.qw q 0) 13
/-- REISSUE. -/
def State.qReissue (s : State) (q : Nat) : Bool := bit (s.qw q 0) 14
/-- Ring positions. -/
def State.qRing (s : State) (q : Nat) : Nat := 2 ^ s.qf q 0 16 5
/-- HEAD. -/
def State.qHead (s : State) (q : Nat) : Nat := s.qf q 8 0 16
/-- TAIL. -/
def State.qTail (s : State) (q : Nat) : Nat := s.qf q 8 16 16
/-- STATE: 0 STOPPED, 1 ACTIVE, 2 FAULTED. -/
def State.qState (s : State) (q : Nat) : Nat := s.qf q 9 0 2
/-- QCNT. -/
def State.qcnt (s : State) (q : Nat) : Nat := ((s.qw q 10).toNat + (s.qw q 11).toNat * 2 ^ 32) % 2 ^ 48
/-- LAP. -/
def State.qLap (s : State) (q : Nat) : Nat := (s.qw q 12).toNat
/-- Entries of a lap of a CYCLIC queue (10 R283). -/
def State.qLapLen (s : State) (q : Nat) : Nat := s.qf q 6 16 16 + 1
/-- A queue that nothing has touched. -/
def tqueue0 (_ : Nat) : TQueue := ⟨0, 0, [], false⟩
/-- What a queue holds beside its record. -/
def State.qx (s : State) (q : Nat) : TQueue := s.tng.q.get tqueue0 q
/-- Store what a queue holds. -/
def State.setQx (s : State) (q : Nat) (x : TQueue) : State :=
  { s with tng := { s.tng with q := s.tng.q.set tqueue0 q x } }

/-! ### Entries -/

/-- A field of word Qk of an entry. -/
def ew (e k lo n : Nat) : Nat := nfld e (64 * k + lo) n
/-- OP. -/
def eOp (e : Nat) : Nat := ew e 0 0 8
/-- NODE. -/
def eNode (e : Nat) : Nat := ew e 0 32 18
/-- LEN. -/
def eLen (e : Nat) : Nat := ew e 3 0 17
/-- LADDR. -/
def eLocal (e : Nat) : Nat := ew e 2 0 48
/-- Address of an entry. -/
def State.entAt (s : State) (q pos : Nat) : Nat := s.qAddr q 1 + 32 * pos
/-- An entry as it stands in memory. -/
def State.entWord (s : State) (q pos : Nat) : Nat := s.memN (s.entAt q pos) 32
/-- ROFF with ALT (10 Table 10-7). -/
def State.eRoff (s : State) (q e : Nat) : Nat :=
  let odd := e.testBit 17 && (s.qLap q + s.qf q 0 15 1) % 2 == 1
  (ew e 1 0 48 + if odd then (s.qw q 5).toNat else 0) % 2 ^ 48
/-- VALUE with LAPV. -/
def State.eValue (s : State) (q e : Nat) : Nat :=
  (ew e 1 0 48 + if e.testBit 18 then s.qLap q * s.qf q 6 0 16 else 0) % 2 ^ 48
/-- The bits that Table 10-7 lists. -/
def entMasks : List Nat := [0x0003FFFF0F07FFFF, 2 ^ 48 - 1, 2 ^ 48 - 1, 2 ^ 31 - 1]
/-- An entry that completes with BAD_ENTRY (10 Table 10-8). -/
def State.badEntry (s : State) (q e : Nat) : Bool :=
  let op := eOp e
  let rw := op == 1 || op == 2
  !reservedOk e entMasks || 5 < op
    || (rw && !(1 ≤ eLen e && eLen e ≤ 65536 && s.inWindow (s.qCtx q) (eLocal e) (eLen e)))
    || (!rw && eLocal e != 0) || (op == 5 && eLen e != 8)
    || (op == 3 && (ew e 3 17 2 == 3 || (ew e 3 17 2 == 0 && 1024 ≤ ew e 3 19 12)))
/-- The count that a WAIT_LCNT waits on (10 Table 10-7). -/
def State.localCount (s : State) (q e : Nat) : Nat :=
  let i := ew e 3 19 12
  match ew e 3 17 2 with
  | 0 => s.qcnt i
  | 1 => s.cCmplCnt i
  | _ => s.arrival (s.cPdom (s.qCtx q)) (i % 16)

/-! ### Requests -/

/-- SPEC of a TONGS frame (10 Table 10-3), from its lowest bit. -/
def tngSpec (top : Nat) (flag sl adv : Bool) (acnt csel off len code : Nat) : Nat :=
  top + b2n flag * 2 ^ 3 + b2n sl * 2 ^ 4 + b2n adv * 2 ^ 5 + acnt * 2 ^ 6 + csel * 2 ^ 10 + off * 2 ^ 11
    + len * 2 ^ 59 + code * 2 ^ 76
/-- Seal a TONGS payload (10 R272): additional data the 12 bytes of SPEC. Under encryption nothing crosses in clear: with no key
in the domain there is no payload. -/
def State.tngSeal (s : State) (c spec : Nat) (pt : Bytes) : Option (Bytes × State) :=
  let d := s.cPdom c
  if !s.cEnc c then some (pt, s)
  else
    (s.ctl.keys.get (fun _ => none) d).map (fun key =>
      let iv := s.nonce d
      (iv ++ gcmSeal key iv (leBytes 12 spec) pt,
        { s with ctl := { s.ctl with
          seq := s.ctl.seq.set (fun _ => 0) d ((s.ctl.seq.get (fun _ => 0) d + 1) % 2 ^ 72) } }))
/-- Open a TONGS payload. -/
def State.tngOpen (s : State) (c spec : Nat) (bs : Bytes) : Option Bytes :=
  if !spec.testBit 4 then some bs
  else
    match s.ctl.keys.get (fun _ => none) (s.cPdom c) with
    | none => none
    | some key => gcmOpen key (bs.take 12) (leBytes 12 spec) (bs.drop 12)

/-- Change the started entry at a position. -/
def State.mapEnt (s : State) (q pos : Nat) (f : QEnt → QEnt) : State :=
  let x := s.qx q
  s.setQx q { x with ents := x.ents.map (fun e => if e.pos = pos then f e else e) }
/-- Issue an entry's request under the next SEQ (10 R271 to R273, R283). DESIGN CHOICE: a request that cannot be sealed, because
its domain has lost its key, waits and is tried again as a poll is. Log entry 109. -/
def State.tngIssue (s : State) (q : Nat) (e : QEnt) : State :=
  let c := s.qCtx q
  let op := eOp e.w
  let top := if op = 1 then 0 else if op = 4 then 2 else 1
  let sl := s.cEnc c
  let wr := op == 1
  let len := if op = 4 then 0 else eLen e.w
  let spec := tngSpec top (wr && e.w.testBit 9) sl (wr && e.w.testBit 10) (if wr || op == 4 then ew e.w 0 11 4 else 0)
    (if op = 4 then ew e.w 0 16 1 else 0) (if op = 4 then 0 else s.eRoff q e.w) len 0
  let word := (s.tkey (s.cPdom c)).getD (Config.openValue 3 (s.cPdom c))
  let pt := leBytes 8 word.toNat ++ (if wr then s.bytes (eLocal e.w) len else [])
  match s.tngSeal c spec pt with
  | none => s.mapEnt q e.pos (fun y => { y with key := none, pollAt := some s.time.ktime, held := false })
  | some (payload, s1) =>
    let x := s1.qx q
    let k : MKey := ⟨eNode e.w, c, s.cGen c, x.seq, q, x.seq % 2 ^ 20, 4⟩
    let s2 := s1.setQx q { x with seq := (x.seq + 1) % 2 ^ 48 }
    let s3 := s2.mapEnt q e.pos (fun y => { y with key := some k, pollAt := none, held := false })
    s3.sendMsg k payload spec (payload.length + if top = 1 then len else 0) 0 false none

/-! ### Completion of entries -/

/-- A queue faults (10 R285): FAULTED, TNG_QFAULT holds the first, Q_FAULT. -/
def State.qFault (s : State) (q pos : Nat) : State :=
  let s1 := s.setQw q 9 2
  let s2 := if (s.reg 0xC00074).getLsbD 31 then s1 else s1.setRegN 0xC00074 (q + pos * 2 ^ 10 + 2 ^ 31)
  s2.err 0xC00000 14
/-- QCNT advances and is mirrored (10 R284). -/
def State.advQcnt (s : State) (q : Nat) : State :=
  let n := (s.qcnt q + 1) % 2 ^ 48
  let s1 := (s.setQw q 10 (n % 2 ^ 32)).setQw q 11 (n / 2 ^ 32)
  if s.qAddr q 3 = 0 then s1 else s1.ctxWrite (s.qCtx q) (s.qAddr q 3) (leBytes 8 n)
/-- Retire the completed entries at the front of a queue (10 R284). -/
def tngRetire (q : Nat) : List QEnt → State → State
  | [], s => s.setQx q { s.qx q with ents := [] }
  | e :: es, s =>
    if e.status = some 0 || e.status = some 9 then
      let head := (e.pos + 1) % s.qRing q
      let s1 := s.setQw q 8 (head + s.qTail q * 2 ^ 16)
      tngRetire q es (if e.w.testBit 8 then s1.advQcnt q else s1)
    else s.setQx q { s.qx q with ents := e :: es }
/-- A lap of a CYCLIC queue ends when its last entry has been retired (10 R283). -/
def State.tngLap (s : State) (q : Nat) : State :=
  let x := s.qx q
  if s.qCyclic q && x.ents.isEmpty && x.next == s.qLapLen q && s.qState q == 1 then
    (((s.setQx q { x with next := 0 }).setQw q 12 ((s.qLap q + 1) % 2 ^ 32)).setQw q 8 (s.qTail q * 2 ^ 16)).countEv
      0xC00000 0x12 1
  else s
/-- The queue measures FETCH for its context (12 R352). -/
def State.fetchQueue (s : State) (q : Nat) : Bool :=
  let w := s.pt (s.qCtx q) 3
  bit w 31 && fld w 0 10 == q
/-- No entry after `pos` in the lap, or before TAIL, is a READ. -/
def State.lastRead (s : State) (q pos : Nat) : Bool :=
  let n := if s.qCyclic q then s.qLapLen q - (pos + 1) else (s.qTail q + s.qRing q - (pos + 1)) % s.qRing q
  !(List.range n).any (fun i => eOp (s.entWord q ((pos + 1 + i) % s.qRing q)) == 2)
/-- FETCH begins with the first WAIT_RCNT of a lap to complete and ends with its last READ, when TIME writes the
record of the step (12 R352). -/
def State.fetchMark (s : State) (q pos op : Nat) : State :=
  let c := s.qCtx q
  if !s.fetchQueue q then s
  else if op = 4 then s.phStart c (s.cStep c) phFetch
  else if op = 2 && s.lastRead q pos then (s.phEnd c (s.cStep c) phFetch).writePhase c (s.cStep c)
  else s
/-- An entry completes with a status: STATUS is written to its Q0, and a status other than OK and SKIPPED faults the
queue (10 R284, R285). -/
def State.tngStatus (s : State) (q pos op st : Nat) : State :=
  let s1 := s.ctxWrite (s.qCtx q) (s.entAt q pos + 3) [BitVec.ofNat 8 st]
  let s2 := (s1.mapEnt q pos (fun e => { e with status := some st, key := none, pollAt := none, held := false })).countEv
    0xC00000 0x11 1
  let s3 := s2.fetchMark q pos op
  if st = 0 || st = 9 then s3 else s3.qFault q pos
/-- A held FLAG write: sent once every earlier WRITE to its NODE is OK, ORDER once one has failed (10 R282). -/
def State.flagOne (s : State) (q pos : Nat) : State :=
  let es := (s.qx q).ents
  match es.find? (fun e => e.pos == pos && e.held) with
  | none => s
  | some e =>
    let before := (es.takeWhile (fun x => x.pos != pos)).filter (fun x => eOp x.w == 1 && eNode x.w == eNode e.w)
    if before.any (fun x => match x.status with | some st => st != 0 && st != 9 | none => false) then
      s.tngStatus q pos 1 7
    else if before.all (fun x => x.status.isSome) then s.tngIssue q e
    else s
/-- An entry completes, and what follows from it. -/
def State.tngDone (s : State) (q pos st : Nat) : State :=
  let op := match (s.qx q).ents.find? (fun e => e.pos == pos) with | some e => eOp e.w | none => 0
  let s1 := s.tngStatus q pos op st
  let s2 := ((s1.qx q).ents.map (·.pos)).foldl (fun s p => s.flagOne q p) s1
  (tngRetire q (s2.qx q).ents s2).tngLap q

/-! ### Starting entries -/

/-- An entry of an ACTIVE queue is posted and may start: its context can run, TNG 0 is not quiescing (10 R283, R286; 16
Table 16-1), memory is in reach (01 R22). -/
def State.qPosted (s : State) (q : Nat) : Bool :=
  let x := s.qx q
  let st := s.cState (s.qCtx q)
  s.qState q == 1 && !(s.reg 0xC00010).getLsbD 1 && s.tunOpen && st != stFree && st != stParked && st != stFaulted
    && (if s.qCyclic q then decide (x.next < s.qLapLen q) else x.next != s.qTail q)
/-- The queue's mode lets an entry of opcode `op` start (10 R282). -/
def State.qMay (s : State) (q op : Nat) : Bool :=
  let es := (s.qx q).ents
  let busy := es.filter (fun e => e.status.isNone)
  if !s.qRelaxed q || (3 ≤ op && op ≤ 5) then busy.isEmpty
  else
    busy.all (fun e => eOp e.w ≤ 2)
      && ((op != 1 && op != 2) || decide ((busy.filter (fun e => e.key.isSome)).length ≤ s.qf q 0 24 8))
/-- The next entry starts. -/
def State.qBegin (s : State) (q pos w : Nat) : State :=
  let x := s.qx q
  let next := if s.qCyclic q then pos + 1 else (pos + 1) % s.qRing q
  s.setQx q { x with next := next, ents := x.ents ++ [⟨pos, w, none, none, none, false⟩] }
/-- Entries of a skip span complete SKIPPED, up to and including the next with MARK = 1 (10 R282). -/
def skipRun (q : Nat) : Nat → State → State
  | 0, s => s
  | n + 1, s =>
    let x := s.qx q
    if !x.skip || !s.qPosted q then s
    else
      let w := s.entWord q x.next
      let s1 := (s.setQx q { x with skip := !w.testBit 15 }).qBegin q x.next w
      skipRun q n (s1.tngDone q x.next 9)
/-- A queue entry of opcode `op` starts (10 R281, R282); `ecc` says that its local read met an uncorrectable error. -/
def queueStart (q op : Nat) (ecc : Bool) (s : State) : State :=
  let x := s.qx q
  let pos := x.next
  let w := s.entWord q pos
  if !s.qPosted q then s
  else if x.skip then skipRun q (s.qRing q) s
  else if !s.qMay q (eOp w) then s
  else if s.badEntry q w then (s.qBegin q pos w).tngDone q pos 8
  else if eOp w != op then s
  else if op = 1 && s.inFootprint (eLocal w) (eLen w) then s.faultCtx (s.qCtx q)
  else
    let s1 := s.qBegin q pos w
    let e : QEnt := ⟨pos, w, none, none, none, false⟩
    if op = 0 then s1.tngDone q pos 0
    else if op = 3 then s1
    else if op = 1 && ecc then s1.tngDone q pos 5
    else if op = 1 && w.testBit 9 then (s1.mapEnt q pos (fun y => { y with held := true })).flagOne q pos
    else s1.tngIssue q e

/-- QUEUE_NOP (10 R281). -/
def execQueueNop (q : BitVec 10) (s : State) : Host.Outcome State Fault Refusal := done (queueStart q.toNat 0 false s)
/-- QUEUE_WRITE (10 R282). -/
def execQueueWrite (q : BitVec 10) (ecc : Bool) (s : State) : Host.Outcome State Fault Refusal :=
  done (queueStart q.toNat 1 ecc s)
/-- QUEUE_READ (10 R282). -/
def execQueueRead (q : BitVec 10) (s : State) : Host.Outcome State Fault Refusal := done (queueStart q.toNat 2 false s)
/-- WAIT_LCNT (10 R282). -/
def execWaitLcnt (q : BitVec 10) (s : State) : Host.Outcome State Fault Refusal := done (queueStart q.toNat 3 false s)
/-- WAIT_RCNT (10 R282). -/
def execWaitRcnt (q : BitVec 10) (s : State) : Host.Outcome State Fault Refusal := done (queueStart q.toNat 4 false s)
/-- PUBCHK (10 R282). -/
def execPubchk (q : BitVec 10) (s : State) : Host.Outcome State Fault Refusal := done (queueStart q.toNat 5 false s)

/-- WAIT_LCNT_MET: the local count has reached VALUE (10 R282). -/
def waitLcntMet (q : Nat) (s : State) : State :=
  match (s.qx q).ents.find? (fun e => eOp e.w == 3 && e.status.isNone) with
  | none => s
  | some e => if s.eValue q e.w ≤ s.localCount q e.w then s.tngDone q e.pos 0 else s
/-- WAIT_LCNT_MET (10 R282). -/
def execWaitLcntMet (q : BitVec 10) (s : State) : Host.Outcome State Fault Refusal := done (waitLcntMet q.toNat s)

/-- The poll of an entry is due. -/
def pollDue (now : Nat) (e : QEnt) : Bool :=
  match e.pollAt with
  | some t => decide (t ≤ now)
  | none => false
/-- QUEUE_POLL: TNG_QPOLL has passed since a CNT_RESP below VALUE (10 R282). -/
def queuePoll (q : Nat) (s : State) : State :=
  match (s.qx q).ents.find? (pollDue s.time.ktime) with
  | none => s
  | some e => s.tngIssue q e
/-- QUEUE_POLL (10 R282). -/
def execQueuePoll (q : BitVec 10) (s : State) : Host.Outcome State Fault Refusal := done (queuePoll q.toNat s)

/-! ### Doorbell and reset -/

/-- The record satisfies R279. -/
def State.queueOk (s : State) (q : Nat) : Bool :=
  let c := s.qCtx q
  let n := s.qf q 0 16 5
  4 ≤ n && n ≤ 16 && s.qAddr q 1 % (32 * 2 ^ n) == 0 && s.qAddr q 3 % 8 == 0 && (s.qw q 5).toNat % 8 == 0
    && s.inWindow c (s.qAddr q 1) (32 * 2 ^ n) && (s.qAddr q 3 == 0 || s.inWindow c (s.qAddr q 3) 8)
    && s.cTng c && (!s.qCyclic q || decide (s.qf q 6 16 16 < 2 ^ n))
/-- A write of TNG_Q_DB (10 R280, 02 R49); false when it is refused. -/
def tngDb (v : W32) (s : State) : State × Bool :=
  let q := fld v 0 10
  let t := fld v 16 16
  let n := s.qRing q
  let st := s.qState q
  let dist (x : Nat) : Nat := (x + n - s.qHead q) % n
  let cyc := s.qCyclic q
  if s.cState (s.qCtx q) = stFree || st = 2 || (cyc && st = 1) || (!cyc && (n ≤ t || dist t < dist (s.qTail q)))
    then (s.err 0x300000 8, false)
  else if st = 0 && !s.queueOk q then (s.err 0xC00000 13, true)
  else
    let s1 := if cyc then s else s.setQw q 8 (s.qHead q + t * 2 ^ 16)
    (s1.setQw q 9 1, true)
/-- Reset a queue (10 R280). -/
def State.queueReset (s : State) (q : Nat) : State :=
  let x := s.qx q
  let keys := x.ents.filterMap (·.key)
  let s1 := s.cancelWhere (fun m => keys.contains m.key)
  let s2 := (x.ents.filter (fun e => e.status.isNone)).foldl (fun s e =>
    s.ctxWrite (s.qCtx q) (s.entAt q e.pos + 3) [10]) s1
  let s3 := s2.setQx q { x with next := 0, ents := [], skip := false }
  let s4 := ([8, 9, 10, 11, 12] : List Nat).foldl (fun s w => s.setQw q w 0) s3
  { s4 with tng := { s4.tng with locals := s4.tng.locals.filter (fun l => l.queue != q) } }
/-- The queues of a context (10 R280). -/
def State.queuesOf (s : State) (c : Nat) : List Nat :=
  (List.range 1024).filter (fun q => s.qCtx q == c && s.qState q != 0)

/-! ### The target -/

/-- TOP of a message. -/
def Rx.top (r : Rx) : Nat := nfld r.spec 0 3
/-- The oldest complete TONGS message of a TOP; one that reads or writes memory waits while memory is out of reach (01
R22). -/
def State.tngRx (s : State) (top : Nat) : Option Rx :=
  if !s.tunOpen && (top ≤ 1 || top = 3) then none else s.rxFind (fun r => r.key.kind == 4 && r.top == top)
/-- Queue an answer; its port on group 0 is chosen at its first grant (10 R273, 09 R256). -/
def State.tngAnswer (s : State) (r : Rx) (spec : Nat) (payload : Bytes) : State :=
  s.sendShot 5 none { r.key with dst := r.src } 0 spec payload
/-- Send a NAK (10 R275). -/
def State.tngNak (s : State) (r : Rx) (code : Nat) : State :=
  (((s.tngAnswer r (tngSpec 5 false false false 0 0 0 0 code) []).setRegN 0xC00070
    (r.src + r.top * 2 ^ 20 + code * 2 ^ 24 + 2 ^ 31)).bump 0xC00084 1).err 0xC00000 10
/-- Test 1 of 10 Table 10-5. -/
def State.tngBad (s : State) (r : Rx) : Bool :=
  let len := nfld r.spec 59 17
  let sl := r.spec.testBit 4
  let size := (if r.top = 0 then 8 + len else 8) + (if sl then 28 else 0)
  (if r.top = 2 then len != 0 else len == 0 || 65536 < len) || r.len != size || sl != s.cEnc r.key.ctx
/-- Tests 4 to 7: the NAK CODE, or 0. -/
def State.tngCode (s : State) (r : Rx) (pt : Bytes) : Nat :=
  let d := s.cPdom r.key.ctx
  let rights := s.dw d 4
  match s.tkey d with
  | none => 1
  | some key =>
    if !s.cTng r.key.ctx || s.dAddr d 2 = 0 then 1
    else if ofLe (pt.take 8) != key.toNat then 2
    else if !bit rights (if r.top = 0 then 1 else if r.top = 1 then 0 else 2)
        || (r.top == 0 && r.spec.testBit 5 && !bit rights 3) then 3
    else if r.top ≤ 1 && s.dAddr d 2 < nfld r.spec 11 48 + nfld r.spec 59 17 then 4
    else 0
/-- Tests 1 and 2, after test 5 of 09 Table 9-6: the plain payload, or the state in which the request is
discarded. -/
def State.tngTake (s0 : State) (r : Rx) : State ⊕ (State × Bytes) :=
  let s := s0.rxDrop r
  let c := r.key.ctx
  if !s.cRunnable c || s.cGen c != r.key.gen then .inl (s.bump 0xB02054 1)
  else if s.tngBad r then .inl (s.bump 0xC00078 1)
  else
    match s.tngOpen c r.spec r.bytes with
    | none => .inl ((s.bump 0xC0007C 1).integrity c 1 r.src)
    | some pt => .inr (s, pt)
/-- A request's done-list entry. -/
def DoneEnt.isOf (e : DoneEnt) (r : Rx) : Bool :=
  e.src == r.src && e.inc == r.incarn && e.ctx == r.key.ctx && e.gen == r.key.gen && e.queue == r.key.billet
    && e.seq == r.key.step
/-- Write entry `i` of the done list to package memory (10 R278; log entry 44). -/
def State.doneEntry (s : State) (i : Nat) : State :=
  s.listEntry (s.reg64 0xC00064 % 2 ^ 48) (2 ^ s.regF 0xC0006C 0 5) i 32
/-- Write a done-list entry. -/
def State.addDone (s : State) (r : Rx) (a : Option Nat) : State :=
  let e : DoneEnt := ⟨r.src, r.incarn, r.key.ctx, r.key.gen, r.key.billet, r.key.step, a, s.time.ktime⟩
  let t := s.doneEntry s.tng.dones.length
  { t with tng := { t.tng with dones := t.tng.dones ++ [e] } }
/-- The answer of a performed WRITE enters its done-list entry, if that is still there. -/
def State.setDone (s : State) (r : Rx) : State :=
  match s.tng.dones.findIdx? (fun e => e.isOf r) with
  | none => s
  | some i =>
    let t := s.doneEntry i
    { t with tng := { t.tng with dones := t.tng.dones.map (fun (e : DoneEnt) => if e.isOf r then { e with answer := some 0 } else e) } }
/-- TONGS_WRITE at the target (10 R275, R276, R278). -/
def tongsWrite (s0 : State) : State :=
  match s0.tngRx 0 with
  | none => s0
  | some r =>
    match s0.tngTake r with
    | .inl s => s
    | .inr (s, pt) =>
      match s.tng.dones.find? (fun e => e.isOf r) with
      | some e =>
        let s1 := s.bump 0xC00080 1
        match e.answer with
        | none => s1
        | some 0 => s1.ack r 0 0 0 true false
        | some k => s1.tngNak r k
      | none =>
        let code := s.tngCode r pt
        if 2 ^ s.regF 0xC0006C 0 5 ≤ s.tng.dones.length then (s.bump 0xC00088 1).err 0xC00000 11
        else if code != 0 then (s.addDone r (some code)).tngNak r code
        else
          let c := r.key.ctx
          let d := s.cPdom c
          let a := s.dAddr d 0 + nfld r.spec 11 48
          let s1 := ((s.busWrite a (pt.drop 8)).addDone r none).countEv 0xC00000 0x10 1
          let adv := if r.spec.testBit 5 then some (16 * d + nfld r.spec 6 4) else none
          if s.inFootprint a (nfld r.spec 59 17) then s.faultCtx c
          else { s1 with tng := { s1.tng with perf := s1.tng.perf ++ [⟨{ r with segs := [] }, adv, (a, nfld r.spec 59 17)⟩] } }
/-- TONGS_WRITE (10 R276). -/
def execTongsWrite (s : State) : Host.Outcome State Fault Refusal := done (tongsWrite s)

/-- TONGS_WRITE_DONE: the fabric has acknowledged the oldest performed WRITE (10 R276). -/
def tongsWriteDone (s : State) : State :=
  match s.tng.perf with
  | [] => s
  | p :: ps =>
    let s1 := ({ s with tng := { s.tng with perf := ps } }).setDone p.rx
    let s2 := match p.adv with
      | none => s1
      | some i => s1.setArrival (i / 16) (i % 16) ((s1.arrival (i / 16) (i % 16) + 1) % 2 ^ 48)
    s2.ack p.rx 0 0 0 false false
/-- TONGS_WRITE_DONE (10 R276). -/
def execTongsWriteDone (s : State) : Host.Outcome State Fault Refusal := done (tongsWriteDone s)

/-- TONGS_READ at the target (10 R275, R276); `poison` says that the read returned poisoned data or met an
uncorrectable error. -/
def tongsRead (poison : Bool) (s0 : State) : State :=
  match s0.tngRx 1 with
  | none => s0
  | some r =>
    match s0.tngTake r with
    | .inl s => s
    | .inr (s, pt) =>
      let c := r.key.ctx
      let code := s.tngCode r pt
      let a := s.dAddr (s.cPdom c) 0 + nfld r.spec 11 48
      let len := nfld r.spec 59 17
      if code != 0 then s.tngNak r code
      else if s.inFootprint a len then s.faultCtx c
      else if poison then s.tngNak r 5
      else
        let spec := tngSpec 3 false (s.cEnc c) false 0 0 0 len 0
        match s.tngSeal c spec (s.bytes a len) with
        | none => s
        | some (bs, s1) => (s1.countEv 0xC00000 0x10 1).tngAnswer r spec bs
/-- TONGS_READ (10 R276). -/
def execTongsRead (poison : Bool) (s : State) : Host.Outcome State Fault Refusal := done (tongsRead poison s)

/-- CNT_READ at the target (10 R275, R276). -/
def cntRead (s0 : State) : State :=
  match s0.tngRx 2 with
  | none => s0
  | some r =>
    match s0.tngTake r with
    | .inl s => s
    | .inr (s, pt) =>
      let c := r.key.ctx
      let code := s.tngCode r pt
      let v := if r.spec.testBit 10 then s.arrival (s.cPdom c) (nfld r.spec 6 4) else s.cCmplCnt c
      if code != 0 then s.tngNak r code
      else (s.countEv 0xC00000 0x10 1).tngAnswer r (tngSpec 4 false false false 0 0 v 0 0) []
/-- CNT_READ (10 R276). -/
def execCntRead (s : State) : Host.Outcome State Fault Refusal := done (cntRead s)

/-- DONE_EXPIRY: done-list entries leave 32 ms after they were written (10 R278). -/
def doneExpiry (s : State) : State :=
  { s with tng := { s.tng with dones := s.tng.dones.filter (fun e => decide (s.time.ktime < e.at_ + 32000 * usec)) } }
/-- DONE_EXPIRY (10 R278). -/
def execDoneExpiry (s : State) : Host.Outcome State Fault Refusal := done (doneExpiry s)

/-! ### Answers at the requester -/

/-- The request that a response answers (10 R274), with its queue's entry when there is still one. -/
def State.tngHeld (s : State) (r : Rx) : Option (Msg × Option QEnt) :=
  let k := { r.key with dst := r.src }
  match s.qcn.msgs.find? (fun m => m.key == k && !m.gone) with
  | none => none
  | some m => some (m, (s.qx k.billet).ents.find? (fun e => e.key == some k))
/-- A message has been answered: Bellows, which has been charged only if the message has been handed over, and its end (09 R241,
R254). -/
def State.answered (s : State) (m : Msg) (ce o : Nat) : State :=
  (if m.phase = .queued then s else s.onFlow m (fun f => s.bellowsAck f m.charge ce)).endMsg m o
/-- A response that answers nothing (10 R274). -/
def State.stray (s : State) : State := s.bump 0xB02064 1

/-- RRESP: ends a READ, whose data is written locally, or a PUBCHK (10 R282). -/
def rresp (s0 : State) : State :=
  match s0.tngRx 3 with
  | none => s0
  | some r =>
    let s := s0.rxDrop r
    match s.tngHeld r with
    | none => s.stray
    | some (m, e?) =>
      let c := r.key.ctx
      let q := r.key.billet
      if nfld m.spec 0 3 != 1 then s.stray
      else
        match s.tngOpen c r.spec r.bytes with
        | none => s.integrity c 1 r.src
        | some pt =>
          if pt.length != nfld m.spec 59 17 || nfld r.spec 59 17 != nfld m.spec 59 17 || r.spec.testBit 4 != s.cEnc c then s
          else
            let s1 := s.answered m (nfld r.ce 0 20) 0
            match e? with
            | none => s1
            | some e =>
              if eOp e.w = 5 then
                let s2 := s1.setQx q { s1.qx q with skip := (ofLe pt).testBit 48 }
                skipRun q (s2.qRing q) (s2.tngDone q e.pos 0)
              else
                let s2 := (s1.ctxWrite c (eLocal e.w) pt).mapEnt q e.pos (fun y => { y with key := none })
                { s2 with tng := { s2.tng with locals := s2.tng.locals ++ [⟨q, e.pos, eLocal e.w, pt.length⟩] } }
/-- RRESP (10 R282). -/
def execRresp (s : State) : Host.Outcome State Fault Refusal := done (rresp s)

/-- LOCAL_WRITE_ACK: the fabric has acknowledged the oldest local write of READ data (10 R282, R284). -/
def localWriteAck (s : State) : State :=
  match s.tng.locals with
  | [] => s
  | l :: ls => ({ s with tng := { s.tng with locals := ls } }).tngDone l.queue l.pos 0
/-- LOCAL_WRITE_ACK (10 R282). -/
def execLocalWriteAck (s : State) : Host.Outcome State Fault Refusal := done (localWriteAck s)

/-- CNT_RESP: completes a WAIT_RCNT at VALUE, or sets its next poll (10 R282). -/
def cntResp (s0 : State) : State :=
  match s0.tngRx 4 with
  | none => s0
  | some r =>
    let s := s0.rxDrop r
    match s.tngHeld r with
    | none => s.stray
    | some (m, e?) =>
      let q := r.key.billet
      if nfld m.spec 0 3 != 2 then s.stray
      else
        let s1 := s.answered m (nfld r.ce 0 20) 0
        match e? with
        | none => s1
        | some e =>
          if s1.eValue q e.w ≤ nfld r.spec 11 48 then s1.tngDone q e.pos 0
          else s1.mapEnt q e.pos (fun y =>
            { y with key := none, pollAt := some (s.time.ktime + 2 * s.regN 0xC00060) })
/-- CNT_RESP (10 R282). -/
def execCntResp (s : State) : Host.Outcome State Fault Refusal := done (cntResp s)

/-- NAK: ends a request with its CODE as status (10 R285); a reserved CODE is discarded. -/
def nakRx (s0 : State) : State :=
  match s0.tngRx 5 with
  | none => s0
  | some r =>
    let s := s0.rxDrop r
    match s.tngHeld r with
    | none => s.stray
    | some (m, e?) =>
      let code := nfld r.spec 76 4
      if code = 0 || 5 < code then s
      else
        let s1 := s.answered m (nfld r.ce 0 20) 0
        match e? with
        | none => s1
        | some e => s1.tngDone r.key.billet e.pos code
/-- NAK (10 R285). -/
def execNak (s : State) : Host.Outcome State Fault Refusal := done (nakRx s)

/-- The started entry of a request. -/
def State.entOf (s : State) (k : MKey) : Option QEnt :=
  if k.kind = 4 then (s.qx k.billet).ents.find? (fun e => e.key == some k) else none
/-- The ACK of a WRITE completes its entry (10 R282). -/
def State.tngAcked (s : State) (k : MKey) : State :=
  match s.entOf k with
  | some e => if eOp e.w = 1 then s.tngDone k.billet e.pos 0 else s
  | none => s
/-- A request has ended UNKNOWN (10 R282, R285): a poll is sent again, a READ too under REISSUE, else the entry
completes UNKNOWN. -/
def State.tngUnknown (s : State) (k : MKey) : State :=
  match s.entOf k with
  | none => s
  | some e =>
    if eOp e.w = 4 then (s.bump 0xC0008C 1).tngIssue k.billet e
    else if eOp e.w != 1 && s.qReissue k.billet then s.tngIssue k.billet e
    else s.tngDone k.billet e.pos 6

end Sys2Proof.Machine
end

