-- ==== Sys2Proof/Machine/Mash.lean ====
section
/-! DEFINITION. Mash: credit (06 R160, 09 R246), open blocks and their operands (06 R147 to R156), ORIGIN_BLOCK_SEND,
DATA (09 Table 9-6), BLOCK_EMIT (06 R148 to R151, 05 R131, R132) and RELEASE (12 R332, R333). -/
namespace Sys2Proof.Machine
open Sys2Proof

/-! ### Open blocks -/

/-- A block before its first operand (06 R148). -/
def State.newOpen (s : State) (c b n : Nat) : Open :=
  let tk := (s.blockAt c b n).getD (0, 0)
  let e := s.eff tk.1
  let k := s.kind tk.1
  let ne := s.nelem tk.1 e.rot tk.2
  { ctx := c, bslot := b, blk := n, step := s.cStep c, slot := tk.1, tblk := tk.2, nelem := ne, rot := e.rot,
    kind := k, marked := [], own := false, released := false,
    sums := if k = 2 then [] else List.replicate ne 0, marks := if k = 3 then List.replicate ne 0 else [],
    raws := [], dense := k != 0, pos := [], contrib := 0, nonfin := false, winOvf := false, waited := false,
    todo := none, parts := [] }
/-- The same block. -/
def Open.same (a b : Open) : Bool := a.ctx == b.ctx && a.bslot == b.bslot && a.blk == b.blk && a.step == b.step
/-- The open block at a place, new when there is none. -/
def State.openOf (s : State) (c b n : Nat) : Open :=
  let o := s.newOpen c b n
  (s.msh.opens.find? (Open.same o)).getD o
/-- Store an open block. -/
def State.putOpen (s : State) (o : Open) : State :=
  let os := s.msh.opens
  { s with msh := { s.msh with
      opens := if os.any (Open.same o) then os.map (fun x => if o.same x then o else x) else os ++ [o] } }

/-- Marks of the non-finite operands of an element joined (06 R155). -/
def joinMark (a b : Nat) : Nat := if a = 0 then b else if b = 0 || a = b then a else 3
/-- The mark of a binary32 operand. -/
def markOf (x : Nat) : Nat := if isFin f32 x then 0 else if x = f32.inf false then 1 else if x = f32.inf true then 2 else 3
/-- Merge two ascending lists of positions. -/
def unionPos (a b : List Nat) : List Nat :=
  b.foldl (fun acc p => if acc.contains p then acc else insertBy (fun x y => decide (x < y)) p acc) a

/-- The values of a raw block as binary32 patterns. -/
def rawVals (g : Grist) : List Nat := if g.format = 6 then g.codes.map widenB else g.codes
/-- Add an operand (06 R148 to R150, R154 to R156): the block, and how many elements did not fit the Sparge
window. -/
def State.addOperand (s : State) (o : Open) (node : Nat) (g : Grist) : Open × Nat :=
  let o1 := { o with contrib := o.contrib + g.contrib, nonfin := o.nonfin || g.nonfin,
                     winOvf := o.winOvf || g.winOvf }
  match o.kind with
  | 0 =>
    ({ o1 with
        sums := List.zipWith (· + ·) o.sums (gristVals g), dense := o.dense || !g.sparse,
        pos := unionPos o.pos g.pos }, 0)
  | 1 => ({ o1 with sums := List.zipWith (fun a x => sgn 192 (unsgn 192 (a + codeVal 4 x))) o.sums g.codes }, 0)
  | 2 => ({ o1 with raws := o.raws ++ [(node, rawVals g)] }, 0)
  | _ =>
    let top := s.spargeTop o.slot
    let xs := rawVals g
    let ns := xs.map (fun x => if isFin f32 x then windowIn top (decF f32 x) else some 0)
    let excess := (ns.filter Option.isNone).length
    ({ o1 with
        sums := List.zipWith (fun a n => a + n.getD 0) o.sums ns,
        marks := List.zipWith joinMark o.marks (xs.map markOf),
        nonfin := o1.nonfin || xs.any (fun x => !isFin f32 x), winOvf := o1.winOvf || excess != 0 }, excess)
/-- Count window overflows of a slot (06 R155). -/
def State.noteWovf (s : State) (t n : Nat) : State :=
  if n = 0 then s else let x := s.stat t; s.setStat t { x with wovf := satAdd 32 x.wovf n }
/-- Accumulator memory (06 "Staging"): 16 MiB, shared by all contexts. -/
def accMemory : Nat := 2 ^ 24
/-- Whether the accumulator of an open block is resident, as far as R161 says: all are when they fit together; the lowest
blocks of each record come first, so that one is not whose record's blocks up to it do not fit; none where it is open. -/
def State.resident (s : State) (r : Route) (o : Open) : Option Bool :=
  let size (x : Open) : Nat := accW x.kind (((s.routeFor x.ctx x.bslot x.blk).map (·.cmax)).getD 1)
  let os := (s.msh.opens.filter (fun x => !o.same x)) ++ [o]
  let low := os.filter (fun x => x.ctx == o.ctx && x.bslot == o.bslot && r.first ≤ x.blk && x.blk ≤ o.blk)
  if (os.map size).sum ≤ accMemory then some true
  else if accMemory < (low.map size).sum then some false
  else none
/-- An operand is added: MSH event 0x11; and 0x13 when the accumulator is not resident, so that it is read back from IN and
written back (06 R161, 16 R425). DESIGN CHOICE: one event for each such addition; where R161 leaves the order of residency
across records open, a free value decides. The bytes in IN are not modelled. Log entries 45 and 98. -/
def State.accessAcc (s : State) (r : Route) (o : Open) : State :=
  let s1 := s.countEv 0x900000 0x11 1
  match s.resident r o with
  | some true => s1
  | some false => s1.countEv 0x900000 0x13 1
  | none => ({ s1 with fresh := s1.fresh + 1 }).countEv 0x900000 0x13 ((Config.openValue 6 s.fresh).toNat % 2)
/-- An operand that would exceed CMAX is refused (06 R147). -/
def State.contribOver (s : State) : State := (s.bump 0x90005C 1).err 0x900000 13

/-! ### Credit -/

/-- Every operand of a child for a block has been taken, or the block has gone. -/
def State.childDone (s : State) (c : Nat) (r : Route) (i n : Nat) : Bool :=
  (s.emitted c r.bslot).contains n || (s.openOf c r.bslot n).marked.contains i
/-- The child of a raw root whose turn it is (06 R156). -/
def State.turn (s : State) (c : Nat) (r : Route) : Option Nat :=
  let pend := (indexed 0 r.children).filter (fun p =>
    (List.range r.nblk).any (fun j => !s.childDone c r p.1 (r.first + j)))
  pend.foldl (fun x p => match x with | none => some p.2.1 | some y => some (min y p.2.1)) none
/-- WIN that a record grants a child (06 R156, R160). -/
def State.winFor (s : State) (c : Nat) (r : Route) (node : Nat) : Nat :=
  let w := s.win c r
  if s.kindOf c r = 2 && s.isRoot r && s.turn c r != some node then 0 else w
/-- The key of what a record last advertised to a child. -/
def advKey (c : Nat) (r : Route) (i : Nat) : Nat := ((65536 * c + r.bslot) * 2 ^ 20 + r.first) * 256 + i
/-- Note what has been advertised: D, and whether WIN was not zero. -/
def State.setAdv (s : State) (c : Nat) (r : Route) (i d w : Nat) : State :=
  { s with qcn := { s.qcn with adv := s.qcn.adv.set (fun _ => none) (advKey c r i) (some (2 * d + b2n (w != 0))) } }
/-- Send a child the record's credit (09 R246), in KX1 mode a GRANT (R264). One message per key is held: a
queued CREDIT takes the new values; one under way is followed by another when it has been answered. -/
def State.creditTo (s : State) (c : Nat) (r : Route) (i : Nat) : State :=
  match r.children[i]? with
  | none => s
  | some (node, _) =>
    let d := s.dOf c r
    let w := s.winFor c r node
    let billet := s.billetId r.bslot
    if s.cKx1 c then
      let (q, s1) := s.nextSeq node
      let p := kx1Hdr 2 false s.node node billet q 0 1 0 (s.cStep c) (4096 * (d + w))
      (s1.sendMsg ⟨node, c, s.cGen c, s.cStep c, billet % 65536, q, 6⟩ p (billet + r.first * 2 ^ 20) 0 0 false none).setAdv
        c r i d w
    else
      let k : MKey := ⟨node, c, s.cGen c, s.cStep c, billet, r.first, 2⟩
      let spec := r.first + d * 2 ^ 20 + min w 65535 * 2 ^ 40 + r.nblk * 2 ^ 56
      match s.qcn.msgs.find? (fun m => m.key == k) with
      | none => (s.sendMsg k [] spec 0 0 false none).setAdv c r i d w
      | some m => if m.phase = .queued then (s.putMsg { m with spec := spec }).setAdv c r i d w else s
/-- A new credit is due to a child (09 R246; 06 R156 when its turn comes). -/
def State.creditDue (s : State) (c : Nat) (r : Route) (i : Nat) : Bool :=
  match s.qcn.adv.get (fun _ => none) (advKey c r i), r.children[i]? with
  | some a, some (node, _) =>
    let w := s.winFor c r node
    decide (a / 2 + max 1 (s.win c r / 4) ≤ s.dOf c r) || (w != 0 && a % 2 == 0)
  | _, _ => false
/-- Send every credit of a record that is due. -/
def State.refresh (s : State) (c : Nat) (r : Route) : State :=
  r.positions.foldl (fun s i => if s.creditDue c r i then s.creditTo c r i else s) s
/-- The credits that the end of a STEP descriptor sends (09 R246). -/
def State.stepCredits (s : State) (c : Nat) : State :=
  (s.routes c).foldl (fun s r => r.positions.foldl (fun s i => s.creditTo c r i) s) s

/-- Queue a block as DATA, or KX1 DATA, if credit and OUT room allow (06 R160); none when they do not. A context with ENC
whose domain has lost its key sends nothing (04 R114, R116). -/
def State.trySend (s : State) (c b n dst group : Nat) (mash : Bool) (own : Option (Nat × Int × Grist)) (g : Grist) :
    Option State :=
  if !s.mayData c b dst n || s.outBytes c < s.outUsed c + s.outSize c g then none
  else if s.cKx1 c then some (s.sendKx1 c dst group (s.billetId b) n mash g)
  else if s.cEnc c && (s.ctl.keys.get (fun _ => none) (s.cPdom c)).isNone then none
  else
    let (bs, s1) := s.sealBlock c g
    some (s1.sendMsg ⟨dst, c, s.cGen c, s.cStep c, s.billetId b, n, 0⟩ bs 0 bs.length group mash own)

/-! ### The package's own part -/

/-- The own part of the step is done on this package (12 R320): blocks received are complete, own blocks
sent, messages ended or cancelled, hand-overs converted. -/
def State.partDone (s : State) (c : Nat) : Bool :=
  let step := s.cStep c
  (s.routes c).all (fun r => !s.receives r || s.dOf c r == r.first + r.nblk)
  && (s.billetsOf c).all (fun b => s.msh.ownNext.get (fun _ => 0) (bKey c b) == s.billetBlocks c b)
  && !s.qcn.msgs.any (fun m => m.key.ctx == c && m.key.step == step && (m.key.kind == 0 || m.key.kind == 5)
      && !m.cancelled)
  && !s.msh.hands.any (fun h => h.ctx == c)
/-- VERDICT begins when the last Billet of the step is complete here (01 Table 1-4). -/
def State.markVerdict (s : State) (c : Nat) : State :=
  if s.cActive c && (s.hx c).opened != 0 && s.partDone c then s.phStart c (s.cStep c) phVerdict else s

/-- The package's own block has been taken from the codec. -/
def State.ownTaken (s : State) (o : Own) : State :=
  { s with
    pck := { s.pck with own := s.pck.own.filter (fun x =>
      !(x.ctx == o.ctx && x.bslot == o.bslot && x.blk == o.blk && x.step == o.step)) },
    msh := { s.msh with ownNext := s.msh.ownNext.set (fun _ => 0) (bKey o.ctx o.bslot) (o.blk + 1) } }

/-- Add the own contribution to its open block, or fold it when the block was released without it (06 R160,
12 R333, R334); one that is not added leaves the max table (03 R81). -/
def State.addOwn (s : State) (r : Route) (o : Own) : State :=
  let c := o.ctx
  let billet := s.billetId o.bslot
  let left := (s.ownTaken o).uncounted o.slot o.step o.g.block
  let folded := left.carryFold o.slot o.step (s.qOf o.slot) o.g
  let x := s.openOf c o.bslot o.blk
  if (s.emitted c o.bslot).contains o.blk || x.released then (if s.policy c = 1 then folded else left)
  else if s.listed c billet o.blk s.node then (if s.carriedIn c billet o.blk then folded else left)
  else if s.dOf c r + s.win c r ≤ o.blk then s
  else if r.cmax < x.contrib + 1 then (s.ownTaken o).contribOver
  else
    let (y, excess) := s.addOperand x s.node o.g
    (((s.ownTaken o).putOpen { y with own := true }).noteWovf o.slot excess).accessAcc r x

/-! ### DATA -/

/-- Answer DUP (09 Table 9-6 tests 9 and 10). -/
def State.ansDup (s : State) (r : Rx) (rfirst d w : Nat) : State := (s.ack r rfirst d w true false).bump 0xB0205C 1
/-- Answer LATE (tests 10 and 11; 06 R152). -/
def State.ansLate (s : State) (r : Rx) (rfirst d w : Nat) : State :=
  (((s.ack r rfirst d w false true).bump 0xB02060 1).bump 0x900058 1).err 0x900000 14
/-- The cooling list holds (block, SRC). -/
def State.cooled (s : State) (r : Rx) : Bool :=
  s.qcn.cool.any (fun x => x.ctx == r.key.ctx && x.gen == r.key.gen && x.step == r.key.step
    && x.billet == r.key.billet && x.blk == r.key.blk && x.node == r.src)
/-- The close entry of a step. -/
def State.closeOf (s : State) (c gen step : Nat) : Option Close :=
  s.qcn.closes.find? (fun x => x.ctx == c && x.gen == gen && x.step == step)

/-- A block carried another digest (03 R84): counted, recorded with its Billet and sender, and marked in the
verdict contribution. -/
def State.digestBad (s : State) (c billet src : Nat) : State :=
  let s1 := (s.bump 0x500060 1).setGx c { s.gx c with diverge := true }
  let s2 := if (s1.reg 0x500058).getLsbD 31 then s1
    else (s1.setRegN 0x500058 (billet + 2 ^ 31)).setRegN 0x50005C src
  s2.err 0x500000 10

/-- The operand of child `i` counts in its block: the ACK, and credit that becomes due (09 R245, R246). -/
def State.taken (s : State) (x : Rx) (r : Route) (i : Nat) (o : Open) : State :=
  let c := x.key.ctx
  let s1 := s.putOpen { o with marked := o.marked ++ [i] }
  let d := s1.dOf c r
  let w := s1.winFor c r x.src
  (((s1.ack x r.first d w false false).setAdv c r i d w).refresh c r)

/-- Test 8 of 09 Table 9-6 for a block that passed checks 1 to 3: check 4 (03 R82, R84), R147, and the
addition. -/
def State.operand (s : State) (x : Rx) (r : Route) (i : Nat) (g : Grist) : State :=
  let c := x.key.ctx
  let b := r.bslot
  let o := s.openOf c b x.key.blk
  let s1 := (if s.cEnc c then s.countEv 0x800000 0x11 1 else s).countEv 0x500000 0x11 1
  if g.digest != s.digest c b x.key.step then (s1.digestBad c x.key.billet x.src).taken x r i o
  else if r.cmax < o.contrib + g.contrib then s1.contribOver
  else
    let (y, excess) := s.addOperand o x.src g
    let s2 := if g.nonfin then s1.svFlag o.slot 0x1000 else s1
    let s3 := if g.winOvf then s2.setGx c { s2.gx c with winOvf := true } else s2
    ((s3.noteWovf o.slot excess).accessAcc r o).taken x r i y

/-- A complete DATA message (09 Table 9-6 tests 5 and 7 to 11). Once the step has its close entry nothing is added any more
(R248), and test 10 decides; the TSEND clause of test 11, which supposes such an entry, comes after it and so decides nothing. -/
def State.dataRx (s0 : State) (x : Rx) : State :=
  let s := s0.rxDrop x
  let c := x.key.ctx
  let n := x.key.blk
  if !s.cRunnable c || s.cGen c != x.key.gen then s.bump 0xB02054 1
  else if s.cStep c < x.key.step then s.bump 0xB02058 1
  else
    match s.billetSlot c x.key.billet with
    | none => s.bump 0xB02048 1
    | some b =>
      match s.routeFor c b n with
      | none => s.bump 0xB02048 1
      | some r =>
        match r.childPos x.src with
        | none => s.bump 0xB02048 1
        | some i =>
          let now := x.key.step == s.cStep c
          let d := if now then s.dOf c r else r.first + r.nblk
          let w := s.winFor c r x.src
          let told (t : State) : State := if now then t.setAdv c r i d w else t
          if (s.closeOf c x.key.gen x.key.step).isSome || (now && (s.emitted c b).contains n) then
            told (if s.cooled x then s.ansLate x r.first d w else s.ansDup x r.first d w)
          else if !now then s.ansLate x r.first d w
          else
            let o := s.openOf c b n
            if o.marked.contains i then told (s.ansDup x r.first d w)
            else if o.released || s.listed c x.key.billet n x.src then told (s.ansLate x r.first d w)
            else
              match s.checkBlock c b n x.bytes with
              | .inr k => s.integrity c k x.src
              | .inl g => s.operand x r i g
/-- DATA: the oldest complete DATA message; none while MSH 0 quiesces (16 Table 16-1). -/
def dataMsg (s : State) : State :=
  if (s.reg 0x900010).getLsbD 1 then s
  else match s.rxFind (fun r => r.key.kind == 0) with | none => s | some x => s.dataRx x
/-- DATA (09 R247). -/
def execData (s : State) : Host.Outcome State Fault Refusal := done (dataMsg s)

/-! ### BLOCK_EMIT -/

/-- Children whose operand is not expected: those that the replayed record lists (12 R338). -/
def State.skips (s : State) (o : Open) (node : Nat) : Bool := s.listed o.ctx (s.billetId o.bslot) o.blk node
/-- A block is complete (06 R148, 12 R338). -/
def State.isComplete (s : State) (r : Route) (o : Open) : Bool :=
  o.released
    || ((indexed 0 r.children).all (fun p => o.marked.contains p.1 || s.skips o p.2.1)
        && (r.final || o.own || s.skips o s.node))

/-- A binary32 summation result became non-finite from finite addends (05 Table 5-5). -/
def accOvf (xs : List Nat) (y : Nat) : Bool := !isFin f32 y && xs.all (isFin f32)
/-- The raw sum of one element: the operands in ascending logical node ID (06 R156). -/
def rawSum (cmax : Nat) (xs : List Nat) : Nat := if cmax ≤ 4096 then compensated xs else chunked xs
/-- The sums of a raw block and the elements that overflowed. -/
def rawSums (cmax : Nat) (o : Open) : List (Nat × Bool) :=
  let ops := (sortBy (fun a b => decide (a.1 < b.1)) o.raws).map (·.2)
  (List.range o.nelem).map (fun i =>
    let xs := ops.map (fun v => v.getD i 0)
    let y := rawSum cmax xs
    (y, accOvf xs y))
/-- The elements of a Sparge block (06 R155). -/
def State.spargeSums (s : State) (o : Open) : List (Nat × Bool) :=
  List.zipWith (fun n m =>
    if m = 0 then
      let y := windowOut f32 (s.spargeTop o.slot) n
      (y, !isFin f32 y)
    else (if m = 1 then f32.inf false else if m = 2 then f32.inf true else f32.qnan, false)) o.sums o.marks
/-- The complete sums of a block: integers for coded and W192, binary32 patterns otherwise, zero at CONTRIB 0
(06 R151); and whether a binary32 sum overflowed. -/
def State.blockSums (s : State) (r : Route) (o : Open) : List Int × List Nat × Bool :=
  if o.contrib = 0 then (List.replicate o.nelem 0, List.replicate o.nelem 0, false)
  else if o.kind ≤ 1 then (o.sums, [], false)
  else
    let ys := if o.kind = 2 then rawSums r.cmax o else s.spargeSums o
    ([], ys.map (·.1), ys.any (·.2))

/-- Sparse form is shorter (06 R150). -/
def sparseWins (npos nelem w : Nat) : Bool :=
  decide (pad8 (cdiv (12 * npos) 8) + pad8 (cdiv (npos * w) 8) < pad8 (cdiv (nelem * w) 8))
/-- The block that Mash emits or delivers (06 R149, R150). -/
def State.emitGrist (s : State) (r : Route) (o : Open) (deliver : Bool) : Grist :=
  let (sums, raw, ovf) := s.blockSums r o
  let g := s.gristOf o.slot o.tblk o.step
  let w := if r.lane = 0 && !deliver then 16 else 32
  let sparse := o.kind == 0 && !o.dense && sparseWins o.pos.length o.nelem w
  { g with
    format := if o.kind = 0 then (if w = 16 then 8 else 9) else if o.kind = 1 then 4 else 5,
    nelem := o.nelem, sparse := sparse, rot := o.rot, pos := if sparse then o.pos else [],
    codes := match o.kind with
      | 0 => (if sparse then o.pos.map (fun p => sums.getD p 0) else sums).map (unsgn w)
      | 1 => sums.map (unsgn 192)
      | _ => raw,
    contrib := o.contrib, nonfin := o.nonfin || ovf, winOvf := o.winOvf }

/-- Used update records of a slot, ascending (08 R206, R208). -/
def State.recsOf (s : State) (t : Nat) : List Nat :=
  (usedIds 48 s.updR).filter (fun u => s.uf u 0 0 16 == t
    && s.uCtx u == s.slotCtx t)
/-- An element of a slot, or with ROT its group, lies in the range of a record. -/
def State.owns (s : State) (u : Nat) (rot : Bool) (i : Nat) : Bool :=
  let hi := s.ownFirst u + s.ownLen u
  s.ownFirst u ≤ i && i < (if rot then padTo 256 hi else hi)

/-- M of a block's owned elements (05 R131). -/
def State.blockMax (s : State) (o : Open) (sums : List Int) : Nat :=
  let us := s.recsOf o.slot
  (indexed 0 sums).foldl (fun m p =>
    if us.any (fun u => s.owns u o.rot (4096 * o.tblk + p.1)) then max m p.2.natAbs else m) 0
/-- The check of 05 R131 passes for a largest magnitude M. -/
def State.rangeOk (s : State) (o : Open) (m : Nat) : Bool :=
  let q := s.qOf o.slot
  if o.kind = 0 then
    vlt (vshift (qk q + (if o.rot then 8 else 0)) (vmul (.fin false m 0) (decF f32 (upC (qj q)))))
      (.fin false 1 120)
  else if o.kind = 1 then vlt (.fin false m (s.topOf o.slot - 170)) (.fin false 1 1000)
  else true

/-- Hand the owned elements of a complete block to the update unit, after the check of 05 R131. -/
def State.handOver (s : State) (r : Route) (o : Open) : State :=
  let (sums, raw, ovf) := s.blockSums r o
  let us := s.recsOf o.slot
  let owned := (List.range o.nelem).any (fun i => us.any (fun u => s.owns u o.rot (4096 * o.tblk + i)))
  let s0 := if ovf then s.svFlag o.slot 0x80 else s
  if !owned then s0.phEnd o.ctx o.step phReduce
  else
    let m := max (s.msh.maxSum.get (fun _ => 0) o.slot) (s.blockMax o sums)
    let h : Hand := ⟨o.ctx, o.bslot, o.blk, o.step, o.slot, o.tblk, o.rot, o.kind, sums, raw, o.contrib⟩
    let s1 := { s0 with msh := { s0.msh with
      hands := s0.msh.hands ++ [h], maxSum := s0.msh.maxSum.set (fun _ => 0) o.slot m } }
    (if s.rangeOk o m then s1 else s1.svFlag o.slot 0x100).phEnd o.ctx o.step phReduce

/-- Entries that a replayed release records (12 R333, R338). -/
def State.replayEntries (s : State) (r : Route) (o : Open) : State :=
  if s.policy o.ctx != 3 then s
  else
    match s.manIn o.ctx o.step with
    | none => s
    | some (_, es) =>
      (es.filter (fun e => nfld e 80 18 == s.node && nfld e 22 20 == s.billetId r.bslot && nfld e 42 20 == o.blk)).foldl
        (fun s e => s.addMan o.ctx e) s

/-- The children of a block that were not added to it. -/
def State.notAddedTo (_ : State) (r : Route) (o : Open) : List Nat :=
  ((indexed 0 r.children).filter (fun p => !o.marked.contains p.1)).map (fun p => p.2.1)
/-- The nodes that a complete block of a record goes to. -/
def State.emitTo (s : State) (r : Route) : List Nat :=
  if r.final then [] else if s.isRoot r then r.deliv.map (·.1) else [r.parent]
/-- A complete block is first handed over: the cooling entries of children not added (09 R248), the owner's
elements at a root or a FINAL record, and the nodes that it goes to. -/
def State.startEmit (s : State) (r : Route) (o : Open) : State :=
  let c := o.ctx
  let miss := s.notAddedTo r o
  if !s.coolRoom miss.length then
    if o.waited then s else (s.putOpen { o with waited := true }).coolFull c
  else
    let cs := miss.map (fun n => (⟨c, s.cGen c, o.step, s.billetId o.bslot, o.blk, n⟩ : Cool))
    let s1 := s.addCool cs
    let s2 := if s.isRoot r || r.final then s1.handOver r o
      else if (s.blockSums r o).2.2 then s1.svFlag o.slot 0x80 else s1
    (s2.replayEntries r o).putOpen { o with todo := some (s.emitTo r) }

/-- Send a handed-over block to the nodes it goes to, in order, while credit and OUT room allow. -/
def State.sendTodo (s : State) (r : Route) (o : Open) : List Nat → State × List Nat
  | [] => (s, [])
  | n :: ns =>
    match s.trySend o.ctx o.bslot o.blk n r.pgrp true none (s.emitGrist r o (s.isRoot r)) with
    | none => (s, n :: ns)
    | some t =>
      ((((t.phStart o.ctx o.step phPack).phEnd o.ctx o.step phPack).countEv 0x900000 0x12 1)).sendTodo r o ns

/-- The block has been emitted: it leaves the accumulators, D may advance and credit may become due. -/
def State.endEmit (s : State) (r : Route) (o : Open) : State :=
  let k := bKey o.ctx o.bslot
  let s1 := { s with msh := { s.msh with
    opens := s.msh.opens.filter (fun x => !o.same x),
    emitted := s.msh.emitted.set (fun _ => []) k (s.emitted o.ctx o.bslot ++ [o.blk]) } }
  (s1.refresh o.ctx r).markVerdict o.ctx

/-- BLOCK_EMIT: a complete block is handed over, sent to its parent or deliveries, and leaves (06 R148 to R151).
Deliveries that lack credit or OUT room are sent by a later BLOCK_EMIT. -/
def blockEmit (c b n : Nat) (s : State) : State :=
  match s.routeFor c b n with
  | none => s
  | some r =>
    let o0 := s.openOf c b n
    if !s.cActive c || (s.hx c).opened = 0 || !s.receives r || (s.emitted c b).contains n || !s.isComplete r o0
      then s
    else
      let s1 := if o0.todo.isSome then s else s.startEmit r o0
      let o := s1.openOf c b n
      match o.todo with
      | none => s1
      | some ns =>
        let (s2, rest) := s1.sendTodo r o ns
        if rest = [] then s2.endEmit r o else s2.putOpen { o with todo := some rest }
/-- BLOCK_EMIT (06 R148). -/
def execBlockEmit (c : Ctx) (bslot : W16) (blk : BitVec 20) (s : State) : Host.Outcome State Fault Refusal :=
  done (blockEmit c.toNat bslot.toNat blk.toNat s)

/-! ### ORIGIN_BLOCK_SEND -/

/-- A complete block that BLOCK_EMIT can hand to Quicon now (06 R149, R162). -/
def State.emitReady (s : State) (o : Open) : Bool :=
  match s.routeFor o.ctx o.bslot o.blk with
  | none => false
  | some r =>
    let can (n : Nat) : Bool := (s.trySend o.ctx o.bslot o.blk n r.pgrp true none (s.emitGrist r o (s.isRoot r))).isSome
    s.cActive o.ctx && (s.hx o.ctx).opened != 0 && o.step == s.cStep o.ctx && s.receives r
      && !(s.emitted o.ctx o.bslot).contains o.blk && s.isComplete r o
      && (match (match o.todo with | some ns => ns | none => s.emitTo r) with
          | [] => false
          | n :: _ => (o.todo.isSome || s.coolRoom (s.notAddedTo r o).length) && can n)
/-- ORIGIN_BLOCK_SEND: the next quantised block of a Billet is sealed and queued, or becomes the own contribution
of its open block (06 R148, R160); under a FINAL record nothing is added (log entry 14). A block for the parent waits while an
emitted one can go: emitted blocks go first when both wait (R162). -/
def originBlockSend (c b : Nat) (s : State) : State :=
  let n := s.msh.ownNext.get (fun _ => 0) (bKey c b)
  let step := s.cStep c
  let has := s.pck.own.find? (fun o => o.ctx == c && o.bslot == b && o.blk == n && o.step == step)
  if !s.cActive c || (s.hx c).opened = 0 then s
  else
    match has, s.routeFor c b n with
    | some o, some r =>
      if r.final then (s.ownTaken o).markVerdict c
      else if r.children.isEmpty && r.parent != s.node then
        if s.carriedIn c (s.billetId b) n then
          (((s.ownTaken o).uncounted o.slot step o.g.block).foldOwn c step o.slot (s.qOf o.slot) o.g (s.billetId b) n
            ).markVerdict c
        else if s.msh.opens.any s.emitReady then s
        else
          match s.trySend c b n r.parent r.pgrp false (some (o.slot, s.qOf o.slot, o.g)) o.g with
          | none => s
          | some t => ((t.ownTaken o).phStart c step phPack).phEnd c step phPack
      else (s.addOwn r o).markVerdict c
    | _, _ => s
/-- ORIGIN_BLOCK_SEND (06 R160). -/
def execOriginBlockSend (c : Ctx) (bslot : W16) (s : State) : Host.Outcome State Fault Refusal :=
  done (originBlockSend c.toNat bslot.toNat s)

/-! ### RELEASE -/

/-- Release one block: a MISSING entry for each child not added; the own contribution carried or missing
(12 R333). -/
def State.releaseBlock (s : State) (c : Nat) (r : Route) (n : Nat) : State :=
  let o := s.openOf c r.bslot n
  let billet := s.billetId r.bslot
  if (s.emitted c r.bslot).contains n || s.isComplete r o then s
  else
    let miss := (indexed 0 r.children).filter (fun p => !o.marked.contains p.1)
    let s1 := miss.foldl (fun s p => s.addMan c (manEntry p.2.1 0 billet n p.2.2 s.node)) s
    let s2 :=
      if o.own then s1
      else
        let s3 := s1.uncounted o.slot o.step o.tblk
        if s.policy c = 1 && s.foldable o.slot then s3.addCarried c billet n
        else s3.addMan c (manEntry s.node 0 billet n 1 s.node)
    s2.putOpen { o with released := true }
/-- The release time of the open step has come (12 R332). -/
def State.releaseDue (s : State) (c : Nat) : Bool :=
  (s.policy c == 1 || s.policy c == 2) && (s.gw c 7).toNat != 0 && s.cRunnable c && (s.hx c).opened != 0
    && !(s.gx c).released && (s.verdictOf c (s.cStep c)).isNone
    && decide ((s.hx c).stepEnd + ((s.gw c 7).toNat + (s.gw c 8).toNat) * usec ≤ s.time.ktime)
/-- RELEASE: at RT, Guard releases the blocks of the step that the package receives under records that are not
FINAL (12 R332). -/
def release (c : Nat) (s : State) : State :=
  if !s.releaseDue c then s
  else
    let rs := (s.routes c).filter (fun r => s.receives r && !r.final)
    let s1 := rs.foldl (fun s r => (List.range r.nblk).foldl (fun s j => s.releaseBlock c r (r.first + j)) s) s
    (s1.setGx c { s1.gx c with released := true }).countEv 0xE01000 0x12 1
/-- RELEASE (12 R332). -/
def execRelease (c : Ctx) (s : State) : Host.Outcome State Fault Refusal := done (release c.toNat s)

end Sys2Proof.Machine
end

