-- ==== Sys2Proof/Machine/Owner.lean ====
section
/-! DEFINITION. OWNER_FRONT (08 R209, R210; 05 R132), the owner's sum of squares (06 R164) and the lock-step
signatures (12 R350, R351). -/
namespace Sys2Proof.Machine
open Sys2Proof

/-! ### Lock-step signatures -/

/-- LOCKSTEP of a context (12 Table 12-1). -/
def State.lockstep (s : State) (c : Nat) : Bool := bit (s.gw c 0) 2
/-- An element is compared: it lies in a record of ROLE = LS_ROLE (12 R350). -/
def State.compared (s : State) (t i : Nat) : Bool :=
  (s.recsOf t).any (fun u => bit (s.uw u 0) 23 == bit (s.gw (s.slotCtx t) 0) 3 && s.owns u false i)
/-- A block has a compared element. -/
def State.hasCompared (s : State) (t k : Nat) : Bool :=
  (List.range (min 4096 (s.len t - 4096 * k))).any (fun i => s.compared t (4096 * k + i))
/-- The words of one element's sum (12 R350). -/
def Hand.words (h : Hand) (i : Nat) : List W64 :=
  match h.kind with
  | 0 => [BitVec.ofInt 64 (h.sums.getD i 0)]
  | 1 =>
    let x := unsgn 192 (h.sums.getD i 0)
    [BitVec.ofNat 64 x, BitVec.ofNat 64 (x >>> 64), BitVec.ofNat 64 (x >>> 128)]
  | _ => [BitVec.ofNat 64 (h.raw.getD i 0)]
/-- SIG_BLOCK of 12 R350. -/
def State.sigBlock (s : State) (h : Hand) : W64 :=
  let z0 := mix (BitVec.ofNat 64 (s.tensor h.slot * 2 ^ 28 + h.tblk) ^^^ kA)
  let z1 := mix (z0 ^^^ BitVec.ofNat 64 h.contrib)
  let is_ := (List.range (s.nelem h.slot false h.tblk)).filter (fun i => s.compared h.slot (4096 * h.tblk + i))
  is_.foldl (fun z i => (h.words i).foldl (fun z w => mix (z ^^^ w)) z) z1
/-- The Billet block numbers of a Billet that have a compared element, in Billet order. -/
def State.comparedBlocks (s : State) (c b : Nat) : List Nat :=
  (List.range (s.billetBlocks c b)).filter (fun n =>
    match s.blockAt c b n with | some (t, k) => s.hasCompared t k | none => false)
/-- The hashes of a Billet in Billet order, when every one is there. -/
def State.billetHashes (s : State) (c b : Nat) : Option (List W64) :=
  allSome ((s.comparedBlocks c b).map (fun n =>
    ((s.gx c).hashes.find? (fun h => h.1 == b && h.2.1 == n)).map (·.2.2)))
/-- SIG_BILLET of 12 R350. -/
def sigBillet (step : Nat) (hs : List W64) : W64 :=
  hs.foldl (fun z h => mix (z ^^^ h)) (mix (BitVec.ofNat 64 step ^^^ kB))

/-- Compare the two signatures of a Billet once both are there; when they differ, send the block hashes
(12 R351). -/
def State.compareSigs (s : State) (c b : Nat) : State :=
  let g := s.gx c
  match g.sigs.find? (fun x => x.1 == b), g.peer.find? (fun x => x.1 == s.cStep c && x.2.1 == b) with
  | some x, some y =>
    if g.compared.contains b then s
    else
      let s1 := s.setGx c { g with compared := g.compared ++ [b], lsMis := g.lsMis || x.2 != y.2.2 }
      if x.2 = y.2.2 then s1
      else
        let hs := ((s.billetHashes c b).getD []).map (fun h => leBytes 8 h.toNat)
        (s1.guardSend (fld (s.gw c 4) 0 18) c (s.cGen c) (s.cStep c) (s.billetId b) 10 0 0 hs.flatten).err 0xE01000 12
  | _, _ => s
/-- A Billet whose compared blocks are all hashed is signed and the signature sent (12 R351). -/
def State.signBillet (s : State) (c b : Nat) : State :=
  let g := s.gx c
  if !s.lockstep c || g.sigs.any (fun x => x.1 == b) then s
  else
    match s.billetHashes c b with
    | none => s
    | some hs =>
      let z := sigBillet (s.cStep c) hs
      let s1 := (s.setGx c { g with sigs := g.sigs ++ [(b, z)] }).guardSend (fld (s.gw c 4) 0 18) c (s.cGen c)
        (s.cStep c) (s.billetId b) 9 0 0 (leBytes 8 z.toNat)
      s1.compareSigs c b
/-- Where the LS area keeps the hash of a block: 8 bytes for each block of the context's Billets, in Billet order. DESIGN
CHOICE: the manual gives no layout (log entry 44). -/
def State.lsAt (s : State) (c b blk : Nat) : Nat :=
  let before := (s.billetsOf c).takeWhile (fun x => x != b)
  s.gAddr c 17 + 8 * ((before.map (s.billetBlocks c)).sum + blk)
/-- A block reaches OWNER_FRONT in lock-step: its hash is kept, here and in the LS area, and its Billet signed when complete
(12 R350). -/
def State.hashHand (s : State) (h : Hand) : State :=
  let c := h.ctx
  if !s.lockstep c then s
  else
    let g := s.gx c
    let s1 := if s.hasCompared h.slot h.tblk
      then (s.setGx c { g with hashes := g.hashes ++ [(h.bslot, h.blk, s.sigBlock h)] }).ctxWrite c (s.lsAt c h.bslot h.blk)
        (leBytes 8 (s.sigBlock h).toNat)
      else s
    s1.signBillet c h.bslot

/-! ### OWNER_FRONT -/

/-- Bytes of one element of a record's arithmetic format. -/
def State.uBytes (s : State) (u : Nat) : Nat := if bit (s.uw u 0) 22 then 8 else 4
/-- The arithmetic format of a record: binary64 when MFMT = 1. -/
def State.uFmt (s : State) (u : Nat) : Fmt := if bit (s.uw u 0) 22 then f64 else f32
/-- Where the bank of a step begins (08 R210). -/
def State.bankAt (s : State) (u step : Nat) : Nat :=
  s.uAddr u 14 + step % (s.slowD u + 1) * padTo 4096 (s.ownLen u * s.uBytes u)

/-- z of 08 R209 for every element of a block, with whether it underflowed (05 Table 5-5 OUT_UND). -/
def State.ownerZ (s : State) (h : Hand) : List (Nat × Bool) :=
  match h.kind with
  | 0 => h.sums.map (fun n =>
      let z := scaleUp n (s.qOf h.slot)
      (z, n != 0 && nfld z 23 8 == 0))
  | 1 => h.sums.map (fun n =>
      let z := windowOut f64 (s.topOf h.slot) n
      (z, n != 0 && nfld z 52 11 == 0))
  | _ => h.raw.map (fun x => (x, false))
/-- The mean gradients of the block (08 R209), before the division. -/
def State.ownerG (s : State) (h : Hand) : List Nat :=
  let z := (s.ownerZ h).map (·.1)
  if h.kind = 0 && h.rot then byGroups (unrotate (s.seed h.slot h.step)) (4096 * h.tblk) z else z
/-- The mean gradient from z and the divisor (06 R151). -/
def divG (f : Fmt) (contrib z : Nat) : Nat := if contrib ≤ 1 then z else fdiv f z (ofIntF f contrib)

/-- Count elements written to a record's bank for a step; an earlier step's count of the same bank ends. -/
def State.countBank (s : State) (u step n : Nat) : State :=
  let d := s.slowD u + 1
  let old := ((s.upd.banks.find? (fun b => b.urec == u && b.step == step)).map (·.count)).getD 0
  let rest := s.upd.banks.filter (fun b => !(b.urec == u && b.step % d == step % d))
  { s with upd := { s.upd with banks := rest ++ [⟨u, step, old + n⟩] } }
/-- Write a block's mean gradients into the bank of one record (08 R209, R210). -/
def State.toBank (s : State) (h : Hand) (gs : List Nat) (u : Nat) : State :=
  let base := 4096 * h.tblk
  let lo := max base (s.ownFirst u)
  let hi := min (min (base + gs.length) (s.ownFirst u + s.ownLen u)) (s.len h.slot)
  if hi ≤ lo then s
  else
    let f := s.uFmt u
    let n := s.uBytes u
    let vs := ((gs.drop (lo - base)).take (hi - lo)).map (divG f h.contrib)
    (s.ctxWrite h.ctx (s.bankAt u h.step + n * (lo - s.ownFirst u)) ((vs.map (leBytes n)).flatten)).countBank u h.step
      (hi - lo)
/-- Owned groups of a block: the inverse rotations of the Swage unit (15 SWG page 0). -/
def State.ownedGroups (s : State) (h : Hand) : Nat :=
  let us := s.recsOf h.slot
  ((List.range (cdiv h.sums.length 256)).filter (fun k =>
    us.any (fun u => s.owns u true (4096 * h.tblk + 256 * k)))).length

/-- OWNER_FRONT: the oldest hand-over is converted into the gradient banks (08 R209); one that needs the inverse rotation
waits while SWG 0 quiesces (15 Table 15-1). A U_APPLY is one indivisible command, so none reads a bank meanwhile (R210). -/
def ownerFront (s : State) : State :=
  match s.msh.hands with
  | [] => s
  | h :: hs =>
    if h.kind = 0 && h.rot && (s.reg 0x600010).getLsbD 1 then s
    else
      let s0 := { s with msh := { s.msh with hands := hs } }
      let gs := s.ownerG h
      let us := s.recsOf h.slot
      let und := (indexed 0 (s.ownerZ h)).any (fun p => p.2.2 && us.any (fun u => s.owns u h.rot (4096 * h.tblk + p.1)))
      let s1 := if und then s0.svFlag h.slot 0x200 else s0
      let s2 := if h.kind = 0 && h.rot then s1.bumpWide 0x600048 (s.ownedGroups h) else s1
      let s3 := us.foldl (fun s u => s.toBank h gs u) s2
      ((s3.hashHand h).markVerdict h.ctx).touch h.ctx
/-- OWNER_FRONT (08 R209). -/
def execOwnerFront (s : State) : Host.Outcome State Fault Refusal := done (ownerFront s)

/-! ### SSQ -/

/-- A bank that the owner's SSQ of a step reads reaches a Malt footprint, so that the read is not made (11 R292). -/
def State.ssqBlocked (s : State) (c step : Nat) : Bool :=
  ((s.slotsOf c).filter s.statSsq).any (fun t => (s.recsOf t).any (fun u =>
    !bit (s.uw u 0) 23 && s.inFootprint (s.bankAt u step) (s.uBytes u * s.ownLen u)))
/-- The owner's SSQ of a slot for a step (06 R164, 08 R208): g² over the elements of its ROLE = 0 records in
ascending element index, from the gradient banks. -/
def State.ownSsq (s : State) (t step : Nat) : Nat :=
  let us := (s.recsOf t).filter (fun u => !bit (s.uw u 0) 23)
  let us := us.foldl (fun acc u => insertBy (fun a b => decide (s.ownFirst a < s.ownFirst b)) u acc) []
  us.foldl (fun x u =>
    let n := s.uBytes u
    let gs := (chunks n (s.bytes (s.bankAt u step) (n * s.ownLen u))).map ofLe
    gs.foldl (fun x g => fadd f64 x (if n = 8 then fmul f64 g g else sq32 g)) x) 0

end Sys2Proof.Machine
end

