-- ==== Sys2Proof/Machine/Rules.lean ====
section
/-! DEFINITION. The arithmetic of the update rules (08): moments (R220, R221), element-wise rules (R218, R219), Newton–Schulz
(R225) and Kiln (R226, R228), with the held units of 05 R133. -/
namespace Sys2Proof.Machine
open Sys2Proof

/-! ### Moments, R220 -/

/-- Moment quantiser: QMAX, BIAS and the largest exponent. -/
structure MFmt where
  qmax : Nat
  bias : Nat
  emax : Nat
  deriving DecidableEq, Repr

/-- First or second moments under MFMT. -/
def mfmt (second wide : Bool) : MFmt := ⟨if second then 255 else 127, if wide then 1066 else 134, if wide then 2082 else 255⟩
/-- a ≤ QMAX × s(E). -/
def fitsE (m : MFmt) (a : FVal) (e : Nat) : Bool := !vlt (.fin false m.qmax ((e : Int) - m.bias)) a
/-- The smallest exponent in range that holds the largest magnitude, else EMAX. -/
def chooseE (m : MFmt) (f : Fmt) (xs : List Nat) : Nat :=
  let a := (xs.map (fabsBits f)).foldl max 0
  match decF f a with
  | .fin _ n e =>
    if n = 0 then 0
    else
      let t : Int := (Nat.log2 n : Int) + e + m.bias - 8
      match (List.range 5).find? (fun k : Nat => fitsE m (decF f a) (t + (k : Int)).toNat) with
      | some k => min (t + (k : Int)).toNat m.emax
      | none => m.emax
  | _ => m.emax
/-- MQ: the exponent, the codes and how many were clamped. -/
def mq (m : MFmt) (f : Fmt) (xs : List Nat) : Nat × List Int × Nat :=
  let e := chooseE m f xs
  let cs := xs.map (fun x => rneInt (vshift ((m.bias : Int) - e) (decF f x)))
  let q : Int := m.qmax
  (e, cs.map (fun c => min (max c (-q)) q), (cs.filter (fun c => decide (q < c) || decide (c < -q))).length)
/-- A decoded code: c × s(E), exact. -/
def unq (m : MFmt) (f : Fmt) (e : Nat) (c : Int) : Nat := encF f (ofInt false c ((e : Int) - m.bias))

/-! ### Element-wise rules, R219 -/

/-- The numbers a rule works with. -/
structure Par where
  f : Fmt
  rule : Nat
  nest : Bool
  fact : Bool
  scale : Bool
  eta : Nat
  wd : Nat
  b1 : Nat
  b2 : Nat
  eps : Nat
  ob1 : Nat
  ob2 : Nat
  c1 : Nat
  c2 : Nat
  deriving DecidableEq, Repr

/-- One element: gradient, decoded moments, factored second moment or group mean, master. -/
structure Elem where
  g : Nat
  m : Nat
  v : Nat
  fv : Nat
  a : Nat
  w : Nat
  deriving DecidableEq, Repr

/-- APPLY of R219: every value it forms, the last one the new master. -/
def applyW (p : Par) (w d : Nat) : List Nat :=
  let t := ffma p.f p.wd w d
  [t, ffma p.f (fneg p.f p.eta) t w]
/-- What a rule makes of an element: the new moments and master, and every value formed on the way. -/
def ruleElem (p : Par) (x : Elem) : Nat × Nat × Nat × List Nat :=
  let f := p.f
  let fin (m v d : Nat) (ts : List Nat) : Nat × Nat × Nat × List Nat :=
    let ws := applyW p x.w d
    (m, v, ws.getLastD 0, m :: v :: d :: (ws ++ ts))
  let vNew (_ : Unit) : List Nat :=
    let g2 := fmul f x.g x.g
    let t := fmul f p.ob2 g2
    [ffma f p.b2 x.v t, g2, t]
  let den (v : Nat) : List Nat :=
    let h := fdiv f v p.c2
    let r := fsqrt f h
    [fadd f r p.eps, h, r]
  match p.rule with
  | 0 =>
    let m := ffma f p.b1 x.m x.g
    fin m 0 (if p.nest then ffma f p.b1 m x.g else m) []
  | 1 =>
    let vs := vNew ()
    let v := vs.headD 0
    let ds := den v
    fin 0 v (fdiv f x.g (ds.headD 0)) (vs ++ ds)
  | 2 =>
    let t := fmul f p.ob1 x.g
    let m := ffma f p.b1 x.m t
    let vs := if p.fact then [x.fv] else vNew ()
    let v := vs.headD 0
    let ds := den v
    let n := fdiv f m p.c1
    fin m v (fdiv f n (ds.headD 0)) (t :: n :: (vs ++ ds))
  | _ =>
    let sg := if isZero f x.g then 0 else f.sbit (decide (2 ^ (f.eb + f.mb) ≤ x.g)) + encF f (ofInt false 1 0)
    if p.scale then fin 0 0 (fmul f sg x.a) [x.a] else fin 0 0 sg []

/-- The binary64 value of a pattern of the arithmetic format. -/
def to64 (f : Fmt) (x : Nat) : Nat := cvt f f64 x
/-- A mean: the binary64 sum in ascending index, divided by the count, rounded to the format. -/
def meanIn (f : Fmt) (n : Nat) (xs : List Nat) : Nat :=
  cvt f64 f (fdiv f64 (xs.foldl (fadd f64) 0) (ofIntF f64 n))
/-- g² in binary64. -/
def sqIn (f : Fmt) (g : Nat) : Nat := let w := to64 f g; fmul f64 w w

/-- What the factored second moment answers: row and column factors, v of each element, and the values formed on the way to
it. -/
structure Factors where
  rows : List Nat
  cols : List Nat
  v : List Nat
  mid : List (List Nat)
  deriving DecidableEq, Repr

/-- The factored second moment (R221), over every element. `first` is OWN_FIRST, `rl` ROWLEN. The values of an element are
g² in the arithmetic format (05 Table 5-6), the means and factors of its fragment and column, RB, their product and v. -/
def factored (p : Par) (first rl : Nat) (gs rowf colf : List Nat) : Factors :=
  let f := p.f
  let ig := indexed first gs
  let f0 := first / rl
  let nf := (first + gs.length - 1) / rl - f0 + 1
  let upd (old : Nat) (x : Nat) : List Nat :=
    let t := fmul f p.ob2 x
    [ffma f p.b2 old t, t, x]
  let row (k : Nat) : List Nat := (ig.filter (fun e => e.1 / rl == f0 + k)).map (fun e => sqIn f e.2)
  let col (j : Nat) : List Nat := (ig.filter (fun e => e.1 % rl == j)).map (fun e => sqIn f e.2)
  let rows := (List.range nf).map (fun k => let xs := row k; upd (rowf.getD k 0) (meanIn f xs.length xs))
  let cols := (List.range rl).map (fun j =>
    let xs := col j
    upd (colf.getD j 0) (if xs = [] then 0 else meanIn f xs.length xs))
  let heads (xs : List (List Nat)) : List Nat := xs.map (fun x => x.headD 0)
  let rb := meanIn f nf ((heads rows).map (to64 f))
  let one (i g : Nat) : Nat × List Nat :=
    let r := rows.getD (i / rl - f0) []
    let c := cols.getD (i % rl) []
    let x := fmul f (r.headD 0) (c.headD 0)
    let v := if isZero f rb then 0 else fdiv f x rb
    (v, fmul f g g :: rb :: x :: v :: (r ++ c))
  let os := ig.map (fun e => one e.1 e.2)
  ⟨heads rows, heads cols, os.map (·.1), os.map (·.2)⟩

/-! ### Newton–Schulz, R225 -/

/-- Row-major matrices of `n` columns. -/
def mat (n : Nat) (xs : List Nat) (i j : Nat) : Nat := xs.getD (i * n + j) 0
/-- The transpose of an `m × n` matrix. -/
def transp (m n : Nat) (xs : List Nat) : List Nat :=
  ((List.range n).map (fun j => (List.range m).map (fun i => mat n xs i j))).flatten
/-- BF16 of R225, as a binary32 pattern. -/
def bfRound (x : Nat) : Nat := cvt bf16 f32 (cvt f32 bf16 x)
/-- MM of R225: the product of an `m × k` and a `k × n` matrix as MMT forms it (07 R196). -/
def matMul (m k n : Nat) (p q : List Nat) : List Nat :=
  ((List.range m).map (fun i => (List.range n).map (fun j =>
    (List.range (cdiv k 256)).foldl (fun h kb =>
      fadd f32 h (sumTree ((List.range 256).map (fun t =>
        let x := 256 * kb + t
        if x < k then fmul f32 (mat k p i x) (mat n q x j) else 0)))) 0))).flatten
/-- 1 / x rounded once to binary32, for a binary64 pattern. -/
def recip32 (x : Nat) : Nat :=
  match decF f64 x with
  | .fin neg n e =>
    if n = 0 then f32.inf neg
    else if 0 ≤ e then encQ f32 neg 1 (n * 2 ^ e.toNat) else encQ f32 neg (2 ^ (-e).toNat) n
  | .inf neg => f32.sbit neg
  | .nan => f32.qnan

/-- One pass of the quintic iteration on an `m × n` block: the new X and the values formed. -/
def nsPass (m n a b c : Nat) (x : List Nat) : List Nat × List Nat :=
  let a0 := matMul m n m x (transp m n x)
  let aa := a0.map bfRound
  let s := matMul m m m aa aa
  let t := s.map (fmul f32 c)
  let bb0 := List.zipWith (ffma f32 b) aa t
  let bb := bb0.map bfRound
  let bx := matMul m m n bb x
  let y := List.zipWith (ffma f32 a) x bx
  (y.map bfRound, a0 ++ s ++ t ++ bb0 ++ bx ++ y)
/-- Five passes. -/
def nsPasses (m n a b c : Nat) : Nat → List Nat → List Nat → List Nat × List Nat
  | 0, x, ts => (x, ts)
  | k + 1, x, ts => let r := nsPass m n a b c x; nsPasses m n a b c k r.1 (ts ++ r.1 ++ r.2)

/-- NS_STEP of R225: the new first moments, d, and every value formed. -/
def nsStep (rows cols mu eps a b c scale : Nat) (nest : Bool) (mom g : List Nat) : List Nat × List Nat × List Nat :=
  let m1 := List.zipWith (ffma f32 mu) mom g
  let y0 := if nest then List.zipWith (ffma f32 mu) m1 g else m1
  let f := fsqrt f64 (y0.foldl (fun s y => fadd f64 s (sq32 y)) 0)
  if isZero f64 f then (m1, g.map (fun _ => 0), m1 ++ y0)
  else
    let flip := decide (cols < rows)
    let m := min rows cols
    let n := max rows cols
    let y := if flip then transp rows cols y0 else y0
    let r := recip32 (fadd f64 f (cvt f32 f64 eps))
    let x0 := y.map (fmul f32 r)
    let (x, ts) := nsPasses m n a b c 5 (x0.map bfRound) []
    let o := if flip then transp m n x else x
    let d := o.map (fmul f32 scale)
    (m1, d, m1 ++ y0 ++ [r] ++ x0 ++ ts ++ d)

/-! ### Kiln, R226, R228 -/

/-- DOT of R228. -/
def kDot (a b : List Nat) : Nat :=
  cvt f64 f32 ((List.zipWith (fun x y => fmul f64 (cvt f32 f64 x) (cvt f32 f64 y)) a b).foldl (fadd f64) 0)
/-- NORM64 of R228. -/
def norm64 (xs : List Nat) : Nat := fsqrt f64 (xs.foldl (fun s x => fadd f64 s (fmul f64 x x)) 0)
/-- MV32 and MV64 of R228: a diagonal and the entries in store order. -/
def kMv (f : Fmt) (diag : List Nat) (ents : List (Nat × Nat × Nat)) (p : List Nat) : List Nat :=
  ents.foldl (fun y e =>
    let a := cvt f64 f e.2.2
    let y1 := setAt y e.1 (ffma f a (p.getD e.2.1 0) (y.getD e.1 0))
    setAt y1 e.2.1 (ffma f a (p.getD e.1 0) (y1.getD e.2.1 0))) (List.zipWith (fmul f) diag p)

/-- What the inner iteration of Kiln carries. -/
structure Inner where
  c : List Nat
  rr : List Nat
  p : List Nat
  rz : Nat
  it : Nat
  stop : Bool
  bad : Bool
  deriving DecidableEq, Repr

/-- Some value of a list is not finite. -/
def someBad (f : Fmt) (xs : List Nat) : Bool := xs.any (fun x => !isFin f x)
/-- Inner iterations, `fuel` at most (REFINE). -/
def kInner (d32 dinv : List Nat) (ents : List (Nat × Nat × Nat)) (cap : Nat) : Nat → Inner → Inner
  | 0, x => x
  | n + 1, x =>
    if x.it = cap || isZero f32 x.rz then x
    else
      let q := kMv f32 d32 ents x.p
      let den := kDot x.p q
      if !(flt f32 0 den && isFin f32 den) then { x with it := x.it + 1, stop := true }
      else
        let al := fdiv f32 x.rz den
        let c := List.zipWith (ffma f32 al) x.p x.c
        let rr := List.zipWith (ffma f32 (fneg f32 al)) q x.rr
        let z := List.zipWith (fmul f32) rr dinv
        let rz2 := kDot rr z
        let be := fdiv f32 rz2 x.rz
        let p := List.zipWith (ffma f32 be) x.p z
        kInner d32 dinv ents cap n
          { x with
            c := c, rr := rr, p := p, rz := rz2, it := x.it + 1,
            bad := x.bad || someBad f32 (q ++ [al, rz2, be] ++ c ++ rr ++ z ++ p) }

/-- What a Kiln solve answers: the best iterate, inner iterations, ended at the cap, some value not finite. -/
structure KilnOut where
  best : List Nat
  it : Nat
  capped : Bool
  bad : Bool
  deriving DecidableEq, Repr

/-- The outer loop of KILN of R228. -/
def kOuter (g d32 d64 dinv : List Nat) (ents : List (Nat × Nat × Nat)) (cap refine tol gn : Nat) :
    Nat → List Nat → List Nat → Nat → List Nat → Nat → Bool → KilnOut
  | 0, _, best, _, _, it, bad => ⟨best, it, true, bad⟩
  | n + 1, x, best, rb, r, it, bad =>
    let rr := r.map (cvt f64 f32)
    let z := List.zipWith (fmul f32) rr dinv
    let rz := kDot rr z
    let i0 : Inner := ⟨g.map (fun _ => 0), rr, z, rz, it, false, bad || someBad f32 (rr ++ z ++ [rz])⟩
    let i := kInner d32 dinv ents cap refine i0
    let x1 := List.zipWith (fun a b => fadd f64 a (cvt f32 f64 b)) x i.c
    let mv := kMv f64 d64 ents x1
    let r1 := List.zipWith (fsub f64) g mv
    let rn := norm64 r1
    let bad1 := i.bad || someBad f64 (x1 ++ mv ++ r1 ++ [rn])
    let better := flt f64 rn rb
    let best1 := if better then x1 else best
    let rb1 := if better then rn else rb
    if !isNan f64 rn && !vlt (vmul (decF f32 tol) (decF f64 gn)) (decF f64 rn) then ⟨best1, i.it, false, bad1⟩
    else if i.it = cap || i.stop || isZero f32 i.rz then ⟨best1, i.it, true, bad1⟩
    else kOuter g d32 d64 dinv ents cap refine tol gn n x1 best1 rb1 r1 i.it bad1
/-- KILN of R228 on a binary64 gradient. -/
def kiln (g diag : List Nat) (ents : List (Nat × Nat × Nat)) (sigma cap refine tol : Nat) : KilnOut :=
  let gn := norm64 g
  let zero := g.map (fun _ => 0)
  if isZero f64 gn then ⟨zero, 0, false, false⟩
  else
    let ds := diag.map (fun d => vadd (decF f64 d) (decF f32 sigma))
    let d32 := ds.map (encF f32)
    let d64 := ds.map (encF f64)
    let dinv := d32.map (fun d => if flt f32 0 d then fdiv f32 (encF f32 (ofInt false 1 0)) d else 0)
    kOuter g d32 d64 dinv ents cap refine tol gn (cap + 1) zero zero gn g 0
      (someBad f32 (d32 ++ dinv) || someBad f64 (d64 ++ [gn]))

end Sys2Proof.Machine
end

