-- ==== Sys2Proof/Machine/Upd.lean ====
section
/-! DEFINITION. The update unit's descriptors (08): U_APPLY (R212 to R214, R218 to R222, R229), U_PUBLISH (R215), K_DELTA
(R226, R227), U_CASK_OUT and U_CASK_IN (R230, R231). -/
namespace Sys2Proof.Machine
open Sys2Proof

/-! ### Record fields and buffers -/

/-- RULE: 0 SGDM, 1 RMS, 2 ADAM, 3 SIGN, 4 NS, 5 KILN. -/
def State.uRule (s : State) (u : Nat) : Nat := s.uf u 0 16 3
/-- TSLOT. -/
def State.uSlot (s : State) (u : Nat) : Nat := s.uf u 0 0 16
/-- MFMT. -/
def State.uWide (s : State) (u : Nat) : Bool := bit (s.uw u 0) 22
/-- FACT. -/
def State.uFact (s : State) (u : Nat) : Bool := bit (s.uw u 0) 20
/-- ROLE: true for a mirror. -/
def State.uMirror (s : State) (u : Nat) : Bool := bit (s.uw u 0) 23
/-- ROWLEN. -/
def State.rowLen (s : State) (u : Nat) : Nat := max 1 (s.uf u 4 0 24)
/-- The rule keeps first moments. -/
def hasM1 (rule : Nat) : Bool := rule == 0 || rule == 2 || rule == 4
/-- The rule keeps block-scaled second moments. -/
def hasM2 (rule : Nat) (fact : Bool) : Bool := rule == 1 || (rule == 2 && !fact)
/-- Bytes of a distributed weight (08 R215). -/
def State.wBytes (s : State) (u : Nat) : Nat := if s.uWide u then 8 else 2
/-- Bytes of a moment exponent (08 R220). -/
def State.eBytes (s : State) (u : Nat) : Nat := if s.uWide u then 2 else 1
/-- Moment blocks of a record. -/
def State.mBlocks (s : State) (u : Nat) : Nat := cdiv (s.ownLen u) 256
/-- Row fragments of a record (08 R221). -/
def State.frags (s : State) (u : Nat) : Nat :=
  (s.ownFirst u + s.ownLen u - 1) / s.rowLen u - s.ownFirst u / s.rowLen u + 1
/-- Rows and columns of an NS block. -/
def State.nsDim (s : State) (u : Nat) : Nat × Nat := (s.uf u 4 0 13 + 1, s.uf u 4 16 13 + 1)
/-- Where the WOUT bank of a publication step begins (08 R215). -/
def State.woutAt (s : State) (u p : Nat) : Nat := s.uAddr u 18 + p % 2 * padTo 4096 (s.ownLen u * s.wBytes u)
/-- The buffers of a record (08 R206, R210, R215, R220 to R222, R224, R228): base and bytes. -/
def State.buffers (s : State) (u : Nat) : List (Nat × Nat) :=
  let n := s.ownLen u
  let b := s.uBytes u
  let r := s.uRule u
  let (rows, cols) := s.nsDim u
  [(s.uAddr u 14, (s.slowD u + 1) * padTo 4096 (n * b)), (s.uAddr u 16, n * b)]
  ++ (if s.uMirror u then [] else [(s.uAddr u 18, 2 * padTo 4096 (n * s.wBytes u))])
  ++ (if hasM1 r then [(s.uAddr u 20, n), (s.uAddr u 22, s.mBlocks u * s.eBytes u)] else [])
  ++ (if hasM2 r (s.uFact u) then [(s.uAddr u 24, n), (s.uAddr u 26, s.mBlocks u * s.eBytes u)] else [])
  ++ (if r = 2 && s.uFact u then [(s.uAddr u 24, s.frags u * b), (s.uAddr u 26, s.rowLen u * b)] else [])
  ++ (if r = 4 then [(s.uAddr u 28, 4 * rows * cols + 4 * min rows cols * min rows cols)] else [])
  ++ (if r = 5 then [(s.uAddr u 28, 44 * n)] else [])

/-- Elements of an arithmetic format read from memory. -/
def State.vals (s : State) (a n k : Nat) : List Nat := (chunks n (s.bytes a (n * k))).map ofLe
/-- A signed code byte. -/
def codeI (second : Bool) (b : Byte) : Int := if second then b.toNat else b.toInt
/-- The decoded codes of a record's moments, c × s(E) (08 R220): codes at `a`, exponents at `e`. -/
def State.decoded (s : State) (u : Nat) (second : Bool) (a e : Nat) : List Nat :=
  let m := mfmt second (s.uWide u)
  let es := s.vals e (s.eBytes u) (s.mBlocks u)
  (indexed 0 (s.bytes a (s.ownLen u))).map (fun p =>
    unq m (s.uFmt u) (es.getD (p.1 / 256) 0) (codeI second p.2))
/-- The moments of a record (08 R220): a second moment is the square of its decoded root. -/
def State.moments (s : State) (u : Nat) (second : Bool) (a e : Nat) : List Nat :=
  (s.decoded u second a e).map (fun w => if second then fmul (s.uFmt u) w w else w)

/-- A Kiln region (08 R226): the diagonal, binary64 patterns, and the off-diagonal entries (row, column, binary64) in store
order. -/
structure Region where
  diag : List Nat
  ents : List (Nat × Nat × Nat)
  deriving DecidableEq, Repr

/-- Where the region of a record begins in the Kiln store, in 8-byte words (08 Table 8-2 KS_OFF). -/
def State.kilnAt (s : State) (u : Nat) : Nat := s.uf u 7 0 17 * 32
/-- The Kiln region of a record: OWN_LEN diagonal entries at byte 0, then KNNZ entries of 16 bytes (08 R226). -/
def State.region (s : State) (u : Nat) : Region :=
  let n := s.ownLen u
  let xs := SMap.readRun (fun _ => 0) s.upd.kiln (s.kilnAt u + n) (2 * s.uf u 42 0 24)
  ⟨SMap.readRun (fun _ => 0) s.upd.kiln (s.kilnAt u) n,
    (chunks 2 xs).map (fun e => (nfld (e.getD 0 0) 0 18, nfld (e.getD 0 0) 32 18, e.getD 1 0))⟩
/-- The empty region that a write of word 0 leaves: every diagonal entry +0 (08 R207). -/
def State.region0 (s : State) (u : Nat) : Region := ⟨List.replicate (s.ownLen u) 0, []⟩
/-- Write a region to the Kiln store; KNNZ follows (08 Table 8-3, R226; log entry 110). -/
def State.setRegion (s : State) (u : Nat) (r : Region) : State :=
  let ws := r.diag ++ (r.ents.map (fun e => [e.1 + e.2.1 * 2 ^ 32, e.2.2])).flatten
  ({ s with upd := { s.upd with kiln := s.upd.kiln.setRun (fun _ => 0) (s.kilnAt u) ws } }).setUw u 42 r.ents.length

/-! ### U_APPLY -/

/-- Work estimate of U_APPLY (08 Table 8-4, R225, R228). -/
def State.applyW (s : State) (u : Nat) : Nat :=
  let n := s.ownLen u
  let k := if s.uWide u then 4 else 1
  match s.uRule u with
  | 0 | 3 => (cdiv n 256 + 32) * k
  | 1 => (cdiv n 128 + 32) * k
  | 2 => (cdiv n 64 + 32) * k
  | 4 =>
    let (r, c) := s.nsDim u
    let p := cdiv (min r c) 256
    let q := cdiv (max r c) 256
    1280 * (2 * p ^ 2 * q + p ^ 3) + cdiv (3 * r * c) 128 + 64
  | _ =>
    let cap := s.uf u 4 0 8 + 1
    let ref := s.uf u 4 8 4 + 1
    let nnz := s.uf u 42 0 24
    cap * (cdiv nnz 128 + cdiv n 128 + 40) + (cdiv cap ref + 1) * (cdiv nnz 128 + cdiv n 32 + 40) + cdiv n 64

/-- U_APPLY operands (08 R212, R218, R224). A strip that fails R224 gets the status that R224 itself names, BAD_TILE, where
R212's list names BAD_ARG (log entry 15). -/
def decApply (c d : Nat) (s : State) : Dec :=
  let u := dq d 1 0 16
  let t := dq d 4 3 5
  let n := dq d 4 8 6
  let ns := s.uRule u == 4
  { masks := [2 ^ 64 - 1, 2 ^ 64 - 1, 2 ^ 64 - 1, 0x3FFB]
    args := s.uUsed u && s.uCtx u == c && dq d 1 16 48 + s.slowD u == s.cStep c && dq d 4 0 2 != 3
      && (ns || (t == 0 && n == 0)) && (dq d 4 0 2 != 1 || s.statSsq (s.uSlot u))
    tiles := !ns || (1 ≤ n && s.tilesOk c t n false)
    w := s.applyW u
    ext := s.buffers u }

/-- The reduced SSQ of a slot for a step, as that step's boundary took it from the stat table (06 R166). -/
def State.ssqOf (s : State) (t step : Nat) : Nat :=
  (((s.tmp.ssqs.get (fun _ => []) t).find? (fun x => x.1 == step)).map (·.2)).getD 0
/-- The clip factor k of 08 R218. -/
def State.clipK (s : State) (c u d : Nat) : Nat :=
  let step := dq d 1 16 48
  let one := encF f64 (ofInt false 1 0)
  let ss := if dq d 4 0 2 = 1 then s.ssqOf (s.uSlot u) step
    else ((s.slotsOf c).filter s.statSsq).foldl (fun x t => fadd f64 x (s.ssqOf t step)) 0
  if isZero f64 ss then one
  else
    let k := fdiv f64 (cvt f32 f64 (dq d 3 32 32)) (fsqrt f64 ss)
    if flt f64 k one then k else one

/-- The gradients that a U_APPLY reads, clipped. -/
def State.grads (s : State) (c u d : Nat) : List Nat :=
  let f := s.uFmt u
  let gs := s.vals (s.bankAt u (dq d 1 16 48)) (s.uBytes u) (s.ownLen u)
  if dq d 4 0 2 = 0 then gs
  else
    let k := s.clipK c u d
    gs.map (fun g => encF f (vmul (decF f g) (decF f64 k)))

/-- P1 or P2 advanced (08 R214): the product with β rounded once to binary64. -/
def State.nextP (s : State) (u w bw : Nat) : Nat := fmul f64 (s.u64 u w) (cvt f32 f64 (s.uw u bw).toNat)
/-- The numbers of R219. -/
def State.par (s : State) (u d : Nat) : Par :=
  let f := s.uFmt u
  let one := encF f (ofInt false 1 0)
  let wide (x : Nat) : Nat := cvt f32 f x
  let om (p : Nat) : Nat := encF f (vadd (ofInt false 1 0) (vneg (decF f64 p)))
  let b1 := wide (s.uw u 1).toNat
  let b2 := wide (s.uw u 2).toNat
  { f := f, rule := s.uRule u, nest := bit (s.uw u 0) 19, fact := s.uFact u, scale := bit (s.uw u 0) 21,
    eta := cvt f64 f (dq d 2 0 64), wd := wide (dq d 3 0 32), b1 := b1, b2 := b2,
    eps := wide (s.uw u 3).toNat, ob1 := fsub f one b1, ob2 := fsub f one b2,
    c1 := om (s.nextP u 34 1), c2 := om (s.nextP u 36 2) }

/-- What an update makes of a range: new decoded first moments and roots of the second, masters, which
elements were held, the factors, and of a Kiln solve its iterations and whether it ended at the cap. -/
structure Upded where
  m : List Nat
  w2 : List Nat
  w : List Nat
  held : List Bool
  fac : List Nat × List Nat
  units : Nat
  kiln : Option (Nat × Bool)
  deriving DecidableEq, Repr

/-- A factor that serves elements all of which are held keeps its value; any other is the one computed over every element
(08 R221). `hs` are the held marks with the index of the factor that each element uses. -/
def keepFactors (hs : List (Nat × Bool)) (old new : List Nat) : List Nat :=
  (indexed 0 new).map (fun e =>
    let mine := hs.filter (fun h => h.1 == e.1)
    if mine != [] && mine.all (·.2) then old.getD e.1 0 else e.2)
/-- Element-wise rules over the range (08 R219 to R221). With FACT = 1 the values that the factored second moment forms for
an element, and g² in the arithmetic format (05 Table 5-6), count among the values that R133 tests. DESIGN CHOICE: how
R221's "A held element leaves ROWF and COLF unchanged, and the factors are computed over every element" is read (log entry
112). -/
def State.runElems (s : State) (u : Nat) (p : Par) (gs ws : List Nat) : Upded :=
  let f := p.f
  let n := s.ownLen u
  let none_ := List.replicate n 0
  let ms := if hasM1 p.rule then s.moments u false (s.uAddr u 20) (s.uAddr u 22) else none_
  let vs := if hasM2 p.rule p.fact then s.moments u true (s.uAddr u 24) (s.uAddr u 26) else none_
  let olds := if hasM2 p.rule p.fact then s.decoded u true (s.uAddr u 24) (s.uAddr u 26) else none_
  let rl := s.rowLen u
  let f0 := s.ownFirst u / rl
  let isFact := p.rule = 2 && p.fact
  let rowf := if isFact then s.vals (s.uAddr u 24) (s.uBytes u) (s.frags u) else []
  let colf := if isFact then s.vals (s.uAddr u 26) (s.uBytes u) rl else []
  let fa : Factors := if isFact then factored p (s.ownFirst u) rl gs rowf colf else ⟨[], [], none_, []⟩
  let means := if p.rule = 3 && p.scale
    then ((chunks 256 gs).map (fun g => List.replicate g.length
      (meanIn f 256 (g.map (fun x => to64 f (fabsBits f x)))))).flatten
    else none_
  let outs := (List.range n).map (fun i =>
    let x : Elem := ⟨gs.getD i 0, ms.getD i 0, vs.getD i 0, fa.v.getD i 0, means.getD i 0, ws.getD i 0⟩
    let r := ruleElem p x
    let root := fsqrt f r.2.1
    let bad := (r.2.2.2 ++ fa.mid.getD i []).any (fun y => !isFin f y) || !isFin f root
    if bad then (x.m, olds.getD i 0, x.w, true) else (r.1, root, r.2.2.1, false))
  let held := outs.map (·.2.2.2)
  let ih := indexed (s.ownFirst u) held
  { m := outs.map (·.1), w2 := outs.map (·.2.1), w := outs.map (·.2.2.1), held := held,
    fac := (keepFactors (ih.map (fun h => (h.1 / rl - f0, h.2))) rowf fa.rows,
      keepFactors (ih.map (fun h => (h.1 % rl, h.2))) colf fa.cols), units := (outs.filter (fun o => o.2.2.2)).length, kiln := none }
/-- APPLY of a whole unit with displacements `ds`; held as one unit when any value is not finite. -/
def unitApply (p : Par) (bad : Bool) (ms old ws ds : List Nat) (k : Option (Nat × Bool)) : Upded :=
  let ts := List.zipWith (applyW p) ws ds
  let hold := bad || ts.any (someBad p.f)
  let no := ws.map (fun _ => 0)
  { m := if hold then old else ms, w2 := no, w := if hold then ws else ts.map (fun t => t.getLastD 0),
    held := ws.map (fun _ => hold), fac := ([], []), units := b2n hold, kiln := k }
/-- The update of a record's range under its rule. -/
def State.runRule (s : State) (c u d : Nat) : Upded :=
  let p := s.par u d
  let gs := s.grads c u d
  let n := s.ownLen u
  let ws := s.vals (s.uAddr u 16) (s.uBytes u) n
  match p.rule with
  | 4 =>
    let (rows, cols) := s.nsDim u
    let old := s.moments u false (s.uAddr u 20) (s.uAddr u 22)
    let r := nsStep rows cols p.b1 p.eps (s.uw u 5).toNat (s.uw u 6).toNat (s.uw u 7).toNat (s.uw u 8).toNat p.nest
      old gs
    unitApply p (someBad f32 r.2.2) r.1 old ws r.2.1 none
  | 5 =>
    let g := s.region u
    let k := kiln (gs.map (to64 p.f)) g.diag g.ents (s.uw u 5).toNat (s.uf u 4 0 8 + 1) (s.uf u 4 8 4 + 1)
      (s.uw u 6).toNat
    unitApply p k.bad [] [] ws (k.best.map (cvt f64 p.f)) (some (k.it, k.capped))
  | _ => s.runElems u p gs ws

/-- The distributed weight of a master and whether it saturated (08 R222, 05 R134). -/
def weightOf (wide : Bool) (w : Nat) : Nat × Bool :=
  if wide then (w, false)
  else
    let y := cvt f32 bf16 w
    if isFin bf16 y then (y, false) else (bf16.maxFin (decide (2 ^ 31 ≤ w)), true)
/-- One moment array written: code bytes by element, exponents by block; and how many codes were clamped. -/
def State.momWrites (s : State) (u : Nat) (second : Bool) (a e : Nat) (xs : List Nat) :
    List (Nat × Bytes) × List (Nat × Bytes) × Nat :=
  let f := s.uFmt u
  let rs := (chunks 256 xs).map (mq (mfmt second (s.uWide u)) f)
  let cs := (rs.map (fun r => r.2.1)).flatten
  ((indexed 0 cs).map (fun p => (a + p.1, [BitVec.ofInt 8 p.2])),
    (indexed 0 rs).map (fun p => (e + s.eBytes u * p.1, leBytes (s.eBytes u) p.2.1)),
    (rs.map (fun r => r.2.2)).sum)

/-- The writes of a weight bank from masters. -/
def State.bankWrites (s : State) (u p : Nat) (ws : List Nat) : List (Nat × Bytes) :=
  (indexed 0 ws).map (fun x =>
    (s.woutAt u p + s.wBytes u * x.1, leBytes (s.wBytes u) (weightOf (s.uWide u) x.2).1))
/-- Set SV_FLAGS bits for a step: in the statistics of the last completed step when they are that step's. DESIGN CHOICE: a
slow-tier update applies the gradient of a step whose statistics are gone; its UPD_HOLD and WT_SAT enter the word of the open
step (log entry 114). -/
def State.svFlagAt (s : State) (t step bits : Nat) : State :=
  let l := s.tmp.last.get stat0 t
  if l.step = step && s.tmp.closed.get (fun _ => none) (s.slotCtx t) == some step then
    { s with tmp := { s.tmp with last := s.tmp.last.set stat0 t { l with flags := l.flags ||| bits } } }
  else s.svFlag t bits

/-- The state after a committed update (08 R214, Table 8-3; 16 R426). -/
def State.afterApply (s : State) (c u step : Nat) (r : Upded) (clamped : Nat) (sat : Bool) : State :=
  let s1 := (((s.setU64 u 32 ((s.u64 u 32 + 1) % 2 ^ 48)).setU64 u 34 (s.nextP u 34 1)).setU64 u 36 (s.nextP u 36 2)).setUw
    u 38 (satAdd 32 (s.uw u 38).toNat r.units)
  let s2 := (s1.setUw u 39 (satAdd 32 (s.uw u 39).toNat clamped)).bump 0xA00054 clamped
  let s3 := match r.kiln with
    | none => s2
    | some (it, cap) =>
      ((s2.setUw u 40 (satAdd 32 (s.uw u 40).toNat (b2n cap))).setUw u 41 it).bump 0xA00050 (b2n cap)
  let t := s.uSlot u
  let s4 := if r.units = 0 then s3
    else
      let p := step + s.slowD u
      let x := ((s3.bump 0xA0004C r.units).countEv 0xA00000 0x11 r.units).svFlagAt t step 0x400
      { x with upd := { x.upd with heldIn := if x.upd.heldIn.contains (c, p) then x.upd.heldIn else x.upd.heldIn ++ [(c, p)] } }
  let s5 := if sat then s4.svFlagAt t step 0x800 else s4
  { s5 with upd := { s5.upd with lastStep := s5.upd.lastStep.set (fun _ => 0) u step } }

/-- Interleave lists of writes that each have one entry for an element: moments, master, weight of the first element, then
of the next (08 R214). -/
def weave : List (List (List (Nat × Bytes))) → List (Nat × Bytes)
  | ls =>
    let n := (ls.map List.length).foldl max 0
    ((List.range n).map (fun i => (ls.map (fun l => l.getD i [])).flatten)).flatten
/-- The writes of a moment array by element: the exponent of a block goes before its first code. -/
def momByElem (cs es : List (Nat × Bytes)) : List (List (Nat × Bytes)) :=
  (indexed 0 cs).map (fun x => (if x.1 % 256 = 0 then (es[x.1 / 256]?).toList else []) ++ [x.2])
/-- The writes of an update in the order of R214, unit by unit: of an element-wise rule element by element, of Newton–Schulz
and Kiln, whose unit is the block or the solve, moments, then masters, then weights (05 R133). Where exponents and factors go
among the moments is a DESIGN CHOICE (log entry 113). -/
def unitOrder (rule : Nat) (fac : List (Nat × Bytes)) (m1 m2 : List (Nat × Bytes) × List (Nat × Bytes) × Nat)
    (mw wo : List (Nat × Bytes)) : List (Nat × Bytes) :=
  if rule = 4 || rule = 5 then m1.2.1 ++ m1.1 ++ mw ++ wo
  else
    let each (l : List (Nat × Bytes)) : List (List (Nat × Bytes)) := l.map (fun w => [w])
    fac ++ weave [momByElem m1.1 m1.2.1, momByElem m2.1 m2.2.1, each mw, each wo]
/-- U_APPLY's work: the update of a committed step, or after a skip the slow tier's weights (08 R213, R229). -/
def applyWork (c d : Nat) (s : State) : Work :=
  let u := dq d 1 0 16
  let step := dq d 1 16 48
  let slow := s.slowD u
  let p := step + slow
  let ev := s.countEv 0xA00000 0x10 1
  let b := s.uBytes u
  let sat (ws : List Nat) : Bool := !s.uMirror u && ws.any (fun w => (weightOf (s.uWide u) w).2)
  match s.verdictOf c step with
  | some 0 =>
    let r := s.runRule c u d
    let m1 := if hasM1 (s.uRule u) then s.momWrites u false (s.uAddr u 20) (s.uAddr u 22) r.m else ([], [], 0)
    let m2 := if hasM2 (s.uRule u) (s.uFact u) then s.momWrites u true (s.uAddr u 24) (s.uAddr u 26) r.w2
      else ([], [], 0)
    let fac (a : Nat) (xs : List Nat) : List (Nat × Bytes) := (indexed 0 xs).map (fun x => (a + b * x.1, leBytes b x.2))
    let mw := (indexed 0 r.w).map (fun x => (s.uAddr u 16 + b * x.1, leBytes b x.2))
    let wo := if s.uMirror u then [] else s.bankWrites u p r.w
    let ws := unitOrder (s.uRule u) (fac (s.uAddr u 24) r.fac.1 ++ fac (s.uAddr u 26) r.fac.2) m1 m2 mw wo
    ⟨ws, ev.afterApply c u step r (m1.2.2 + m2.2.2) (sat r.w), false, false, 0, []⟩
  | _ =>
    if slow = 0 || s.uMirror u then ⟨[], ev, false, false, 0, []⟩
    else
      let ws := s.vals (s.uAddr u 16) b (s.ownLen u)
      ⟨s.bankWrites u p ws, if sat ws then ev.svFlagAt (s.uSlot u) step 0x800 else ev, false, false, 0, []⟩
/-- U_APPLY (08 R214). -/
def execUApply (c : Ctx) (run : Run) (s : State) : Host.Outcome State Fault Refusal :=
  done (s.runAnv c.toNat 0x40 run (decApply c.toNat) (applyWork c.toNat))

/-! ### U_PUBLISH -/

/-- U_PUBLISH operands (08 R215). -/
def decPublish (d : Nat) : Dec :=
  ⟨[2 ^ 48 - 1, 2 ^ 48 - 1], dq d 2 0 48 % 8 == 0, true, 0, [(dq d 2 0 48, 8)]⟩
/-- U_PUBLISH ends once the package holds the verdict of STEP, and writes the publication word (08 R215); none starts
while UPD 0 quiesces. -/
def publish (c : Nat) (s : State) : State :=
  if (s.reg 0xA00010).getLsbD 1 then s
  else
    s.runCtl c 0x41 decPublish (fun w s =>
      let step := dq w.d 1 0 48
      match s.verdictOf c step with
      | none => s
      | some v =>
        let word := step + b2n (v != 0) * 2 ^ 48 + b2n (s.upd.heldIn.contains (c, step)) * 2 ^ 49
        let a := dq w.d 2 0 48
        ((s.latch c w).busWrite a (leBytes 8 word)).endDesc c w
          { Fin.plain 0 with writes := [(a, 8)], upd := if v = 0 then some step else none })
/-- U_PUBLISH (08 R215). -/
def execUPublish (c : Ctx) (s : State) : Host.Outcome State Fault Refusal := done (publish c.toNat s)

/-! ### K_DELTA -/

/-- Delta records of a list (08 R226): row, column, operation, value. -/
def State.deltas (s : State) (a n : Nat) : List (Nat × Nat × Nat × Nat) :=
  (chunks 16 (s.bytes a (16 * n))).map (fun b =>
    let x := ofLe b
    (nfld x 0 18, nfld x 32 18, nfld x 62 2, nfld x 64 64))
/-- Strictly ascending in (ROW, COL). -/
def deltasUp : List (Nat × Nat × Nat × Nat) → Bool
  | a :: b :: r => (a.1 < b.1 || (a.1 == b.1 && a.2.1 < b.2.1)) && deltasUp (b :: r)
  | _ => true
/-- Set the entry at (row, column), keeping the order, or remove it. -/
def putEnt (r c : Nat) (v : Option Nat) : List (Nat × Nat × Nat) → List (Nat × Nat × Nat)
  | [] => (v.map (fun x => (r, c, x))).toList
  | e :: es =>
    if e.1 < r || (e.1 == r && e.2.1 < c) then e :: putEnt r c v es
    else if e.1 == r && e.2.1 == c then (v.map (fun x => (r, c, x))).toList ++ es
    else (v.map (fun x => (r, c, x))).toList ++ e :: es
/-- Merge one delta record (08 R227). -/
def Region.delta (g : Region) (x : Nat × Nat × Nat × Nat) : Region :=
  let (r, c, op, v) := x
  if r = c then
    let old := g.diag.getD r 0
    let y := if op = 0 then v else if op = 1 then fadd f64 old v else 0
    { g with diag := setAt g.diag r y }
  else
    let old := ((g.ents.find? (fun e => e.1 == r && e.2.1 == c)).map (·.2.2)).getD 0
    { g with ents := putEnt r c (if op = 0 then some v else if op = 1 then some (fadd f64 old v) else none) g.ents }
/-- K_DELTA operands; the read of the list is part of decode (08 R227). -/
def decKDelta (c d : Nat) (s : State) : Dec :=
  let u := dq d 1 0 16
  let a := dq d 2 0 48
  let n := dq d 3 0 24
  let xs := s.deltas a n
  { masks := [0xFFFF, 2 ^ 48 - 1, 2 ^ 24 - 1]
    args := s.uUsed u && s.uCtx u == c && s.uRule u == 5 && a % 8 == 0 && 1 ≤ n
      && (!s.extOk c (a, 16 * n)
        || (deltasUp xs && xs.all (fun x => x.1 ≤ x.2.1 && x.2.1 < s.ownLen u && x.2.2.1 != 3)
          && decide (8 * s.ownLen u + 16 * (xs.foldl Region.delta (s.region u)).ents.length ≤ s.uf u 8 0 18 * 256)))
    tiles := true
    w := cdiv n 64 + cdiv (s.uf u 42 0 24 + n) 64 + 32
    ext := [(a, 16 * n)] }
/-- K_DELTA's work (08 R227). -/
def kDeltaWork (d : Nat) (s : State) : Work :=
  let u := dq d 1 0 16
  let xs := s.deltas (dq d 2 0 48) (dq d 3 0 24)
  ⟨[], (s.setRegion u (xs.foldl Region.delta (s.region u))).countEv 0xA00000 0x12 xs.length, false, false, 0, []⟩
/-- K_DELTA (08 R227). -/
def execKDelta (c : Ctx) (run : Run) (s : State) : Host.Outcome State Fault Refusal :=
  done (s.runAnv c.toNat 0x48 run (decKDelta c.toNat) kDeltaWork)

/-! ### Cask -/

/-- Lengths of the sections of a Cask record: masters, first moments, second moments (08 R230). -/
def caskLens (rule n frags rowlen : Nat) (wide fact : Bool) : List Nat :=
  let b := if wide then 8 else 4
  let mom := n + cdiv n 256 * (if wide then 2 else 1)
  [n * b] ++ (if hasM1 rule then [mom] else [])
  ++ (if hasM2 rule fact then [mom] else if rule = 2 && fact then [frags * b + rowlen * b] else [])
/-- The bytes of a Kiln section. -/
def kilnSection (g : Region) : Bytes :=
  leBytes 4 g.ents.length ++ (g.diag.map (leBytes 8)).flatten
    ++ (g.ents.map (fun e => leBytes 16 (e.1 + e.2.1 * 2 ^ 32 + e.2.2 * 2 ^ 64))).flatten
/-- A section padded to a multiple of 8 bytes. -/
def padSec (bs : Bytes) : Bytes := fitBytes (pad8 bs.length) bs
/-- The sections of a record's state (08 R230). -/
def State.caskSections (s : State) (u : Nat) : Bytes :=
  let n := s.ownLen u
  let b := s.uBytes u
  let r := s.uRule u
  let mom (a e : Nat) : Bytes := s.bytes a n ++ s.bytes e (s.mBlocks u * s.eBytes u)
  padSec (s.bytes (s.uAddr u 16) (n * b))
  ++ (if hasM1 r then padSec (mom (s.uAddr u 20) (s.uAddr u 22)) else [])
  ++ (if hasM2 r (s.uFact u) then padSec (mom (s.uAddr u 24) (s.uAddr u 26))
      else if r = 2 then padSec (s.bytes (s.uAddr u 24) (s.frags u * b) ++ s.bytes (s.uAddr u 26) (s.rowLen u * b))
      else [])
  ++ (if r = 5 then padSec (kilnSection (s.region u)) else [])
/-- Bytes 0 to 59 of a record's Cask header (08 Table 8-7). -/
def State.caskHead (s : State) (u : Nat) : Bytes :=
  leBytes 2 0x4B43 ++ [1, BitVec.ofNat 8 (s.uRule u + 8 * b2n (s.uWide u) + 16 * b2n (s.uFact u))]
  ++ leBytes 4 (s.tensor (s.uSlot u)) ++ leBytes 8 (s.ownFirst u) ++ leBytes 4 (s.ownLen u)
  ++ leBytes 4 (if s.uRule u = 2 && s.uFact u then s.rowLen u else 0)
  ++ leBytes 6 (s.upd.lastStep.get (fun _ => 0) u) ++ leBytes 6 (s.u64 u 32) ++ zeros 4
  ++ leBytes 8 (s.u64 u 34) ++ leBytes 8 (s.u64 u 36) ++ zeros 4
/-- A record's Cask record. -/
def State.caskOut (s : State) (u : Nat) : Bytes :=
  let h := s.caskHead u
  let x := s.caskSections u
  h ++ leBytes 4 (crc32c (h ++ x)) ++ x
/-- U_CASK_OUT operands (08 R230). -/
def decCaskOut (c d : Nat) (s : State) : Dec :=
  let u := dq d 1 0 16
  let ok := s.uUsed u && s.uCtx u == c
  let n := if ok then 64 + (s.caskSections u).length else 0
  { masks := [0xFFFF, 2 ^ 48 - 1], args := ok && dq d 2 0 48 % 8 == 0, tiles := true, w := cdiv n 2048 + 16,
    ext := [(dq d 2 0 48, n)] }
/-- U_CASK_OUT's work. -/
def caskOutWork (d : Nat) (s : State) : Work :=
  ⟨[(dq d 2 0 48, s.caskOut (dq d 1 0 16))], s, false, false, 0, []⟩
/-- U_CASK_OUT (08 R230). -/
def execUCaskOut (c : Ctx) (run : Run) (s : State) : Host.Outcome State Fault Refusal :=
  done (s.runAnv c.toNat 0x50 run (decCaskOut c.toNat) caskOutWork)

/-- A Cask header read from memory. -/
structure Cask where
  magic : Nat
  version : Nat
  flags : Nat
  tensor : Nat
  first : Nat
  len : Nat
  rowlen : Nat
  step : Nat
  updt : Nat
  p1 : Nat
  p2 : Nat
  crc : Nat
  deriving DecidableEq, Repr

/-- Read a header. -/
def State.caskAt (s : State) (a : Nat) : Cask :=
  { magic := s.memN a 2, version := s.memN (a + 2) 1, flags := s.memN (a + 3) 1, tensor := s.memN (a + 4) 3,
    first := s.memN (a + 8) 5, len := s.memN (a + 16) 4, rowlen := s.memN (a + 20) 3, step := s.memN (a + 24) 6,
    updt := s.memN (a + 30) 6, p1 := s.memN (a + 40) 8, p2 := s.memN (a + 48) 8, crc := s.memN (a + 60) 4 }
/-- Section lengths, padded, of a Cask record at `a`; the last is the Kiln section's when there is one. -/
def State.caskSecs (s : State) (a : Nat) (k : Cask) : List Nat :=
  let rule := k.flags % 8
  let fact := k.flags.testBit 4
  let rl := max 1 k.rowlen
  let fr := (k.first + k.len - 1) / rl - k.first / rl + 1
  let ls := (caskLens rule k.len fr rl (k.flags.testBit 3) fact).map pad8
  if rule = 5 then
    let nnz := s.memN (a + 64 + ls.sum) 4
    ls ++ [pad8 (4 + 8 * k.len + 16 * nnz)]
  else ls
/-- U_CASK_IN's conditions but for the CRC (08 R231). -/
def State.caskFits (s : State) (u : Nat) (k : Cask) : Bool :=
  let eq := k.first == s.ownFirst u && k.len == s.ownLen u
  k.magic == 0x4B43 && k.version == 1 && k.tensor == s.tensor (s.uSlot u)
    && k.flags % 32 == s.uRule u + 8 * b2n (s.uWide u) + 16 * b2n (s.uFact u)
    && k.first ≤ s.ownFirst u && s.ownFirst u + s.ownLen u ≤ k.first + k.len
    && (s.ownFirst u - k.first) % 256 == 0 && (!(s.uFact u || s.uRule u == 5) || eq)
/-- U_CASK_IN operands; the read of the record is part of decode (08 R231). -/
def decCaskIn (c d : Nat) (s : State) : Dec :=
  let u := dq d 1 0 16
  let a := dq d 2 0 48
  let k := s.caskAt a
  let fits := s.uUsed u && s.uCtx u == c && s.extOk c (a, 64) && s.caskFits u k
  let n := if fits then 64 + (s.caskSecs a k).sum else 64
  { masks := [0xFFFF, 2 ^ 48 - 1]
    args := s.uUsed u && s.uCtx u == c
      && (!s.extOk c (a, 64)
        || (s.caskFits u k && (!s.extOk c (a, n) || k.crc == crc32c (s.bytes a 60 ++ s.bytes (a + 64) (n - 64)))))
    tiles := true
    w := cdiv n 2048 + 16
    ext := [(a, n)] ++ s.buffers u }
/-- The Kiln region that a section holds. -/
def State.kilnFrom (s : State) (a n : Nat) : Region :=
  let nnz := s.memN a 4
  let es := (chunks 16 (s.bytes (a + 4 + 8 * n) (16 * nnz))).map (fun b =>
    let x := ofLe b
    (nfld x 0 18, nfld x 32 18, nfld x 64 64))
  ⟨s.vals (a + 4) 8 n, es⟩
/-- U_CASK_IN's work: the owned part of each section, and UPDT, P1 and P2 (08 R231). -/
def caskInWork (d : Nat) (s : State) : Work :=
  let u := dq d 1 0 16
  let a := dq d 2 0 48
  let k := s.caskAt a
  let n := s.ownLen u
  let b := s.uBytes u
  let off := s.ownFirst u - k.first
  let r := s.uRule u
  let secs := s.caskSecs a k
  let at_ (i : Nat) : Nat := a + 64 + (secs.take i).sum
  let mom (i ca ea : Nat) : List (Nat × Bytes) :=
    [(ca, s.bytes (at_ i + off) n),
     (ea, s.bytes (at_ i + k.len + off / 256 * s.eBytes u) (s.mBlocks u * s.eBytes u))]
  let m1 := if hasM1 r then mom 1 (s.uAddr u 20) (s.uAddr u 22) else []
  let i2 := if hasM1 r then 2 else 1
  let m2 := if hasM2 r (s.uFact u) then mom i2 (s.uAddr u 24) (s.uAddr u 26)
    else if r = 2 then
      [(s.uAddr u 24, s.bytes (at_ i2) (s.frags u * b)),
       (s.uAddr u 26, s.bytes (at_ i2 + s.frags u * b) (s.rowLen u * b))]
    else []
  let s1 := ((s.setU64 u 32 k.updt).setU64 u 34 k.p1).setU64 u 36 k.p2
  let s2 := { s1 with upd := { s1.upd with lastStep := s1.upd.lastStep.set (fun _ => 0) u k.step } }
  let s3 := if r = 5 then s2.setRegion u (s.kilnFrom (at_ 1) n) else s2
  ⟨[(s.uAddr u 16, s.bytes (at_ 0 + off * b) (n * b))] ++ m1 ++ m2, s3, false, false, 0, []⟩
/-- U_CASK_IN (08 R231). -/
def execUCaskIn (c : Ctx) (run : Run) (s : State) : Host.Outcome State Fault Refusal :=
  done (s.runAnv c.toNat 0x51 run (decCaskIn c.toNat) caskInWork)

end Sys2Proof.Machine
end

