-- ==== Sys2Proof/Machine/Job.lean ====
section
/-! DEFINITION. Guard's record and frames (12 R314, R318, R319), incarnations and fencing (R317, 04 R116), the recovery
log (R349), parks and RESUMEs (R345, R353, R354) and the choice of spares (R340, R344). -/
namespace Sys2Proof.Machine
open Sys2Proof

/-! ### The Guard context record, Table 12-1 -/

/-- VPARENT. -/
def State.vparent (s : State) (c : Nat) : Nat := fld (s.gw c 1) 0 18
/-- ROOT_ID. -/
def State.rootId (s : State) (c : Nat) : Nat := fld (s.gw c 2) 0 18
/-- STANDBY_ID. -/
def State.standbyId (s : State) (c : Nat) : Nat := fld (s.gw c 3) 0 18
/-- TWIN. -/
def State.twin (s : State) (c : Nat) : Nat := fld (s.gw c 5) 0 18
/-- MEMBERS. -/
def State.members (s : State) (c : Nat) : Nat := fld (s.gw c 6) 0 18
/-- VWAIT in KTIME units; 0 selects 2,000 µs. -/
def State.vwait (s : State) (c : Nat) : Nat := (if s.gw c 9 = 0 then 2000 else (s.gw c 9).toNat) * usec
/-- A list of `n` node IDs, 4 bytes each. -/
def State.nodeList (s : State) (a n : Nat) : List Nat := (List.range n).map (fun i => s.memN (a + 4 * i) 4 % 2 ^ 18)
/-- Verdict-tree children. -/
def State.vchildren (s : State) (c : Nat) : List Nat := s.nodeList (s.gAddr c 10) (fld (s.gw c 0) 8 8)
/-- On the standby: the root's verdict-tree children, but for this package itself (log entry 16). -/
def State.rvchildren (s : State) (c : Nat) : List Nat :=
  (s.nodeList (s.gAddr c 22) (fld (s.gw c 24) 0 8)).filter (fun n => n != s.node)
/-- Contexts of the job that this package holds (12 R316). -/
def State.jobCtxs (s : State) : List Nat := s.live.filter (fun c => s.members c != 0)
/-- This package is the root of a context's verdict tree. -/
def State.atRoot (s : State) (c : Nat) : Bool := s.node == s.rootId c
/-- This package is the standby, and not the root. -/
def State.atStandby (s : State) (c : Nat) : Bool := s.node == s.standbyId c && !s.atRoot c
/-- This package acts as the root: it is the root, or the standby of a root whose failure it has confirmed (12
R324). -/
def State.acting (s : State) (c : Nat) : Bool :=
  s.atRoot c || (s.atStandby c && s.grd.confirmed.contains (s.rootId c))
/-- The step is open here (07 R181). -/
def State.stepOpen (s : State) (c step : Nat) : Bool := (s.hx c).opened != 0 && s.cStep c == step
/-- A configuration register of GRD page 0 as it applies: since the last heartbeat period (16 R435). -/
def State.gconf (s : State) (a : Nat) : Nat :=
  if s.grd.periodAt.isSome then (s.grd.conf.get regReset a).toNat else s.regN a

/-! ### Receiving, R318, R319 -/

/-- The parts of the GUARD payload that a part belongs to. -/
def GPart.isOf (g : GPart) (r : Rx) : Bool :=
  g.src == r.src && g.ctx == r.key.ctx && g.gop == r.gop && g.step == r.key.step && g.pseq == nfld r.spec 28 32
/-- A part arrives: the payload once every part is there. -/
def State.guardPart (s : State) (r : Rx) : Option Bytes × State :=
  let n := max 1 (nfld r.spec 60 16)
  let m := r.key.blk / 16
  if n = 1 then (some r.bytes, s)
  else
    let g : GPart := (s.grd.parts.find? (fun g => g.isOf r)).getD ⟨r.src, r.key.ctx, r.gop, r.key.step, nfld r.spec 28 32, n, []⟩
    let rest := s.grd.parts.filter (fun g => !g.isOf r)
    let ps := if g.parts.any (fun p => p.1 == m) then g.parts else g.parts ++ [(m, r.bytes)]
    if ps.length = n then
      (some ((sortBy (fun a b => decide (a.1 < b.1)) ps).map (·.2)).flatten, { s with grd := { s.grd with parts := rest } })
    else (none, { s with grd := { s.grd with parts := rest ++ [{ g with parts := ps }] } })
/-- A context operation passes in place of test 5: LOADED, READY, RUNNING or PARKED, and the same GEN (12 R318). -/
def State.guardCtxOk (s : State) (c gen : Nat) : Bool :=
  (s.cState c == stLoaded || s.cActive c) && s.cGen c == gen
/-- The oldest complete GUARD message of an operation: acknowledged, DUP when Guard has it already, and its
payload handed on when every part has arrived. A fenced package only acknowledges (12 R317). -/
def State.guardRx (s : State) (gop : Nat) (had : Rx → Bool) (act : Rx → Bytes → State → State) : State :=
  match s.rxFind (fun r => r.key.kind == 3 && r.gop == gop) with
  | none => s
  | some r =>
    let s1 := s.rxDrop r
    if !jobOp gop && !s1.guardCtxOk r.key.ctx r.key.gen then s1.bump 0xB02054 1
    else if s1.grd.fenced then s1.ack r 0 0 0 false false
    else if had r then s1.ansDup r 0 0 0
    else
      let (p, s2) := (s1.ack r 0 0 0 false false).guardPart r
      match p with
      | some bs => act r bs s2
      | none => s2

/-! ### Fencing and incarnations -/

/-- The package fences itself: every context of the job becomes FAULTED, and FENCED (12 R317, Table 12-9). -/
def State.fence (s : State) : State :=
  if s.grd.fenced then s
  else
    let s1 := { s with grd := { s.grd with fenced := true } }
    (s.jobCtxs.foldl (fun s c => (s.yieldEv c 2 6).faultCtx c) s1).err 0xE00000 8
/-- Guard assigns this package an incarnation: GRD_INCARN, and for every domain with a key (04 R116). -/
def State.setOwnInc (s : State) (inc : Nat) : State :=
  let doms := (s.ctl.keys.filter (fun e => e.2.isSome)).map (·.1)
  let s1 := s.setRegN 0xE00058 (2 ^ 31 + inc)
  { s1 with
    grd := { s1.grd with inc := s1.grd.inc.set (fun _ => none) s.node (some inc) },
    ctl := { s1.ctl with incSince := doms.foldl (fun m d => m.set (fun _ => false) d true) s1.ctl.incSince } }
/-- The watch entries of a node start afresh: it has been replaced. -/
def State.freshWatch (s : State) (n : Nat) : State :=
  (List.range 8).foldl (fun s i =>
    if s.regN (0xE00080 + 4 * i) = n then
      { s with grd := { s.grd with
        seen := s.grd.seen.set (fun _ => 0) i s.time.ktime,
        declared := s.grd.declared.set (fun _ => false) i false } }
    else s) s
/-- An incarnation update (12 R317, R340): for this package's own ID a newer one fences it, and its first one is
taken; for another node the newest is kept. -/
def State.setInc (s : State) (n inc : Nat) : State :=
  if n = s.node then
    if !(s.reg 0xE00058).getLsbD 31 then s.setOwnInc inc
    else if s.ownInc < inc then s.fence
    else if s.ownInc = inc then s.setOwnInc inc
    else s
  else
    match s.incOf n with
    | none => { s with grd := { s.grd with inc := s.grd.inc.set (fun _ => none) n (some inc) } }
    | some old =>
      if old < inc then
        ({ s with grd := { s.grd with inc := s.grd.inc.set (fun _ => none) n (some inc) } }).freshWatch n
      else s
/-- An NINC entry: node and incarnation (12 Table 12-4). -/
def State.setIncs (s : State) (es : List Nat) : State := es.foldl (fun s e => s.setInc (nfld e 0 18) (nfld e 18 6)) s

/-! ### The recovery log, R349 -/

/-- Append an entry to the recovery log, a ring of GRD_RLOG_SIZE entries. -/
def State.rlog (s : State) (step c failed spare inc : Nat) : State :=
  let n := s.gconf 0xE00070 % 2 ^ 24
  if n = 0 then s
  else
    let h := s.regN 0xE00074
    (s.ctxWrite c (s.gconf 0xE00068 + s.gconf 0xE0006C * 2 ^ 32 + 16 * (h % n))
      (leBytes 16 (step + c * 2 ^ 48 + failed * 2 ^ 60 + spare * 2 ^ 78 + inc * 2 ^ 96))).setRegN 0xE00074 (h + 1)

/-! ### Spares, R340, R344 -/

/-- Entries of the spare table: node and failure domain. -/
def State.spares (s : State) : List (Nat × Nat) :=
  (List.range (s.gconf 0xE0005C)).map (fun i =>
    let e := s.memN ((s.gconf 0xE00060 + s.gconf 0xE00064 * 2 ^ 32) + 4 * i) 4
    (nfld e 0 18, nfld e 18 10))
/-- Confirmed failures of members: a node of the spare table is not one. -/
def State.membersDown (s : State) : List Nat :=
  s.grd.confirmed.filter (fun n => !s.spares.any (fun e => e.1 == n))
/-- The failure domain that the domain table gives a node (13 R379). -/
def State.domainOf (s : State) (n : Nat) : Nat := s.memN (s.reg64 0x201050 + 4 * n) 4 % 2 ^ 10
/-- The spare for a failed node: itself when it reported itself (R347), else the first of its failure domain that is
alive and neither adopting nor spent. -/
def State.spareFor (s : State) (x : Nat) : Option Nat :=
  if s.grd.selfs.contains x then some x
  else
    (s.spares.find? (fun e => e.2 == s.domainOf x && !s.grd.confirmed.contains e.1 && !s.grd.spent.contains e.1)).map
      (·.1)
/-- Ownership entries: OWNER and MIRROR (13 R380). -/
def State.owners (s : State) : List (Nat × Nat) :=
  (List.range (s.regN 0x201064)).map (fun i =>
    let a := s.reg64 0x20105C + 24 * i
    (s.memN (a + 16) 4 % 2 ^ 18, s.memN (a + 20) 4 % 2 ^ 18))
/-- Sources of the recovery transfer of a node: the mirrors of what it owns and the owners of what it mirrors
(12 R342). -/
def State.sources (s : State) (x : Nat) : List Nat :=
  (s.owners.filterMap (fun e => if e.1 = x then some e.2 else if e.2 = x then some e.1 else none)).eraseDups
/-- Both holders of a shard are confirmed failed before a transfer has copied it, which a spare's READY ends (R341): SHARD_LOST
(12 R344). -/
def State.shardCheck (s : State) : State :=
  let d := s.membersDown.filter (fun n => !s.grd.adoptions.any (fun a => a.node == n && a.ready))
  if s.owners.any (fun e => d.contains e.1 && d.contains e.2) then
    ({ s with grd := { s.grd with shardLost := true } }).err 0xE00000 11
  else s
/-- This package adopts a logical node ID, or takes its own again (12 R341, R347): GRD_NODE_ID, GRD_ROLE 0, its
incarnation, the announcement of 09 R236 on every port that is up, and PG_ERR.ADOPT for the host. It has no READY to send
before the transfer. -/
def State.adoptHere (s : State) (id inc : Nat) : State :=
  let s1 := ((s.setRegN 0xE00044 id).setRegN 0xE0004C 0).setOwnInc inc
  let ps := (List.range 16).filter (fun p => (s.macPort p).up)
  let s2 := ps.foldl (fun s p => s.emit (s.announcement p)) s1
  ({ s2 with grd := { s2.grd with
      adopted := some (id, s.node), readySent := false, transferred := [] } }).err 0xE00000 9
/-- An ADOPT reaches this package: of its own ID it takes effect after the host has loaded again every context that was reset
(12 R347). -/
def State.takeAdopt (s : State) (id inc : Nat) : State :=
  if id = s.node && !s.grd.reload.isEmpty then { s with grd := { s.grd with ownAdopt := some inc } }
  else s.adoptHere id inc
/-- Contexts that were reset are loaded again: an ADOPT of this package's own ID that waited takes effect (12 R347). -/
def State.reloaded (s : State) (c : Nat) : State :=
  let s1 := { s with grd := { s.grd with reload := s.grd.reload.filter (fun x => x != c) } }
  match s1.grd.ownAdopt with
  | some inc =>
    if s1.grd.reload.isEmpty then
      ({ s1 with grd := { s1.grd with ownAdopt := none } }).adoptHere s1.node inc
    else s1
  | none => s1
/-- Choose a spare for one failed member: its new incarnation, INCARN to the sources and to TWIN, ADOPT to the spare
(12 R340); INCARN_OUT past 63. Where this package is itself TWIN of the failed one, it is told so here. Reports about the
node count afresh from here, for the spare that takes its ID (R358). Log entries 115, 116. -/
def State.adoptOne (s : State) (c x : Nat) : State :=
  if s.grd.adoptions.any (fun a => a.node == x) then s
  else
    match s.spareFor x with
    | none => s
    | some sp =>
      let inc := ((s.incOf x).map (· + 1)).getD 0
      if 63 < inc then s.err 0xE00000 10
      else
        let s1 := { s with grd := { s.grd with
          inc := s.grd.inc.set (fun _ => none) x (some inc)
          spent := if sp = x then s.grd.spent else s.grd.spent ++ [sp]
          reps := s.grd.reps.filter (fun p => p.1 != x)
          newIncs := if s.twin c = x && !s.grd.newIncs.contains x then s.grd.newIncs ++ [x] else s.grd.newIncs
          adoptions := s.grd.adoptions ++ [(⟨x, inc, sp, false⟩ : Adoption)] } }
        let to_ := ((s.sources x ++ [s.twin c]).eraseDups).filter (fun n => n != s.node && n != x)
        let s2 := to_.foldl (fun s n => s.guardSend n 0 0 0 x 6 inc 0 []) s1
        if sp = s.node then s2.takeAdopt x inc else s2.guardSend sp 0 0 0 x 5 inc 0 []
/-- After a HOLD at the acting root: a spare for every confirmed member that has none. -/
def State.chooseSpares (s : State) : State :=
  match s.jobCtxs.find? (fun c => s.acting c && (s.gx c).needResume) with
  | none => s
  | some c => s.shardCheck.membersDown.foldl (fun s x => s.adoptOne c x) s.shardCheck

/-! ### Parks and RESUMEs, R345, R353, R354 -/

/-- Zero every residual buffer of a context. -/
def State.zeroCtx (s : State) (c : Nat) : State := (s.slotsOf c).foldl (fun s t => s.zeroResiduals t) s
/-- KEY_MISSING: encryption or Tongs is enabled and the domain holds no key, or Tongs is and the domain holds no access key
or no window (01 R14, 10 R270). -/
def State.keyMissing (s : State) (c : Nat) : Bool :=
  let d := s.cPdom c
  ((s.cEnc c || s.cTng c) && (s.ctl.keys.get (fun _ => none) d).isNone)
    || (s.cTng c && ((s.tkey d).isNone || s.dAddr d 2 == 0))
/-- INCARN_MISSING: encryption is enabled and Guard has assigned no incarnation since the key was loaded (04 R116). -/
def State.incMissing (s : State) (c : Nat) : Bool := s.cEnc c && !s.ctl.incSince.get (fun _ => false) (s.cPdom c)
/-- A context that is unparked becomes READY, or LOADED when its key or its incarnation is missing (01 Table 1-2, 04
R119). -/
def State.unpark (s : State) (c : Nat) : State :=
  if s.cState c != stParked then s
  else s.setCState c (if s.keyMissing c || s.incMissing c then stLoaded else stReady)
/-- The root or the standby logs the adoption that an incarnation entry of a RESUME ends (12 R349); the standby, which chose
no spare, keeps the spare table's entries as the adoptions use them up. -/
def State.logAdopted (s : State) (c step e : Nat) : State :=
  let n := nfld e 0 18
  if !s.grd.confirmed.contains n then s
  else
    match s.grd.adoptions.find? (fun a => a.node == n) with
    | some a => s.rlog step c n (a.spare % 2 ^ 18) (nfld e 18 6)
    | none =>
      let former := (s.spareFor n).getD (Config.openValue 4 n).toNat
      let s1 := { s with grd := { s.grd with
        spent := if former = n || s.grd.spent.contains former then s.grd.spent else s.grd.spent ++ [former] } }
      s1.rlog step c n (former % 2 ^ 18) (nfld e 18 6)
/-- A RESUME is applied: its incarnations, its launch count, the end of a hold and of a park; LAUNCH_PAST when the
count has passed (12 R345, R354). The root and the standby log the adoptions it ends (R349). -/
def State.applyResume (s : State) (c : Nat) (o : ParkOp) : State :=
  let nodes := o.incs.map (fun e => nfld e 0 18)
  let logged := if s.atRoot c || s.atStandby c then
      o.incs.foldl (fun s e => s.logAdopted c (o.step - 1) e) s
    else s
  let s1 := logged.setIncs o.incs
  let late := decide (o.launch < s.time.ktime)
  let s2 := if late then (s1.err 0xE01000 10).yieldEv c 5 2 else s1
  let g := s2.gx c
  let s3 := s2.setGx c { g with
    pseq := o.pseq, park := none, parkHeld := false, launch := some o.launch, needResume := false, member := true, agreed := false,
    resynced := false }
  let excess := !s3.jobCtxs.any (fun x => (s3.gx x).needResume)
  let s4 := if excess then
      { s3 with grd := { s3.grd with
        confirmed := s3.grd.confirmed.filter (fun n => !nodes.contains n)
        selfs := s3.grd.selfs.filter (fun n => !nodes.contains n)
        reps := s3.grd.reps.filter (fun p => !nodes.contains p.1)
        adoptions := s3.grd.adoptions.filter (fun a => !nodes.contains a.node)
        transferred := [], newIncs := [] } }
    else s3
  s4.unpark c
/-- Apply the parks and RESUMEs whose turn it is (12 R354); `fuel` of them at most. A package that has applied no
RESUME since the load takes any RESUME (log entry 17). -/
def State.applyOps (s : State) (c : Nat) : Nat → State
  | 0 => s
  | f + 1 =>
    let g := s.gx c
    match g.ops.find? (fun o => o.pseq == (g.pseq + 1) % 2 ^ 32 || (o.resume && !g.member)) with
    | none => s
    | some o =>
      let s1 := s.setGx c { g with ops := g.ops.filter (fun x => x != o) }
      if o.resume then (s1.applyResume c o).applyOps c f
      else ((s1.setGx c { s1.gx c with pseq := o.pseq, park := some o.step }).parkCheck c).applyOps c f
/-- A park or RESUME joins those that wait for their turn. -/
def State.addOp (s : State) (c : Nat) (o : ParkOp) : State :=
  let g := s.gx c
  let s1 := s.setGx c { g with ops := g.ops ++ [o] }
  s1.applyOps c (g.ops.length + 1)
/-- The payload of a RESUME: the launch count and NINC entries (12 R340, Table 12-2). -/
def resumeBytes (o : ParkOp) : Bytes := leBytes 8 o.launch ++ (o.incs.map (leBytes 4)).flatten
/-- Send a RESUME to a list of packages. -/
def State.resumeTo (s : State) (c : Nat) (to_ : List Nat) (o : ParkOp) : State :=
  to_.foldl (fun s n => s.guardSend n c (s.cGen c) o.step 0 7 0 o.pseq (resumeBytes o)) s
/-- The acting root starts a RESUME: the next PSEQ, down the verdict tree, and applied here. -/
def State.rootResume (s : State) (c launch : Nat) (incs : List Nat) : State :=
  let g := s.gx c
  let p := max g.given g.pseq + 1
  let o : ParkOp := ⟨p % 2 ^ 32, true, s.cStep c + 1, launch, incs⟩
  let s1 := s.setGx c { g with given := p % 2 ^ 32, agreed := false }
  let up := if s.atRoot c then [] else s.rootId c :: s.rvchildren c
  ((s1.resumeTo c up o).resumeTo c (s.vchildren c) o).addOp c o
/-- RESUME received: forwarded to the verdict children, and applied in its turn (12 R354). -/
def resume (s : State) : State :=
  s.guardRx 7 (fun r =>
      let g := s.gx r.key.ctx
      let p := nfld r.spec 28 32
      (g.member && p ≤ g.pseq) || g.ops.any (fun o => o.pseq == p && o.resume))
    (fun r bs s =>
      let c := r.key.ctx
      let o : ParkOp := ⟨nfld r.spec 28 32, true, r.key.step, ofLe (bs.take 8), (chunks 4 (bs.drop 8)).map ofLe⟩
      (s.resumeTo c (s.vchildren c) o).addOp c o)
/-- RESUME (12 R340, R345, R354). -/
def execResume (s : State) : Host.Outcome State Fault Refusal := done (resume s)

end Sys2Proof.Machine
end

