-- ==== Sys2Proof/Machine/Verdict.lean ====
section
/-! DEFINITION. The verdict (12 R320 to R328, R330): VUPs and their merge, the root's decision, VDOWNs, holding a
verdict, VQUERYs; step manifests (R337), lock-step (R351), parks at the root (R353) and GRD_VERDICT_FORCE (R437). -/
namespace Sys2Proof.Machine
open Sys2Proof

/-! ### Payloads -/

/-- The VUP payload (12 Table 12-3). -/
def vupBytes (v : Vup) : Bytes :=
  leBytes 4 v.flags ++ leBytes 4 v.cover ++ leBytes 4 v.dig ++ leBytes 2 v.man.length ++ leBytes 2 v.fails.length
    ++ (v.table.map (leBytes 8)).flatten ++ (v.stats.map (leBytes 8)).flatten ++ (v.man.map (leBytes 16)).flatten
    ++ (v.fails.map (leBytes 4)).flatten
/-- `n` numbers of `k` bytes each, from the front of a byte string. -/
def numsOf (k n : Nat) (bs : Bytes) : List Nat := (List.range n).map (fun i => ofLe ((bs.drop (k * i)).take k))
/-- A received VUP. -/
def State.vupOf (s : State) (c src step : Nat) (bs : Bytes) : Vup :=
  let n := (s.slotsOf c).length
  let ns := s.statLen c
  let f (i k : Nat) : Nat := ofLe ((bs.drop i).take k)
  let nm := f 12 2
  { src := src, step := step, flags := f 0 4, cover := f 4 4, dig := f 8 4, table := numsOf 8 n (bs.drop 16),
    stats := numsOf 8 ns (bs.drop (16 + 8 * n)), man := numsOf 16 nm (bs.drop (16 + 8 * (n + ns))),
    fails := (numsOf 4 (f 14 2) (bs.drop (16 + 8 * (n + ns) + 16 * nm))).map (· % 2 ^ 18) }
/-- The VDOWN payload (12 Table 12-4); in the one that goes to the standby, which writes the same step record as the root
(12 R337), the step's manifest entries follow the listed parts (`full`; log entry 18). -/
def vdBytes (full : Bool) (v : Vd) : Bytes :=
  leBytes 1 v.verdict ++ leBytes 1 v.vflags ++ leBytes 2 v.incs.length ++ leBytes 4 v.reasons ++ leBytes 4 v.mandig
    ++ leBytes 2 v.nman ++ zeros 2 ++ (v.table.map (leBytes 8)).flatten ++ (v.stats.map (leBytes 8)).flatten
    ++ (v.incs.map (leBytes 4)).flatten ++ v.image.getD [] ++ (if full then (v.man.map (leBytes 16)).flatten else [])
/-- EARLY (12 Table 12-4). -/
def Vd.early (v : Vd) : Bool := v.vflags.testBit 0
/-- A received VDOWN. Its tables are there when it is not EARLY and is long enough to hold them, and the manifest entries when
they follow. -/
def State.vdOf (s : State) (c step pseq : Nat) (bs : Bytes) : Vd :=
  let n := (s.slotsOf c).length
  let ns := s.statLen c
  let f (i k : Nat) : Nat := ofLe ((bs.drop i).take k)
  let vf := f 1 1
  let ni := f 2 2
  let nm := f 12 2
  let has := !vf.testBit 0 && decide (16 + 8 * (n + ns) + 4 * ni ≤ bs.length)
  let a := if has then 16 + 8 * (n + ns) else 16
  let img := if has && (f 4 4).testBit 1 then 136 * n + 2 * (s.billetsOf c).length else 0
  let m := a + 4 * ni + img
  { step := step, verdict := f 0 1, vflags := vf, reasons := f 4 4, mandig := f 8 4, nman := nm,
    table := if has then numsOf 8 n (bs.drop 16) else [],
    stats := if has then numsOf 8 ns (bs.drop (16 + 8 * n)) else [],
    man := if m + 16 * nm ≤ bs.length then numsOf 16 nm (bs.drop m) else [], incs := numsOf 4 ni (bs.drop a),
    image := if img = 0 then none else some ((bs.drop (a + 4 * ni)).take img), pseq := pseq }
/-- Send a VDOWN to a list of packages. -/
def State.vdTo (s : State) (c : Nat) (to_ : List Nat) (v : Vd) : State :=
  to_.foldl (fun s n => s.guardSend n c (s.cGen c) v.step (s.closingId c) 2 0 v.pseq (vdBytes (n == s.standbyId c) v)) s

/-! ### Up the tree -/

/-- Every Billet with a compared block has been compared, under LOCKSTEP (12 R320). -/
def State.lsDone (s : State) (c : Nat) : Bool :=
  !s.lockstep c || (s.billetsOf c).all (fun b => s.comparedBlocks c b == [] || (s.gx c).compared.contains b)
/-- A child whose failure this package, the root or the standby, has confirmed (12 R320). -/
def State.absent (s : State) (c n : Nat) : Bool := (s.atRoot c || s.atStandby c) && s.grd.confirmed.contains n
/-- The VUP of a child for the open step. -/
def State.childVup (s : State) (c n : Nat) : Option Vup := (s.gx c).vups.find? (fun v => v.src == n && v.step == s.cStep c)
/-- This package's own part (12 R321, R322; 05 R135). -/
def State.ownVup (s : State) (c : Nat) : Vup :=
  let g := s.gx c
  let ts := s.slotsOf c
  let nf := g.diverge || g.winOvf || ts.any (fun t => (s.stat t).flags &&& nfClass != 0 || (s.stat t).wovf != 0)
  { src := s.node, step := s.cStep c
    flags := b2n nf + 2 * b2n g.diverge + 8 * b2n g.lsMis + 16 * b2n g.manOvf
    cover := 1, dig := s.tableDigest c, table := ts.map s.localEntry
    stats := (ts.map (fun t =>
      let x := foldStat (s.stat t)
      s.statWords t (if s.statSsq t then s.ownSsq t (s.cStep c) else 0) x.n x.mean x.m2)).flatten
    man := g.man, fails := [] }
/-- Merge a child's record, or its absence (12 R322); one that carries another digest is not summed (03 R84). -/
def State.mergeChild (s : State) (c : Nat) (m : Vup) (n : Nat) : State × Vup :=
  match s.childVup c n with
  | none => (s, { m with flags := m.flags ||| 4, fails := m.fails ++ [n] })
  | some v =>
    let (es, excess) := s.manCut (m.man ++ v.man)
    let m1 := { m with flags := m.flags ||| v.flags ||| 16 * b2n excess, man := es, fails := m.fails ++ v.fails }
    if v.dig != m.dig then (s.digestBad c (s.closingId c) n, { m1 with flags := m1.flags ||| 3 })
    else
      (s, { m1 with
        cover := m.cover + v.cover, table := mergeTable s (s.slotsOf c) m.table v.table,
        stats := mergeStats s (s.slotsOf c) m.stats v.stats })
/-- The merge of this package: its own part, then its children in list order. -/
def State.merged (s : State) (c : Nat) : State × Vup :=
  (s.vchildren c).foldl (fun p n => p.1.mergeChild c p.2 n) (s, s.ownVup c)

/-! ### Holding a verdict -/

/-- The order of manifest entries: AT, BILLET, BLK, NODE, KIND (12 R337). -/
def manKey (e : Nat) : List Nat := [nfld e 80 18, nfld e 22 20, nfld e 42 20, nfld e 0 18, nfld e 18 4]
/-- Lexicographic order. -/
def lexLt : List Nat → List Nat → Bool
  | a :: as, b :: bs => decide (a < b) || (a == b && lexLt as bs)
  | _, _ => false
/-- The sorted manifest. -/
def sortMan (es : List Nat) : List Nat := sortBy (fun a b => lexLt (manKey a) (manKey b)) es
/-- MANDIG (12 R325, R337). -/
def manDig (es : List Nat) : Nat := crc32c ((es.map (leBytes 16)).flatten)
/-- A step record of the manifest. -/
def State.manRecord (s : State) (c : Nat) (v : Vd) : Bytes :=
  leBytes 32 (v.step + c * 2 ^ 48 + s.cGen c * 2 ^ 60 + v.verdict * 2 ^ 76 + v.man.length * 2 ^ 80 + v.mandig * 2 ^ 96)
    ++ (v.man.map (leBytes 16)).flatten
/-- The root and the standby write the step record into the MAN area, back to back, from its start again when the
next does not fit (12 R337; log entry 18). -/
def State.writeMan (s : State) (c : Nat) (v : Vd) : State :=
  let size := (s.gw c 14).toNat * 4096
  let bs := s.manRecord c v
  if size < bs.length then s
  else
    let g := s.gx c
    let off := if g.manOff + bs.length ≤ size then g.manOff else 0
    (s.ctxWrite c (s.gAddr c 12 + off) bs).setGx c { g with manOff := off + bs.length }
/-- The node that this package answers as TWIN: its own TWIN, or one that it has been told of and holds no shard of (12 R340,
R341; log entry 115). -/
def State.twinOf (s : State) (c : Nat) : Option Nat :=
  s.grd.newIncs.find? (fun n => n != s.node && (n == s.twin c || !(s.sources n).contains s.node))
/-- The package sends its image to the package that it is TWIN of, at the held step boundary (12 R341). -/
def State.resyncTry (s : State) (c : Nat) : State :=
  let g := s.gx c
  match s.twinOf c with
  | none => s
  | some n =>
    if !g.needResume || g.resynced then s
    else
      let img := match s.tmp.bound.get (fun _ => none) c with
        | some b => (s.runBoundary c b).image c
        | none => s.image c
      (s.setGx c { g with resynced := true }).guardSend n c (s.cGen c) (s.cStep c) 0 8 0 0 img
/-- What the end of a verdict writes outside Guard: the close entry, cancellations, residuals. -/
def State.closeStep (s : State) (c : Nat) (v : Vd) : State :=
  let s2 := (s.addClose ⟨c, s.cGen c, v.step, s.time.ktime⟩).cancelStep c v.step
  let s3 := s2.setPhase c { s2.phase c v.step with verdict := v.verdict, early := v.early }
  let s4 := if v.verdict = 2 then (s3.forgetOwn c).zeroCtx c
    else if v.verdict = 0 && (s3.hx c).sparge then
      ((s3.slotsOf c).filter (fun t => isCoded (s3.tfmt t))).foldl (fun s t => s.zeroResiduals t) s3
    else s3
  let b : Bound := ⟨v.step, v.verdict, v.early || v.table.length != (s.slotsOf c).length, v.table, v.stats, v.image⟩
  { s4 with tmp := { s4.tmp with bound := s4.tmp.bound.set (fun _ => none) c (some b) } }
/-- What the root and the standby write for a verdict: the step record, and the recovery log at a HOLD (12 R337,
R349). -/
def State.rootRecords (s : State) (c : Nat) (v : Vd) : State :=
  if !(s.atRoot c || s.atStandby c) then s
  else
    let s1 := s.writeMan c v
    if v.verdict = 2 then s1.rlog v.step c (s.grd.confirmed.headD 0) 0 0 else s1
/-- The yields of a verdict: INTEGRITY_SKIP (03 R84, 12 R351) and REPLAY_DIVERGE (12 R338). A manifest in a Malt footprint is
not read (11 R292). -/
def State.verdictYields (s : State) (c : Nat) (v : Vd) : State :=
  if s.policy c = 3 && s.inFootprint (s.gAddr c 15) 32 then s.faultCtx c
  else
    let s1 := if v.verdict = 1 && v.reasons &&& 10 != 0 then s.yieldEv c 3 7 else s
    match s1.manIn c v.step with
    | some (k, _) => if k != v.verdict then (s1.err 0xE01000 11).yieldEv c 3 5 else s1
    | none => s1
/-- The VERDICT of a step ends here, once the cooling list has room for the close entry (09 R248, R249; 12 R326,
R345). -/
def State.verdictEnd (s : State) (c : Nat) (v : Vd) : State :=
  let g := s.gx c
  if !s.coolRoom 1 then
    if g.toHold.isSome then s else (s.setGx c { g with toHold := some v }).coolFull c
  else
    let s1 := s.setGx c { g with
      toHold := none, verd := g.verd.set (fun _ => none) v.step (some v.verdict), hashes := [],
      needResume := g.needResume || v.verdict == 2 }
    let s2 := (((s1.closeStep c v).rootRecords c v).verdictYields c v)
    let s3 := if v.vflags.testBit 1 then s2.addOp c ⟨v.pseq, false, v.step, 0, []⟩ else s2
    ((s3.resyncTry c).chooseSpares).touch c
/-- A package that has not finished its part when it holds an EARLY verdict cancels its messages, drops its
open blocks and makes no VUP (12 R326). -/
def State.dropPart (s : State) (c step : Nat) : State :=
  let s1 := s.cancelStep c step
  { s1 with
    msh := { s1.msh with
      opens := s1.msh.opens.filter (fun o => o.ctx != c), hands := s1.msh.hands.filter (fun h => h.ctx != c) },
    pck := { s1.pck with
      own := s1.pck.own.filter (fun o => o.ctx != c), front := s1.pck.front.filter (fun f => f.ctx != c) } }
/-- The package holds a verdict of its open step, after it has forwarded it (12 R326). -/
def State.holdVd (s : State) (c : Nat) (v : Vd) : State :=
  let g := s.gx c
  let s1 := s.setGx c { g with
    parkHeld := g.parkHeld || v.vflags.testBit 1, vlog := (v :: g.vlog).take 16, vqAt := none, decided := none,
    later := none, sent := g.sent || v.early }
  let s2 := (s1.countEv 0xE01000 0x10 1).setIncs v.incs
  let s3 := if v.early && !g.sent then s2.dropPart c v.step else s2
  s3.verdictEnd c v
/-- The open step has no verdict here, not even one that waits for cooling space. -/
def State.noVerdict (s : State) (c : Nat) : Bool :=
  (s.verdictOf c (s.cStep c)).isNone && (s.gx c).toHold.isNone

/-! ### The decision -/

/-- The verdict that the root decides on a merge, or EARLY without one (12 R323, R325, R353). -/
def State.rootVd (s : State) (c : Nat) (m : Option Vup) : State × Vd :=
  let fail := s.membersDown != []
  let (es, excess) := s.manCut (sortMan (match m with | some v => v.man | none => []))
  let fl := (match m with | some v => v.flags | none => 0) ||| 16 * b2n excess
  let cover := match m with | some v => v.cover | none => s.members c
  let skip := fl &&& 27 != 0
  let hold := fail || fl.testBit 2
  let badCover := !hold && !skip && cover != s.members c
  let k := if hold || badCover then 2 else if skip then 1 else 0
  let g := s.gx c
  let park := match g.asked with | some (p, _) => p == s.cStep c | none => false
  let pq := (max g.given g.pseq + 1) % 2 ^ 32
  let table := match m with | some v => v.table | none => []
  let stats := match m with | some v => v.stats | none => []
  let b : Bound := ⟨s.cStep c, k, false, table, stats, none⟩
  let v : Vd :=
    { step := s.cStep c, verdict := k, vflags := b2n m.isNone + 2 * b2n park, reasons := fl + 256 * b2n fail,
      mandig := manDig es, nman := es.length, table := table, stats := stats, man := es, incs := [],
      image := if m.isSome && fl.testBit 1 then some ((s.runBoundary c b).image c) else none,
      pseq := if park then pq else 0 }
  let s1 := if badCover then s.err 0xE00000 12 else s
  if park then
    (((s1.setGx c { g with asked := none, given := pq, agreed := true }).setRegN 0xE01080 0).setRegN 0xE01084 pq, v)
  else (s1, v)
/-- The root releases its verdict: to its children, and to itself (12 R324, R326). -/
def State.rootRelease (s : State) (c : Nat) (v : Vd) : State := (s.vdTo c (s.vchildren c) v).holdVd c v
/-- The root decides: the VDOWN goes to the standby first, and to the children only after its ACK (12 R324). -/
def State.rootDecide (s : State) (c : Nat) (m : Option Vup) : State :=
  let (s1, v) := s.rootVd c m
  let sb := s.standbyId c
  if sb = s.node || s.grd.confirmed.contains sb then s1.rootRelease c v
  else (s1.setGx c { s1.gx c with decided := some v }).vdTo c [sb] v
/-- The standby takes the root's place for the open step (12 R324): the VDOWN it holds goes to the root's children;
where it holds none it decides HOLD, EARLY. -/
def State.takeover (s : State) (c : Nat) : State :=
  let g := s.gx c
  match (g.vlog ++ g.later.toList).find? (fun v => v.step == s.cStep c || some v == g.later) with
  | some v => s.vdTo c (s.rvchildren c) v
  | none =>
    if (s.hx c).opened = 0 then s
    else
      let v : Vd := ⟨s.cStep c, 2, 1, 256, manDig [], 0, [], [], [], [], none, 0⟩
      ((s.vdTo c (s.rvchildren c) v).vdTo c (s.vchildren c) v).holdVd c v
/-- What a confirmed failure means for the open step of a context (12 R323, R324, R330). -/
def State.onFailure (s : State) (c : Nat) : State :=
  let conf (n : Nat) : Bool := s.grd.confirmed.contains n
  let g := s.gx c
  let waits := (s.hx c).opened != 0 && s.noVerdict c
  if s.atRoot c then
    match g.decided with
    | some v => if conf (s.standbyId c) then s.rootRelease c v else s
    | none => if waits && s.membersDown != [] then s.rootDecide c none else s
  else if s.atStandby c && conf (s.rootId c) then s.takeover c
  else if waits && conf (s.rootId c) && conf (s.standbyId c) then s.err 0xE01000 9
  else s
/-- Guard's part of a step's opening: a VDOWN that arrived before, or what an earlier failure means for it. -/
def State.guardOpen (s : State) (c : Nat) : State :=
  match (s.gx c).later with
  | some v => if v.step = s.cStep c then s.holdVd c v else s.onFailure c
  | none => s.onFailure c
/-- VUP_SEND: once every condition of R320 holds, a package sends its VUP, and the root decides (12 R320 to R323). -/
def vupSend (c : Nat) (s : State) : State :=
  let g := s.gx c
  let ready := s.cActive c && (s.hx c).opened != 0 && !g.sent && g.decided.isNone && s.noVerdict c && s.partDone c
    && s.lsDone c && (s.vchildren c).all (fun n => (s.childVup c n).isSome || s.absent c n)
  if !ready then s
  else if s.ssqBlocked c (s.cStep c) then s.faultCtx c
  else
    let (s1, m) := (s.markVerdict c).merged c
    if s.atRoot c then (s1.setGx c { s1.gx c with sent := true }).rootDecide c (some m)
    else
      let s2 := s1.setGx c { s1.gx c with sent := true, vqAt := some (s.time.ktime + s.vwait c), vqN := 0 }
      s2.guardSend (s.vparent c) c (s.cGen c) (s.cStep c) (s.closingId c) 1 0 0 (vupBytes m)
/-- VUP_SEND (12 R320). -/
def execVupSend (c : Ctx) (s : State) : Host.Outcome State Fault Refusal := done (vupSend c.toNat s)
/-- VUP received: kept for the merge; after the package's own VUP or its verdict it is acknowledged and ignored
(12 R319, R322, R358). -/
def vup (s : State) : State :=
  s.guardRx 1 (fun r => (s.gx r.key.ctx).vups.any (fun v => v.src == r.src && v.step == r.key.step))
    (fun r bs s =>
      let c := r.key.ctx
      let g := s.gx c
      let old := decide (r.key.step < s.cStep c)
        || (r.key.step == s.cStep c && (g.sent || g.decided.isSome || !s.noVerdict c))
      if old || !(s.vchildren c).contains r.src then s
      else s.setGx c { g with vups := g.vups ++ [s.vupOf c r.src r.key.step bs] })
/-- VUP (12 R322). -/
def execVup (s : State) : Host.Outcome State Fault Refusal := done (vup s)

/-! ### Down the tree -/

/-- A VDOWN reaches this package: forwarded first; held at once for the open step, kept for a later one (12 R326). -/
def State.takeVd (s : State) (c : Nat) (v : Vd) : State :=
  let s1 := s.vdTo c (s.vchildren c) v
  if s.stepOpen c v.step then s1.holdVd c v
  else if s.cStep c < v.step || (s.hx c).opened = 0 then s1.setGx c { s1.gx c with later := some v }
  else s1
/-- VDOWN received (12 R326). -/
def vdown (s : State) : State :=
  s.guardRx 2 (fun r =>
      let c := r.key.ctx
      let g := s.gx c
      (s.verdictOf c r.key.step).isSome || g.vlog.any (fun v => v.step == r.key.step)
        || (match g.later with | some v => v.step == r.key.step | none => false)
        || (match g.decided with | some v => v.step == r.key.step | none => false))
    (fun r bs s => s.takeVd r.key.ctx (s.vdOf r.key.ctx r.key.step (nfld r.spec 28 32) bs))
/-- VDOWN (12 R326). -/
def execVdown (s : State) : Host.Outcome State Fault Refusal := done (vdown s)
/-- VWAIT_EXPIRY: a VQUERY to ROOT_ID, then alternately to STANDBY_ID and ROOT_ID, every VWAIT; the first one yields;
VERDICT_LOST when both are lost (12 R328, R330). -/
def vwaitExpiry (c : Nat) (s : State) : State :=
  let g := s.gx c
  match g.vqAt with
  | none => s
  | some t =>
    if s.time.ktime < t || !s.noVerdict c then s
    else
      let lost (n : Nat) : Bool := s.grd.confirmed.contains n || g.lostTo.contains n
      if lost (s.rootId c) && lost (s.standbyId c) then (s.setGx c { g with vqAt := none }).err 0xE01000 9
      else
        let n := if g.vqN % 2 = 0 then s.rootId c else s.standbyId c
        let s1 := s.setGx c { g with vqAt := some (s.time.ktime + s.vwait c), vqN := g.vqN + 1 }
        let s2 := if g.vqN = 0 then s1.yieldEv c 5 3 else s1
        if n = s.node then s2
        else (s2.countEv 0xE01000 0x11 1).guardSend n c (s.cGen c) (s.cStep c) (s.closingId c) 3 0 0 []
/-- VWAIT_EXPIRY (12 R328). -/
def execVwaitExpiry (c : Ctx) (s : State) : Host.Outcome State Fault Refusal := done (vwaitExpiry c.toNat s)
/-- VQUERY received: answered with the VDOWN that is held; the root answers the standby with one that waits for its
ACK; an acting standby decides first where it holds none (12 R324, R328). -/
def vquery (s : State) : State :=
  s.guardRx 3 (fun _ => false) (fun r _ s =>
    let c := r.key.ctx
    let step := r.key.step
    let s1 := if s.acting c && s.atStandby c && s.stepOpen c step && s.noVerdict c then s.takeover c else s
    let g := s1.gx c
    let own := if r.src = s.standbyId c then g.decided.toList else []
    match (g.vlog ++ g.later.toList ++ own).find? (fun v => v.step == step) with
    | some v => s1.vdTo c [r.src] v
    | none => s1)
/-- VQUERY (12 R328). -/
def execVquery (s : State) : Host.Outcome State Fault Refusal := done (vquery s)
/-- An ACK ended a GUARD message: the standby's ACK of the whole VDOWN lets the root release it (12 R324). -/
def State.guardAcked (s : State) (k : MKey) : State :=
  let c := k.ctx
  let g := s.gx c
  match k.blk % 16 with
  | 2 =>
    match g.decided with
    | some v =>
      if v.step = k.step && k.dst = s.standbyId c
          && !s.qcn.msgs.any (fun m => m.key.kind == 3 && m.key.blk % 16 == 2 && m.key.dst == k.dst && m.key.ctx == c
            && m.key.step == k.step) then s.rootRelease c v
      else s
    | none => s
  | 3 => s.setGx c { g with lostTo := g.lostTo.filter (fun n => n != k.dst) }
  | _ => s
/-- A GUARD message ended UNKNOWN: a VDOWN that the standby must have, and a RESYNC of a held step, are sent again
(log entry 19); a VQUERY's target counts as lost (12 R330). -/
def State.guardUnknown (s : State) (m : Msg) : State :=
  let k := m.key
  let c := k.ctx
  let g := s.gx c
  let again : State := s.sendMsg k m.payload m.spec m.charge 0 false none
  match k.blk % 16 with
  | 2 =>
    match g.decided with
    | some v => if v.step = k.step && k.dst = s.standbyId c then again else s
    | none => s
  | 3 => s.setGx c { g with lostTo := if g.lostTo.contains k.dst then g.lostTo else g.lostTo ++ [k.dst] }
  | 8 => if g.needResume && s.cStep c = k.step then again else s
  | _ => s

/-! ### Lock-step -/

/-- LOCKSIG received: the peer's signature of a Billet (12 R351). -/
def locksig (s : State) : State :=
  s.guardRx 9 (fun r =>
      match s.billetSlot r.key.ctx r.key.billet with
      | some b => (s.gx r.key.ctx).peer.any (fun p => p.1 == r.key.step && p.2.1 == b)
      | none => false)
    (fun r bs s =>
      let c := r.key.ctx
      match s.billetSlot c r.key.billet with
      | none => s
      | some b =>
        if r.key.step < s.cStep c || r.src != fld (s.gw c 4) 0 18 then s
        else
          let g := s.gx c
          let s1 := s.setGx c { g with peer := g.peer ++ [(r.key.step, b, BitVec.ofNat 64 (ofLe (bs.take 8)))] }
          if r.key.step = s.cStep c then s1.compareSigs c b else s1)
/-- LOCKSIG (12 R351). -/
def execLocksig (s : State) : Host.Outcome State Fault Refusal := done (locksig s)
/-- The first position at which two lists differ. -/
def firstDiff : List Nat → List Nat → Nat → Option Nat
  | [], [], _ => none
  | a :: as, b :: bs, i => if a = b then firstDiff as bs (i + 1) else some i
  | _, _, i => some i
/-- LSLIST received: GRD_LS_FIRST takes the first block that differs, unless it is VALID (12 R351, 16 R436). -/
def lslist (s : State) : State :=
  s.guardRx 10 (fun _ => false) (fun r bs s =>
    let c := r.key.ctx
    match s.billetSlot c r.key.billet with
    | none => s
    | some b =>
      if r.key.step != s.cStep c || r.src != fld (s.gw c 4) 0 18 || (s.reg 0xE01060).getLsbD 31 then s
      else
        match s.billetHashes c b with
        | none => s
        | some hs =>
          match firstDiff (hs.map (·.toNat)) (numsOf 8 (bs.length / 8) bs) 0 with
          | none => s
          | some i =>
            let n := (s.comparedBlocks c b).getD i 0
            (((s.setRegN 0xE0105C r.key.step).setRegN 0xE01060 (nfld r.key.step 32 16 + c * 2 ^ 16 + 2 ^ 31)).setRegN
              0xE01064 r.key.billet).setRegN 0xE01068 n)
/-- LSLIST (12 R351). -/
def execLslist (s : State) : Host.Outcome State Fault Refusal := done (lslist s)

/-! ### Commands of GRD page 1 -/

/-- GRD_PARK_STAT. -/
def State.parkStat (s : State) (lo pseq : Nat) : State := (s.setRegN 0xE01080 lo).setRegN 0xE01084 pseq
/-- GRD_PARK_CMD (12 R353, 16 R437): a PARK is accepted and pends until the VDOWN of its step, or ends LATE_REQ; a WAKE
cancels a pending PARK, or resumes an agreed one, or ends NOT_PARKED. -/
def parkCmd (v : W32) (s : State) : State :=
  let c := fld v 0 12
  let g := s.gx c
  let next := (max g.given g.pseq + 1) % 2 ^ 32
  if !s.atRoot c || (!bit v 12 && (g.asked.isSome || g.agreed)) then s.err 0xE01000 13
  else if !bit v 12 then
    let step := s.reg64 0xE01070 % 2 ^ 48
    let sentAt := (match g.decided with | some d => d.step == step | none => false) || (s.verdictOf c step).isSome
      || g.vlog.any (fun d => d.step == step)
    if step < s.cStep c || sentAt then s.parkStat 2 0
    else (s.setGx c { g with asked := some (step, next) }).parkStat 8 next
  else
    match g.asked with
    | some (_, p) => (s.setGx c { g with asked := none }).parkStat 1 p
    | none => if g.agreed then (s.rootResume c (s.reg64 0xE01078) []).parkStat 0 next else s.parkStat 3 0
/-- GRD_VERDICT_FORCE (12 R330, 16 R437): taken for a context that waits in VERDICT while VERDICT_LOST is 1, as a VDOWN
without tables. -/
def verdictForce (v : W32) (s : State) : State :=
  let c := fld v 0 12
  let lost := (s.regN 0xE01018).testBit 9
  let waits := s.cActive c && (s.hx c).opened != 0 && s.noVerdict c
  if !lost || !waits || fld v 16 2 = 3 then s.err 0xE01000 13
  else s.takeVd c ⟨s.cStep c, fld v 16 2, b2n (bit v 18), 0, manDig [], 0, [], [], [], [], none, 0⟩

end Sys2Proof.Machine
end

