-- ==== Sys2Proof/Machine/Recover.lean ====
section
/-! DEFINITION. The job (12): heartbeats and failures (R315, R316), joining (R348), adoption, the recovery transfer and
READY (R340 to R343), RESYNC (R341). -/
namespace Sys2Proof.Machine
open Sys2Proof

/-! ### Failures -/

/-- A failure is confirmed (12 R316): what it means for every context, and a spare (R323, R324, R340). -/
def State.confirmFail (s : State) (x : Nat) : State :=
  if s.grd.confirmed.contains x then s
  else
    let s1 := { s with grd := { s.grd with
      confirmed := s.grd.confirmed ++ [x]
      adoptions := s.grd.adoptions.filter (fun a => a.spare != x || a.ready || a.node == x) } }
    (s.jobCtxs.foldl (fun s c => s.onFailure c) s1).chooseSpares
/-- The package that has taken a failed node's ID has failed in its turn, before its READY: another one is chosen (12 R358). One
that reported itself replaces itself (R347), else it is a spare of the table. -/
def State.spareFailed (s : State) (x : Nat) (self : Bool) : State :=
  ({ s with grd := { s.grd with
    adoptions := s.grd.adoptions.filter (fun a => a.node != x)
    reps := s.grd.reps.filter (fun p => p.1 != x)
    selfs := if self then s.grd.selfs else s.grd.selfs.filter (fun n => n != x) } }).chooseSpares
/-- A FAILREP about a subject reaches this package: the root and the standby confirm at GRD_FAIL_QUORUM distinct
watchers, or at once with SELF = 1 (12 R316). Once an adoption of the subject's ID runs, the reports are about the package
that adopts it (log entry 116). -/
def State.report (s : State) (x watcher : Nat) (self : Bool) : State :=
  if !s.jobCtxs.any (fun c => s.atRoot c || s.atStandby c) then s
  else
    let reps := if s.grd.reps.contains (x, watcher) then s.grd.reps else s.grd.reps ++ [(x, watcher)]
    let selfs := if self && !s.grd.selfs.contains x then s.grd.selfs ++ [x] else s.grd.selfs
    let s1 := { s with grd := { s.grd with reps := reps, selfs := selfs } }
    if !(self || s.gconf 0xE00050 % 16 ≤ (reps.filter (fun p => p.1 == x)).length) then s1
    else if s.grd.adoptions.any (fun a => a.node == x && !a.ready) then s1.spareFailed x self
    else s1.confirmFail x
/-- The packages that FAILREPs go to: ROOT_ID and STANDBY_ID of each context of the job (12 R316). -/
def State.failTargets (s : State) : List Nat := ((s.jobCtxs.map (fun c => [s.rootId c, s.standbyId c])).flatten).eraseDups
/-- Send a FAILREP (12 R316); GRD 0 event 0x12. -/
def State.sendFailrep (s : State) (x : Nat) (self : Bool) : State :=
  s.failTargets.foldl (fun s t =>
    if t = s.node then s.report x s.node self
    else (s.countEv 0xE00000 0x12 1).guardSend t 0 0 0 x 4 0 0 (leBytes 8 (b2n self))) s
/-- FAILREP received. -/
def failrep (s : State) : State :=
  s.guardRx 4 (fun _ => false) (fun r bs s => s.report r.key.billet r.src ((ofLe (bs.take 1)).testBit 0))
/-- FAILREP (12 R316). -/
def execFailrep (s : State) : Host.Outcome State Fault Refusal := done (failrep s)

/-! ### Heartbeats, R315 -/

/-- GRD_CTRL.HB_EN. -/
def State.hbEn (s : State) : Bool := bit (s.reg 0xE00040) 0
/-- The watched peer of an entry; none where it is unused. -/
def State.watch (s : State) (i : Nat) : Option Nat :=
  let n := s.gconf (0xE00080 + 4 * i) % 2 ^ 18
  if n = 0x3FFFF then none else some n
/-- Five milliseconds of KTIME. -/
def hbPeriod : Nat := 5000 * usec
/-- HEARTBEAT_PERIOD: one HEARTBEAT to each watched peer on the (k mod n)-th up port of group 0; the configuration
registers apply from here (12 R315, 16 R435). -/
def heartbeatPeriod (s : State) : State :=
  let due := match s.grd.periodAt with | none => true | some t => decide (t + hbPeriod ≤ s.time.ktime)
  if s.dmp.power != 0 || !s.hbEn || !due || s.grd.fenced then s
  else
    let k := s.grd.period
    let s1 := { s with grd := { s.grd with
      period := k + 1, periodAt := some s.time.ktime,
      conf := s.regs.filter (fun e => decide (0xE00050 ≤ e.1 ∧ e.1 < 0xE000A0)) } }
    let ups := s1.upPorts 0
    match ups[k % ups.length]? with
    | none => s1.countEv 0xE00000 0x13 1
    | some p =>
      ((List.range 8).filterMap s1.watch).foldl (fun s n =>
        (s.sendShot 2 (some p) ⟨n, 0, 0, k % 2 ^ 48, 0, 0, 3⟩ 0 (guardSpec 0 0 0 1) []).countEv 0xE00000 0x10 1) s1
/-- HEARTBEAT_PERIOD (12 R315). -/
def execHeartbeatPeriod (s : State) : Host.Outcome State Fault Refusal := done (heartbeatPeriod s)
/-- HEARTBEAT received: it renews the watch on its sender (12 R315); GRD 0 event 0x11. -/
def heartbeat (s : State) : State :=
  match s.rxFind (fun r => r.key.kind == 3 && r.gop == 0) with
  | none => s
  | some r =>
    let s1 := (s.rxDrop r).countEv 0xE00000 0x11 1
    (List.range 8).foldl (fun s i =>
      if s.watch i = some r.src then
        { s with grd := { s.grd with
          seen := s.grd.seen.set (fun _ => 0) i s.time.ktime, heard := s.grd.heard.set (fun _ => false) i true } }
      else s) s1
/-- HEARTBEAT (12 R315). -/
def execHeartbeat (s : State) : Host.Outcome State Fault Refusal := done (heartbeat s)
/-- HEARTBEAT_TIMEOUT: every watched peer without a valid heartbeat for 40 ms is declared failed, and reported (12
R315, R316); not in deep park, where heartbeats do not live (13 R388, log entry 118). -/
def heartbeatTimeout (s : State) : State :=
  if s.dmp.power != 0 || !s.hbEn then s
  else
    (List.range 8).foldl (fun s i =>
      match s.watch i with
      | none => s
      | some n =>
        if s.grd.declared.get (fun _ => false) i || s.time.ktime < s.grd.seen.get (fun _ => 0) i + 8 * hbPeriod then s
        else ({ s with grd := { s.grd with declared := s.grd.declared.set (fun _ => false) i true } }).sendFailrep n false)
      s
/-- HEARTBEAT_TIMEOUT (12 R316). -/
def execHeartbeatTimeout (s : State) : Host.Outcome State Fault Refusal := done (heartbeatTimeout s)
/-- A watch entry is written, or heartbeats start: its 40 ms begin. -/
def State.watchStart (s : State) (i : Nat) : State :=
  { s with grd := { s.grd with
    seen := s.grd.seen.set (fun _ => 0) i s.time.ktime, heard := s.grd.heard.set (fun _ => false) i false,
    declared := s.grd.declared.set (fun _ => false) i false } }

/-! ### Joining, R348 -/

/-- KTIME + GRD_RESUME_LEAD (12 R340). -/
def State.resumeAt (s : State) : Nat := (s.time.ktime + s.gconf 0xE00054 * usec) % 2 ^ 64
/-- The root starts every context whose MEMBERS have joined: incarnation 0 for each, and the first RESUME. -/
def State.joinCheck (s : State) : State :=
  s.jobCtxs.foldl (fun s c =>
    let g := s.gx c
    if s.atRoot c && !g.member && !g.needResume && s.members c ≤ s.grd.joins.length then
      s.rootResume c s.resumeAt (s.grd.joins.map (fun n =>
        n + (if n = s.node then s.ownInc else (s.incOf n).getD 0) * 2 ^ 18))
    else s) s
/-- A package joins. One that had joined a running job, and joins again, has failed (R347). -/
def State.join (s : State) (n : Nat) : State :=
  if s.grd.joins.contains n then
    if s.jobCtxs.any (fun c => s.atRoot c && (s.gx c).member) then s.report n n true else s
  else ({ s with grd := { s.grd with joins := s.grd.joins ++ [n] } }).joinCheck
/-- JOIN received at the root. -/
def joinRx (s : State) : State := s.guardRx 11 (fun _ => false) (fun r _ s => s.join r.src)
/-- JOIN (12 R348). -/
def execJoin (s : State) : Host.Outcome State Fault Refusal := done (joinRx s)
/-- A write of GRD_CTRL: heartbeats and job membership start, and a member sends JOIN to the ROOT_ID of its contexts; or
they stop (12 R348, 16 Table 16-13). -/
def gctrlWrite (v : W32) (s : State) : State :=
  let s1 := s.setReg 0xE00040 (v &&& 3)
  if bit v 0 && !s.hbEn then
    let s2 := (List.range 8).foldl (fun s i => s.watchStart i) s1
    if s2.regN 0xE0004C = 1 then s2
    else
      ((s2.jobCtxs.map s2.rootId).eraseDups).foldl (fun s n =>
        if n = s.node then s.join n else s.guardSend n 0 0 0 0 11 0 0 []) s2
  else if bit v 0 then s1
  else { s1 with grd := { s1.grd with periodAt := none } }

/-! ### Replacing a failed package, R340 to R344 -/

/-- INCARN received (12 R340). -/
def incarn (s : State) : State :=
  s.guardRx 6 (fun _ => false) (fun r _ s =>
    let n := r.key.billet % 2 ^ 18
    let s1 := s.setInc n (nfld r.spec 4 6)
    let s2 := { s1 with grd := { s1.grd with
      newIncs := if s1.grd.newIncs.contains n then s1.grd.newIncs else s1.grd.newIncs ++ [n] } }
    s2.jobCtxs.foldl (fun s c => s.resyncTry c) s2)
/-- INCARN (12 R340). -/
def execIncarn (s : State) : Host.Outcome State Fault Refusal := done (incarn s)
/-- ADOPT received by a spare, or by a package that replaces itself (12 R341, R347). -/
def adopt (s : State) : State :=
  s.guardRx 5 (fun _ => false) (fun r _ s =>
    let n := r.key.billet % 2 ^ 18
    if s.regN 0xE0004C = 1 || n = s.node then s.takeAdopt n (nfld r.spec 4 6) else s)
/-- ADOPT (12 R341). -/
def execAdopt (s : State) : Host.Outcome State Fault Refusal := done (adopt s)
/-- RESYNC received: the context's rule state is replaced (12 R341, 03 R85). -/
def resync (s : State) : State :=
  s.guardRx 8 (fun _ => false) (fun r bs s =>
    let c := r.key.ctx
    if bs.length = 136 * (s.slotsOf c).length + 2 * (s.billetsOf c).length then s.adoptImage c bs else s)
/-- RESYNC (12 R341). -/
def execResync (s : State) : Host.Outcome State Fault Refusal := done (resync s)

/-- The used update records of the job's contexts. -/
def State.jobRecs (s : State) : List Nat :=
  (usedIds 48 s.updR).filter (fun u => s.uUsed u && s.jobCtxs.contains (s.uCtx u))
/-- A counterpart's Guard runs U_CASK_OUT into the halves of its RECOV area in turn (12 R342). -/
def State.recovOut (s : State) (u : Nat) : State :=
  let c := s.uCtx u
  let half := (s.gw c 21).toNat * 2048
  let bs := s.caskOut u
  if !s.uUsed u || !(s.gx c).needResume || half < bs.length then s
  else
    let a := s.gAddr c 19 + s.grd.transferred.length % 2 * half
    { s.ctxWrite c a bs with grd := { s.grd with transferred := s.grd.transferred ++ [u] } }
/-- The spare republishes the last step for a context: its weight banks from the masters, the publication word, CMPL_CNT
(12 R343). -/
def State.republish (s : State) (c step : Nat) (skip : Bool) (a n : Nat) : State :=
  let us := s.jobRecs.filter (fun u => s.uCtx u == c && !s.uMirror u)
  let s1 := us.foldl (fun s u => s.issue (s.bankWrites u step (s.vals (s.uAddr u 16) (s.uBytes u) (s.ownLen u)))) s
  (s1.ctxWrite c a (leBytes 8 (step + b2n skip * 2 ^ 48))).setC64 c 28 (n % 2 ^ 48)
/-- The spare loads what it pulled for one update record, in ascending order of the records: U_CASK_IN, and the gradient banks
(12 R342). -/
def State.recovIn (s : State) (u : Nat) (p : Pull) : State :=
  let c := s.uCtx u
  let a := s.gAddr c 19
  let d := u * 2 ^ 64 + a * 2 ^ 128
  let s1 := s.ctxWrite c a p.cask
  let k := decCaskIn c d s1
  let next := s.jobRecs.find? (fun v => !s.grd.transferred.contains v)
  if s.grd.adopted.isNone || !s.uUsed u || next != some u then s
  else if !k.args || !(k.ext.all (s1.extOk c)) then s1
  else
    let x := caskInWork d s1
    let s2 := x.st.issue x.writes
    let s3 := p.banks.foldl (fun s b => (s.ctxWrite c (s.bankAt u b.1) b.2).countBank u b.1 (s.ownLen u)) s2
    let s4 := { s3 with grd := { s3.grd with transferred := s3.grd.transferred ++ [u] } }
    match p.publish with
    | some (step, skip, w, n) => s4.republish c step skip w n
    | none => s4
/-- RECOVERY_TRANSFER for one update record, at the counterpart or at the spare (12 R342, R343). -/
def recoveryTransfer (u : Nat) (pull : Option Pull) (s : State) : State :=
  match pull with
  | none => s.recovOut u
  | some p => s.recovIn u p
/-- RECOVERY_TRANSFER (12 R342). -/
def execRecoveryTransfer (urec : W16) (pull : Option Pull) (s : State) : Host.Outcome State Fault Refusal :=
  done (recoveryTransfer urec.toNat pull s)

/-- READY reaches the acting root: once every adoption is ready, RESUME for every held context (12 R340, R358). -/
def State.readyFrom (s : State) (n : Nat) : State :=
  let as := s.grd.adoptions.map (fun a => if a.node = n then { a with ready := true } else a)
  let s1 := { s with grd := { s.grd with adoptions := as } }
  let all := as != [] && as.all (·.ready) && s.membersDown.all (fun x => as.any (fun a => a.node == x))
  if !all || s.grd.shardLost then s1
  else
    let incs := as.map (fun a => a.node + a.inc * 2 ^ 18)
    s1.jobCtxs.foldl (fun s c =>
      if s.acting c && (s.gx c).needResume then s.rootResume c s1.resumeAt incs else s) s1
/-- READY_SEND: once the transfer has ended and the host has set GRD_CTRL.READY, the residuals are zeroed and READY
goes to the root; to the standby where this package is itself the root (12 R341). -/
def readySend (s : State) : State :=
  match s.grd.adopted with
  | none => s
  | some (id, _) =>
    if s.grd.readySent || !bit (s.reg 0xE00040) 1 || !s.jobRecs.all (fun u => s.grd.transferred.contains u) then s
    else
      let s1 := s.jobCtxs.foldl (fun s c => s.zeroCtx c) { s with grd := { s.grd with readySent := true } }
      if s1.grd.adoptions.any (fun a => a.node == id) then s1.readyFrom id
      else
        let to_ := (s1.jobCtxs.map (fun c => if s1.rootId c = id then s1.standbyId c else s1.rootId c)).eraseDups
        (to_.filter (fun n => n != id)).foldl (fun s n => s.guardSend n 0 0 0 id 12 0 0 []) s1
/-- READY_SEND (12 R341). -/
def execReadySend (s : State) : Host.Outcome State Fault Refusal := done (readySend s)
/-- READY received. -/
def ready (s : State) : State := s.guardRx 12 (fun _ => false) (fun r _ s => s.readyFrom (r.key.billet % 2 ^ 18))
/-- READY (12 R340). -/
def execReady (s : State) : Host.Outcome State Fault Refusal := done (ready s)

end Sys2Proof.Machine
end

