-- ==== Sys2Proof/Machine/Time.lean ====
section
/-! DEFINITION. KTIME, the time exchange, the time states and KTICK (13 R359 to R372). -/
namespace Sys2Proof.Machine
open Sys2Proof

/-! ### KTIME -/

/-- TIME_RATE: r × 2^40 (15 Table 15-7). -/
def State.rate (s : State) : Int := sgn 32 (s.regN 0x100070)
/-- One KREF rising edge: KTIME advances by 20 × (1 + r) units, with a 40-bit fraction; KTICK falls after 50 cycles
(13 R359, R371). -/
def krefEdge (s : State) : State :=
  let x := (((s.time.ktime * 2 ^ 40 + s.time.frac : Nat) : Int) + 20 * (2 ^ 40 + s.rate)).toNat
  let s1 := { s with time := { s.time with
    ktime := x / 2 ^ 40 % 2 ^ 64, frac := x % 2 ^ 40, tickHigh := s.time.tickHigh - 1 } }
  if s.time.tickHigh = 1 then s1.emit (.ktick false) else s1
/-- A frame's timestamp at a MAC crossing, so many client cycles after the last KREF edge (13 R359). -/
def State.stamp (s : State) (cycles : Nat) : Nat := (s.time.ktime + 128 * cycles / 100) % 2 ^ 64
/-- The PTP timestamp of a KTIME count (13 Table 13-1). -/
def toPtp (k : Nat) : PtpTime :=
  ⟨BitVec.ofNat 48 (k / 2000000000), BitVec.ofNat 32 (k % 2000000000 / 2), k % 2 == 1⟩
/-- The KTIME count of a PTP timestamp. -/
def ofPtp (t : PtpTime) : Nat := t.sec.toNat * 2000000000 + 2 * t.ns.toNat + b2n t.half

/-! ### Time states, Table 13-2 -/

/-- The codes of Table 13-2. -/
def tFree : Nat := 0
def tAcquiring : Nat := 1
def tLocked : Nat := 2
def tHoldover : Nat := 3
def tSlewing : Nat := 4
def tRoot : Nat := 5
def tUnfit : Nat := 6
/-- TIME_STATE. -/
def State.tState (s : State) : Nat := s.regF 0x100050 0 3
/-- SYNC_EN. -/
def State.syncEn (s : State) : Bool := bit (s.reg 0x10004C) 0
/-- QUIESCE of TIME 0: no new time exchange (15 Table 15-1). -/
def State.timeHeld (s : State) : Bool := bit (s.reg 0x100010) 1
/-- A sync interval in KTIME units: 2^−TIME_SYNC_LOG2 s (13 Table 13-1). -/
def syncUnits (log2 : Nat) : Nat := 2000000000 / 2 ^ log2
/-- 100 ms. -/
def lossUnits : Nat := 200000000
/-- KTICK is driven but in FREE without TICK_LONE, in ACQUIRING and in UNFIT (13 R371), and until the crossing of its port
has aligned after the reset (01 R22, Table 1-3; 02 R46). -/
def State.tickDriven (s : State) : Bool :=
  s.ctl.krefDone
  && (if s.tState = tFree then bit (s.reg 0x10004C) 1 else s.tState != tAcquiring && s.tState != tUnfit)
/-- A high KTICK falls where it is held low (13 R371). -/
def State.tickHold (s : State) : State :=
  if 0 < s.time.tickHigh && !s.tickDriven then
    ({ s with time := { s.time with tickHigh := 0 } }).emit (.ktick false)
  else s
/-- Store TIME_RATE. -/
def State.setRate (s : State) (r : Int) : State := s.setRegN 0x100070 (unsgn 32 r)
/-- Move TIME_STATE. Entering HOLDOVER sets PG_ERR.HOLDOVER and holds the last LOCKED value of rf, which entering LOCKED
takes (13 R366, 15 Table 15-3); FREE and ROOT run with r = 0. -/
def State.setTime (s : State) (v : Nat) : State :=
  let s1 := s.setRegN 0x100050 v
  let s2 := { s1 with time := { s1.time with slewN := 0 } }
  let s4 :=
    if v = tHoldover then
      let s3 := { s2 with time := { s2.time with holdAt := s2.time.ktime, rf := s2.time.rfLocked } }
      (s3.setRate s3.time.rfLocked).err 0x100000 10
    else if v = tFree || v = tRoot then ({ s2 with time := { s2.time with rf := 0, rfLocked := 0 } }).setRate 0
    else if v = tLocked then { s2 with time := { s2.time with rfLocked := s2.time.rf } }
    else s2
  s4.tickHold
/-- SYNC_EN goes to 0: FREE from every state (13 Table 13-2). -/
def State.syncOff (s : State) : State :=
  let s1 := s.setTime tFree
  { s1 with time := { s1.time with exch := none, onAlt := false } }
/-- SYNC_EN goes to 1 (13 Table 13-2, R365). A spare that adopted the root's ID locks to TIME_ALT (R364). -/
def State.syncOn (s : State) : State :=
  let own := s.regN 0x100054 == s.node
  let alt := own && s.grd.adopted.isSome && s.regN 0x100058 != s.node
  let s1 := { s with time := { s.time with
    lastOk := s.time.ktime, parentOk := s.time.ktime, exch := none, onAlt := alt } }
  if own && !alt then s1.setTime tRoot
  else if s.live.any s.cActive then s1.setTime tSlewing
  else s1.setTime tAcquiring
/-- A write of TIME_CTRL (13 R364). -/
def timeCtrl (v : W32) (s : State) : State :=
  let s1 := s.setReg 0x10004C (v &&& 3)
  if bit v 0 && !s.syncEn then s1.syncOn else if !bit v 0 && s.syncEn then s1.syncOff else s1.tickHold

/-! ### Exchanges -/

/-- The port that time messages use: the lowest-indexed up port of port group 0, kept until it goes down (13 Table 13-1;
`TimeSt.port`). -/
def State.ptpPort (s : State) : Option Nat := s.time.port
/-- Hand a time message to the MAC client. -/
def State.sendPtp (s : State) (dst kind seq dom stamp : Nat) : State :=
  match s.ptpPort with | none => s | some p => s.emit (.ptp p dst kind seq dom (toPtp stamp))
/-- A package serves its KTIME in LOCKED, HOLDOVER, SLEWING, ROOT and UNFIT (13 Table 13-2, R364). -/
def State.serves (s : State) : Bool := s.syncEn && !s.timeHeld && 2 ≤ s.tState && s.ptpPort.isSome
/-- SYNC_INTERVAL: a parent sends Sync and Follow_Up to a child once the interval has passed (13 R362, R363). -/
def syncInterval (child cycles : Nat) (s : State) : State :=
  let due := match s.time.syncAt.get (fun _ => none) child with
    | none => true
    | some t => decide (t + syncUnits (s.regN 0x10005C) ≤ s.time.ktime)
  if !s.serves || !due then s
  else
    let q := s.time.syncSeq
    let s1 := { s with time := { s.time with
      syncSeq := (q + 1) % 65536, syncAt := s.time.syncAt.set (fun _ => none) child (some s.time.ktime) } }
    (s1.sendPtp child 0 q (s.regN 0x100060) 0).sendPtp child 1 q (s.regN 0x100060) (s.stamp cycles)
/-- SYNC_INTERVAL (13 R362). -/
def execSyncInterval (child : Node) (cycles : BitVec 4) (s : State) : Host.Outcome State Fault Refusal :=
  done (syncInterval child.toNat cycles.toNat s)

/-- An exchange that does not become valid (13 R363): TIME 0 event 0x11. -/
def State.exchLost (s : State) : State :=
  match s.time.exch with
  | none => s
  | some _ => ({ s with time := { s.time with exch := none } }).countEv 0x100000 0x11 1
/-- A server whose exchanges this package takes: TIME_PARENT, and TIME_ALT while it stands in, or in HOLDOVER (13
R364). -/
def State.takesFrom (s : State) (src : Nat) : Bool :=
  src == s.regN 0x100054 || (src == s.regN 0x100058 && (s.time.onAlt || s.tState == tHoldover))
/-- SYNC received: an exchange starts, with t2 (13 R363). No time message passes a port that is not up (01 R22). -/
def syncRx (src dom seq cycles : Nat) (s : State) : State :=
  if !s.syncEn || s.timeHeld || s.tState = tFree || s.tState = tRoot || src = s.node || !s.takesFrom src
      || dom != s.regN 0x100060 || s.ptpPort.isNone then s
  else
    let s1 := s.exchLost
    { s1 with time := { s1.time with
      exch := some ⟨src, seq, dom, s.regN 0x10005C, s.stamp cycles, none, none⟩ } }
/-- SYNC (13 R363). -/
def execSync (src : Node) (dom : BitVec 7) (seq : W16) (cycles : BitVec 4) (s : State) :
    Host.Outcome State Fault Refusal := done (syncRx src.toNat dom.toNat seq.toNat cycles.toNat s)
/-- FOLLOW_UP received: t1, and Delay_Req leaves at t3 (13 R363). -/
def followUp (src dom seq t1 cycles : Nat) (s : State) : State :=
  match s.time.exch with
  | none => s
  | some x =>
    if x.src != src || x.dom != dom || x.seq != seq || x.t1.isSome || s.ptpPort.isNone then s
    else
      let t3 := s.stamp cycles
      let s1 := { s with time := { s.time with exch := some { x with t1 := some t1, t3 := some t3 } } }
      s1.sendPtp src 2 seq dom t3
/-- FOLLOW_UP (13 R363). -/
def execFollowUp (src : Node) (dom : BitVec 7) (seq : W16) (t1 : PtpTime) (cycles : BitVec 4) (s : State) :
    Host.Outcome State Fault Refusal := done (followUp src.toNat dom.toNat seq.toNat (ofPtp t1) cycles.toNat s)
/-- DELAY_REQ received: Delay_Resp carries t4 (13 R363). -/
def delayReq (src dom seq cycles : Nat) (s : State) : State :=
  if !s.serves || dom != s.regN 0x100060 then s else s.sendPtp src 3 seq dom (s.stamp cycles)
/-- DELAY_REQ (13 R363). -/
def execDelayReq (src : Node) (dom : BitVec 7) (seq : W16) (cycles : BitVec 4) (s : State) :
    Host.Outcome State Fault Refusal := done (delayReq src.toNat dom.toNat seq.toNat cycles.toNat s)

/-- `x` clamped to ±`n`. -/
def clampI (n x : Int) : Int := max (-n) (min n x)
/-- rs × 2^40: −offset × 2^−6 / interval within ±100 ppm (13 R366). -/
def rsOf (log2 : Nat) (offset : Int) : Int :=
  clampI 109951162 (-(offset * 2 ^ 34 * 2 ^ log2) / 2000000000)
/-- The rate after a valid exchange: rf, which the manual does not reduce to a formula, is a free value within ±60 ppm
(13 R366; log entry 3). -/
def State.newRate (s : State) (log2 : Nat) (offset : Int) : State :=
  let rf := clampI 65970697 (sgn 64 (Config.openValue 5 s.fresh).toNat)
  let s1 := { s with fresh := s.fresh + 1, time := { s.time with
    rf := rf, rfLocked := if s.tState = tLocked then rf else s.time.rfLocked } }
  s1.setRate (rf + rsOf log2 offset)
/-- The only step KTIME takes (13 R365). -/
def State.acquire (s : State) (offset : Int) : State :=
  let k := unsgn 64 ((s.time.ktime : Int) - offset)
  let s1 := { s with time := { s.time with ktime := k, lastOk := k, parentOk := k, tick := k / 2 ^ 21 } }
  ((s1.bump 0x100074 1).err 0x100000 8).setTime tLocked
/-- SLEWING after a valid exchange: 16 consecutive ones within 1 µs lead to LOCKED (13 Table 13-2). -/
def State.slew (s : State) (near : Bool) : State :=
  let n := if near then s.time.slewN + 1 else 0
  if 16 ≤ n then s.setTime tLocked else { s with time := { s.time with slewN := n } }
/-- A valid exchange (13 R363 to R366): its server, sync interval and offset. -/
def State.exchOk (s : State) (src log2 : Nat) (offset : Int) : State :=
  let parent := src == s.regN 0x100054
  let toAlt := !parent && !s.time.onAlt
  let s1 := { s with time := { s.time with
    exch := none, lastOk := s.time.ktime, onAlt := !parent,
    parentOk := if parent then s.time.ktime else s.time.parentOk } }
  let s2 := (s1.countEv 0x100000 0x10 1).setRegN 0x100068 (unsgn 32 offset)
  let s3 := if toAlt then s2.countEv 0x100000 0x12 1 else s2
  let near := decide (-2000 ≤ offset ∧ offset ≤ 2000)
  if s.tState = tAcquiring then s3.acquire offset
  else
    let s4 := s3.newRate log2 offset
    if s.tState = tHoldover || (s.tState = tLocked && !near) then s4.setTime tSlewing
    else if s.tState = tSlewing then s4.slew near
    else s4
/-- DELAY_RESP received: with four stamps of one exchange, and in time, the exchange is valid (13 R363). -/
def delayResp (src dom seq t4 : Nat) (s : State) : State :=
  match s.time.exch with
  | none => s
  | some x =>
    match x.t1, x.t3 with
    | some t1, some t3 =>
      if x.src != src || x.dom != dom || x.seq != seq || s.ptpPort.isNone then s
      else if t3 + syncUnits x.log2 < s.time.ktime then s.exchLost
      else s.exchOk src x.log2 ((((x.t2 : Int) - t1) - ((t4 : Int) - t3)) / 2)
    | _, _ => s
/-- DELAY_RESP (13 R363, R365). -/
def execDelayResp (src : Node) (dom : BitVec 7) (seq : W16) (t4 : PtpTime) (s : State) :
    Host.Outcome State Fault Refusal := done (delayResp src.toNat dom.toNat seq.toNat (ofPtp t4) s)
/-- ANNOUNCE: a received Announce is discarded (13 Table 13-1). -/
def execAnnounce (s : State) : Host.Outcome State Fault Refusal := done s

/-! ### Losing time -/

/-- The package takes its exchanges from TIME_ALT (13 R364); TIME 0 event 0x12. -/
def State.toAlt (s : State) : State :=
  ({ s.exchLost with time := { s.exchLost.time with onAlt := true, lastOk := s.time.ktime } }).countEv 0x100000 0x12 1
/-- SYNC_LOSS: 100 ms without a valid exchange with the parent. The package takes its exchanges from TIME_ALT where that
answers, in whatever state it is; of LOCKED and SLEWING it becomes ROOT where TIME_ALT is its own ID, and after 100 ms
without either source it enters HOLDOVER (13 R364, Table 13-2). -/
def syncLoss (alt : Bool) (s : State) : State :=
  if s.time.ktime < s.time.parentOk + lossUnits then s
  else if s.tState = tAcquiring || s.tState = tUnfit then
    if alt && !s.time.onAlt && s.regN 0x100058 != s.node then s.toAlt else s
  else if s.tState != tLocked && s.tState != tSlewing then s
  else if s.regN 0x100058 = s.node then (s.exchLost).setTime tRoot
  else if alt && !s.time.onAlt then s.toAlt
  else if s.time.lastOk + lossUnits ≤ s.time.ktime then s.exchLost.setTime tHoldover
  else s
/-- SYNC_LOSS (13 R364). -/
def execSyncLoss (alt : Bool) (s : State) : Host.Outcome State Fault Refusal := done (syncLoss alt s)
/-- This package is a member of a job (12 R314, 13 R368). -/
def State.inJob (s : State) : Bool := s.hbEn && s.jobCtxs != []
/-- HOLD_MAX_REACHED: holdover has lasted TIME_HOLD_MAX; UNFIT, and a member reports itself and is fenced (13 R367,
R368). -/
def holdMax (s : State) : State :=
  if s.tState != tHoldover || s.time.ktime < s.time.holdAt + s.regN 0x100064 * 2000000000 then s
  else
    let s1 := (s.setTime tUnfit).err 0x100000 9
    if s.inJob then (s1.sendFailrep s1.node true).fence else s1
/-- HOLD_MAX_REACHED (13 R368). -/
def execHoldMaxReached (s : State) : Host.Outcome State Fault Refusal := done (holdMax s)
/-- A write of TIME_HOLD_MAX: compared at once (13 R367). -/
def timeHoldMax (v : W32) (s : State) : State :=
  let n := v.toNat % 256
  if n < 1 || 200 < n then s.err 0x100000 11 else holdMax (s.setRegN 0x100064 n)
/-- Deep park is entered: time sync stops (13 R388, Table 13-2). -/
def State.timeParks (s : State) : State :=
  if s.tState = tLocked || s.tState = tSlewing then s.exchLost.setTime tHoldover
  else if s.tState = tAcquiring then s.exchLost else s
/-- Deep park is left (13 Table 13-2). -/
def State.timeWakes (s : State) : State :=
  if s.tState = tHoldover || s.tState = tUnfit then
    let s1 := { s with time := { s.time with lastOk := s.time.ktime, parentOk := s.time.ktime, onAlt := false } }
    s1.setTime tAcquiring
  else s

end Sys2Proof.Machine
end

