-- ==== Sys2Proof/Machine/Damper.lean ====
section
/-! DEFINITION. KTICK (13 R371), curtailment and pacing (R385, R386), telemetry and fill (R382 to R384), the wear record
(R389 to R391). -/
namespace Sys2Proof.Machine
open Sys2Proof

/-! ### Curtailment, R386 -/

/-- KTIME lies in [DMP_GRID_START, DMP_GRID_END). -/
def State.gridOn (s : State) : Bool :=
  s.reg64 0xF00084 ≤ s.time.ktime && s.time.ktime < s.reg64 0xF0008C
/-- What KCURT, and what the grid window, asks for: its level, 1,000 where it asks for nothing. -/
def State.kcurtWant (s : State) : Nat := if s.dmp.kcurt then s.regN 0xF0007C else 1000
def State.gridWant (s : State) : Nat := if s.gridOn then s.regN 0xF00080 else 1000
/-- The KTICK rise from which on a change of this moment takes effect: the first that lies at least DMP_CURT_LAG periods
after it. A change on the edge of a rise lies whole periods before the later ones (13 R386). -/
def State.curtDue (s : State) : Nat := s.dmp.ticks + s.regN 0xF00094 + (if s.time.tickHigh = 50 then 0 else 1)
/-- A source's changes that wait, after it asks for `want`. -/
def curtPend (inForce want due : Nat) (l : List (Nat × Nat)) : List (Nat × Nat) :=
  let last := match l.getLast? with | some x => x.1 | none => inForce
  if want = last then l else l ++ [(want, due)]
/-- The changes that wait without the assertions at their end: a KCURT released before its change took effect applies neither
change (13 Table 13-6). -/
def curtDrop (l : List (Nat × Nat)) : List (Nat × Nat) := (l.reverse.dropWhile (fun x => x.1 != 1000)).reverse
/-- A curtailment change: each source's change waits for DMP_CURT_LAG ticks (13 R386, R387, Table 13-6; log entry 24). -/
def State.curtChange (s : State) : State :=
  let k := if s.kcurtWant = 1000 then curtDrop s.dmp.changes else s.dmp.changes
  { s with dmp := { s.dmp with
    changes := curtPend s.dmp.kLev s.kcurtWant s.curtDue k
    gchanges := curtPend s.dmp.gLev s.gridWant s.curtDue s.dmp.gchanges } }
/-- The Damper's inputs are sampled: the KREF crossing has aligned after the reset, and the block is not in deep park, which
keeps KTIME, KREF, KCP and KRDY alone (01 R22, 02 R46, 13 Table 13-7). -/
def State.krefLive (s : State) : Bool := s.ctl.krefDone && s.dmp.power != 2
/-- KCURT_CHANGE: four equal samples of KCURT (13 R386). -/
def kcurtChange (level : Bool) (s : State) : State :=
  if s.krefLive then ({ s with dmp := { s.dmp with kcurt := level } }).curtChange else s
/-- KCURT_CHANGE (13 R386). -/
def execKcurtChange (level : Bool) (s : State) : Host.Outcome State Fault Refusal := done (kcurtChange level s)
/-- GRID_EVENT: KTIME has reached DMP_GRID_START or DMP_GRID_END (13 R386). -/
def execGridEvent (s : State) : Host.Outcome State Fault Refusal := done s.curtChange

/-- KTICK: KTIME has crossed a multiple of 2^21 units (13 R371). -/
def ktick (s : State) : State :=
  let k := s.time.ktime / 2 ^ 21
  if k = s.time.tick then s
  else
    let s1 := { s with time := { s.time with tick := k } }
    if !s1.tickDriven then s1
    else
      let n := (s1.ctl.wide.get (fun _ => 0) 0x100078 + 1) % 2 ^ 48
      let s2 := { s1 with
        time := { s1.time with tickHigh := 50 },
        dmp := { s1.dmp with ticks := s1.dmp.ticks + 1 },
        ctl := { s1.ctl with wide := s1.ctl.wide.set (fun _ => 0) 0x100078 n } }
      s2.emit (.ktick true)
/-- KTICK (13 R371). -/
def execKtick (s : State) : Host.Outcome State Fault Refusal := done (ktick s)

/-! ### Pacing, R385 -/

/-- `PL(k)` from `PL(k-1)` (13 R385). -/
def Pace.next (p : Pace) (pc : Nat) : Nat :=
  let u := p.pl - p.tr
  if p.ramp ≤ u then p.pl + pc
  else p.pl + max (p.nom + p.nom * (p.m0 - 1) * (p.ramp - u) / p.ramp) pc
/-- P_NOM, RAMP in KTIME units, and DMP_PACE_MAX. -/
def State.stepNom (s : State) : Nat := s.reg64 0xF0006C
def State.rampUnits (s : State) : Nat := s.regN 0xF00074 * 2000000
def State.paceMax (s : State) : Nat := s.regN 0xF00078
/-- The launches of a context under pacing or curtailment. -/
def State.paceOf (s : State) (c : Nat) : Option Pace := s.dmp.pace.get (fun _ => none) c
/-- Store them. -/
def State.setPace (s : State) (c : Nat) (p : Option Pace) : State :=
  { s with dmp := { s.dmp with pace := s.dmp.pace.set (fun _ => none) c p } }
/-- The count before which a context's next launch may not happen; none where nothing paces it. -/
def State.paceAt (s : State) (c : Nat) : Option Nat := (s.paceOf c).map (fun p => p.next s.dmp.pc)
/-- The level of a source once the changes whose KTICK rise has come are taken. -/
def curtTaken (ticks inForce : Nat) (l : List (Nat × Nat)) : Nat :=
  match (l.filter (fun x => x.2 ≤ ticks)).getLast? with | some x => x.1 | none => inForce
/-- A launch: the curtailment changes whose KTICK rise has come take effect; the lower of the two levels is in force, and a
curtailment stops fill (13 R386). -/
def State.curtLaunch (s : State) : State :=
  if !(s.dmp.changes ++ s.dmp.gchanges).any (fun x => x.2 ≤ s.dmp.ticks) then s
  else
    let k := curtTaken s.dmp.ticks s.dmp.kLev s.dmp.changes
    let g := curtTaken s.dmp.ticks s.dmp.gLev s.dmp.gchanges
    let l := min k g
    { s with dmp := { s.dmp with
      kLev := k, gLev := g, level := l
      changes := s.dmp.changes.filter (fun x => s.dmp.ticks < x.2),
      gchanges := s.dmp.gchanges.filter (fun x => s.dmp.ticks < x.2),
      pc := if l < 1000 then cdiv (s.stepNom * 1000) l else 0,
      fill := if l < 1000 then 0 else s.dmp.fill } }
/-- A ramp starts at TR (13 R385); none where DMP_STEP_NOM is 0 (16 Table 16-15). -/
def State.startRamp (s : State) (c tr m0 : Nat) : State :=
  if s.stepNom = 0 then s.setPace c none
  else s.setPace c (some ⟨tr, tr, s.stepNom, m0, s.rampUnits, s.dmp.level⟩)
/-- A STEP descriptor of a context ends: `resume` is the launch count of a RESUME that it answers, `free` the moment at
which R181 alone would have ended it. DMP 0 event 0x12 counts those that pacing delayed (16 R438). -/
def State.paceLaunch (s : State) (c : Nat) (resume : Option Nat) (free : Nat) : State :=
  let s1 := s.curtLaunch
  match resume, s.paceOf c with
  | some l, _ => s1.startRamp c l s.paceMax
  | none, none => if s1.dmp.pc = 0 then s1 else s1.setPace c (some ⟨s.time.ktime, s.time.ktime, s.stepNom, 1, 0, s1.dmp.level⟩)
  | none, some p =>
    let l := p.next s.dmp.pc
    let s2 := if free < l then s1.countEv 0xF00000 0x12 1 else s1
    if p.level < 1000 && s2.dmp.level = 1000 then s2.startRamp c l (min 16 (cdiv 1000 p.level))
    else if s2.dmp.pc = 0 && p.ramp ≤ l - p.tr then s2.setPace c none
    else s2.setPace c (some { p with pl := l, level := s2.dmp.level })

/-! ### Telemetry and fill, R382 to R384 -/

/-- The next launch counts known to the package: a waiting STEP descriptor's LAUNCH, a RESUME's, and pacing's. -/
def State.launches (s : State) : List Nat :=
  (s.live.map (fun c =>
    (match s.waitingOp c 0x01 with | some w => if w.d.testBit 113 then [dq w.d 2 0 64] else [] | none => [])
      ++ (s.gx c).launch.toList ++ (s.paceAt c).toList)).flatten.filter (fun l => s.time.ktime < l)
/-- The least of a list. -/
def leastOf : List Nat → Option Nat
  | [] => none
  | x :: xs => match leastOf xs with | none => some x | some y => some (min x y)
/-- `DAMP()` (13 R384): PKG_P, the fill limit. -/
def State.damp (s : State) (p lim : Nat) : State :=
  let up : Int := s.regN 0xF00058
  let base : Int := (p : Int) - s.dmp.fill
  let pre : Int := match leastOf s.launches with
    | none => 0
    | some l => max 0 ((lim : Int) - up * ((l - s.time.ktime) / 20000 : Nat))
  let tgt := min (max (s.dmp.tgt - s.regN 0xF0005C) (base + pre)) (s.dmp.tgt + up)
  let f := max 0 (min (lim : Int) (tgt - base))
  { s with dmp := { s.dmp with fill := f.toNat, tgt := base + f } }
/-- The fill limit now: none while curtailed or while DMP 0 quiesces (13 R386, 16 Table 16-1). -/
def State.fillLimit (s : State) : Nat :=
  if s.dmp.level < 1000 || bit (s.reg 0xF00010) 1 then 0 else s.regN 0xF00054

/-! ### The wear record, R389 to R391 -/

/-- LOADED. -/
def State.wearLoaded (s : State) : Bool := bit (s.reg 0xF01040) 0
/-- DMP_WEAR_SUM. -/
def State.wearSum (s : State) : Nat := s.dmp.bins.sum
/-- DMP_WEAR_STAT.SPENT: until LOADED is 1 the budget counts as spent (13 R391). -/
def State.wearSpent (s : State) : Bool := s.dmp.spent || !s.wearLoaded
/-- DMP_VREQ: 850 mV only when the budget is available and OVERDRIVE is 1 (13 R390). -/
def State.vreq (s : State) : Nat := if !s.wearSpent && bit (s.reg 0xF00040) 0 then 850 else 750
/-- WEAR_SPENT is due at the end of a STEP descriptor, or at once when no context is READY or RUNNING (13 R390). -/
def State.wearNotice (s : State) : State :=
  if s.live.any s.cRunnable then { s with dmp := { s.dmp with spentDue := true } } else s.err 0xF01000 8
/-- The end of a STEP descriptor for the Damper (13 R390). -/
def State.wearStep (s : State) : State :=
  if s.dmp.spentDue then ({ s with dmp := { s.dmp with spentDue := false } }).err 0xF01000 8 else s
/-- The budget becomes spent, or available again (13 R389). A report that is due stays due (R390). -/
def State.wearCheck (s : State) : State :=
  if !s.dmp.spent && 1728000000 ≤ s.wearSum then
    let s1 := { s with dmp := { s.dmp with spent := true } }
    if s.wearLoaded then s1.wearNotice else s1
  else if s.dmp.spent && s.wearSum ≤ 1620000000 then { s with dmp := { s.dmp with spent := false } }
  else s
/-- Add to bin 0. -/
def binAdd : List Nat → List Nat
  | [] => [1]
  | b :: bs => (b + 1) :: bs
/-- A sample for the wear record: at overdrive with VDDK at 800 mV or more, or with VALID = 0 (13 R389, R390). -/
def State.wearSample (s : State) (excess : Bool) : State :=
  let s1 := { s with dmp := { s.dmp with
    samples := s.dmp.samples + 1, bins := if excess then binAdd s.dmp.bins else s.dmp.bins } }
  let s2 := s1.wearCheck
  if excess && s.wearSpent then s2.setReg64 0xF01054 ((s.reg64 0xF01054 + 1) % 2 ^ 48) else s2
/-- A telemetry word is latched; fill is computed; ten invalid words in a row stop it; wear is counted (13 R382 to R384,
R389). `fillHc` is the fill of the interval in hc: none where no fill ran in it. -/
def State.sampled (s : State) (word : W32) (fillHc : Nat) : State :=
  let valid := bit word 31
  let n := if valid then 0 else s.dmp.bad + 1
  let hc := if s.dmp.filled then fillHc else 0
  let count := s.ctl.wide.get (fun _ => 0) 0xF00064 + hc
  let s1 := { s with
    dmp := { s.dmp with hist := (word :: s.dmp.hist).take 256, tel := word, bad := n },
    ctl := { s.ctl with wide := s.ctl.wide.set (fun _ => 0) 0xF00064 (count % 2 ^ 48) } }
  let s2 := s1.countEv 0xF00000 0x10 1
  let s3 :=
    if valid then s2.damp (fld word 0 16) s2.fillLimit
    else if n < 10 then s2.countEv 0xF00000 0x11 1
    else
      let s4 := ({ s2 with dmp := { s2.dmp with fill := 0 } }).countEv 0xF00000 0x11 1
      if n = 10 then s4.err 0xF00000 8 else s4
  ({ s3 with dmp := { s3.dmp with filled := s3.dmp.fill != 0 } }).wearSample (!valid || 800 ≤ fld word 16 10)
/-- TELEMETRY_SAMPLE: the KREF edge that ends a 10 µs interval (13 R382). -/
def telemetry (word : W32) (fillHc : Nat) (s : State) : State := if s.krefLive then s.sampled word fillHc else s
/-- TELEMETRY_SAMPLE (13 R382). -/
def execTelemetrySample (word : W32) (fillHc : W16) (s : State) : Host.Outcome State Fault Refusal :=
  done (telemetry word fillHc.toNat s)
/-- WEAR_ADVANCE: after 6,000,000 samples the ring advances (13 R389); DMP 1 event 0x10. -/
def wearAdvance (s : State) : State :=
  if s.dmp.samples < 6000000 then s
  else
    let s1 := { s with dmp := { s.dmp with
      samples := s.dmp.samples - 6000000, bins := (0 :: s.dmp.bins).take 1440 } }
    (s1.countEv 0xF01000 0x10 1).wearCheck
/-- WEAR_ADVANCE (13 R389). -/
def execWearAdvance (s : State) : Host.Outcome State Fault Refusal := done (wearAdvance s)
/-- A write of DMP_WEAR_SEL: a snapshot of all bins (16 R439); a bin that does not exist is a refused value. -/
def wearSel (v : W32) (s : State) : State :=
  let n := v.toNat % 2048
  if 1440 ≤ n then s.err 0xF01000 9
  else ({ s with dmp := { s.dmp with snap := s.dmp.bins } }).setRegN 0xF01044 n
/-- A write of DMP_WEAR_DATA while LOADED = 0 (16 R439). -/
def wearData (v : W32) (s : State) : State :=
  let n := v.toNat % 2 ^ 23
  let i := s.regN 0xF01044
  if s.wearLoaded || 6000000 < n then s.err 0xF01000 9
  else
    let bins := s.dmp.bins ++ List.replicate (i + 1 - s.dmp.bins.length) 0
    (({ s with dmp := { s.dmp with bins := setAt bins i n } }).wearCheck).setRegN 0xF01044 ((i + 1) % 1440)
/-- A read of DMP_WEAR_DATA: the snapshot, the bin advances. -/
def State.wearRead (s : State) : W32 × State :=
  let i := s.regN 0xF01044
  (BitVec.ofNat 32 (s.dmp.snap.getD i 0), s.setRegN 0xF01044 ((i + 1) % 1440))
/-- A write of DMP_WEAR_CTRL: LOADED can be set once (13 R391, 16 R439). -/
def wearCtrl (v : W32) (s : State) : State :=
  if s.wearLoaded then s.err 0xF01000 9 else s.setReg 0xF01040 (v &&& 1)

end Sys2Proof.Machine
end

