-- ==== Sys2Proof/Machine/Identity.lean ====
section
/-! DEFINITION. The identity master: scans and the position table (13 R373 to R377, R381) and the topology check (R378 to
R380, 15 R421). -/
namespace Sys2Proof.Machine
open Sys2Proof

/-! ### The position table, R376 -/

/-- STATUS codes of 13 R376. -/
def posAbsent : Nat := 0
def posNoCmis : Nat := 1
def posNoRecord : Nat := 2
def posBadCrc : Nat := 3
def posValid : Nat := 4
def posBusErr : Nat := 5
def posUnmapped : Nat := 6
/-- IDEN_PORT_MAP of a port. -/
def State.portMap (s : State) (p : Nat) : W32 := s.reg (0x200080 + 4 * p)
/-- MAPPED. -/
def State.mapped (s : State) (p : Nat) : Bool := bit (s.portMap p) 8
/-- An entry that holds its STATUS alone. -/
def posOnly (st : Nat) : Bytes := BitVec.ofNat 8 st :: zeros 63
/-- The entry of a port; a port that is not mapped reads UNMAPPED (15 R411). -/
def State.posEntry (s : State) (p : Nat) : Bytes :=
  if s.mapped p then s.iden.pos.get (fun _ => zeros 64) p else posOnly posUnmapped
/-- STATUS of a port. -/
def State.posStatus (s : State) (p : Nat) : Nat := ofLe ((s.posEntry p).take 1)
/-- A field of an entry. -/
def State.posF (s : State) (p off n : Nat) : Nat := ofLe (((s.posEntry p).drop off).take n)
/-- SITE, ROW, RACK, SLOT and DOMAIN of an entry (13 Tables 13-4, R376). -/
def State.posFields (s : State) (p : Nat) : List Nat :=
  [s.posF p 40 4, s.posF p 44 2, s.posF p 46 2, s.posF p 48 2, s.posF p 50 2 % 1024]
/-- The PORT field of an entry. -/
def State.posPort (s : State) (p : Nat) : Nat := s.posF p 52 1 % 16
/-- STATUS of what a module answers: the identifier, then MAGIC and VERSION, then the record's CRC (13 R375, R376). -/
def statusOf (m : Module) : Nat :=
  let r := fitBytes 128 m.record
  if m.ident = 0 || m.ident = 0xFF then posNoCmis
  else if ofLe (r.take 2) != 0x4B50 || ofLe ((r.drop 2).take 1) != 1 then posNoRecord
  else if crc32c (r.take 124) != ofLe (r.drop 124) then posBadCrc
  else posValid
/-- The entry that a module's answers make (13 R376). -/
def entryOf (m : Module) : Bytes :=
  let st := statusOf m
  if st = posNoCmis then [BitVec.ofNat 8 st, m.ident] ++ zeros 62
  else
    [BitVec.ofNat 8 st, m.ident, m.state, 0] ++ fitBytes 3 m.oui ++ [0] ++ fitBytes 16 m.serial ++ fitBytes 16 m.part
      ++ (if st = posValid then ((fitBytes 128 m.record).drop 4).take 13 else zeros 13) ++ zeros 11

/-! ### Scans, R374 -/

/-- Start what waits: a pending scan first, then a check that waits for a scan (13 R374, 15 R421). New scans wait while
IDEN 0 quiesces (15 Table 15-1). -/
def State.idenKick (s : State) : State :=
  if s.iden.scan.isSome || s.iden.check = 2 then s
  else
    match (if bit (s.reg 0x200010) 1 then none else s.iden.pend) with
    | some x =>
      let s1 := { s with iden := { s.iden with scan := some x, pend := none, stuck := [] } }
      s1.setReg 0x20004C ((s1.reg 0x20004C &&& 0xFFFFFFFE) ||| 2)
    | none =>
      if s.iden.check = 1 then { s with iden := { s.iden with check := 2 } } else s
/-- A scan is requested: requests merge into a single pending scan, full if any of them is (13 R374). -/
def State.scanReq (s : State) (full auto : Bool) : State :=
  let x := match s.iden.pend with | none => ⟨full, auto⟩ | some p => ⟨p.full || full, p.auto || auto⟩
  ({ s with iden := { s.iden with pend := some x } }).idenKick
/-- AUTO_SCAN: a changed-only scan after an expected MAC port came back (13 R381). -/
def autoScan (s : State) : State :=
  if s.iden.due = [] then s else ({ s with iden := { s.iden with due := [] } }).scanReq false true
/-- AUTO_SCAN (13 R381). -/
def execAutoScan (s : State) : Host.Outcome State Fault Refusal := done (autoScan s)
/-- The identity crossing is open (01 R22). -/
def State.idenOpen (s : State) : Bool := s.xing 5 0 == .opened
/-- A bus fault while a port is read: BUS_STUCK, and BUS_ERR for the port (13 R377); IDEN 0 event 0x11. -/
def busStuck (p : Nat) (s : State) : State :=
  match (if s.idenOpen then s.iden.scan else none) with
  | none => s
  | some _ => (({ s with iden := { s.iden with stuck := s.iden.stuck ++ [p] } }).countEv 0x200000 0x11 1).err 0x200000 9
/-- KSCL_STUCK: KSCL held low for more than 25 ms (13 R377). -/
def execKsclStuck (port : Port) (s : State) : Host.Outcome State Fault Refusal := done (busStuck port.toNat s)
/-- KSDA low for 35 ms with no transfer: nine pulses and a STOP recover the bus (13 R377). -/
def busHang (p : Nat) (s : State) : State :=
  if !s.idenOpen then s
  else
    match s.iden.scan with
    | none => (s.countEv 0x200000 0x11 1).err 0x200000 9
    | some _ => busStuck p s
/-- KSDA_STUCK (13 R377). -/
def execKsdaStuck (port : Port) (s : State) : Host.Outcome State Fault Refusal := done (busHang port.toNat s)

/-- The lowest port whose map has DIRECT = 1 (15 R411). -/
def State.directPort (s : State) : Option Nat :=
  (List.range 16).find? (fun p => s.mapped p && bit (s.portMap p) 7)
/-- A port gets BUS_ERR: a fault while it was read, a second DIRECT map, a switch that does not acknowledge (13 R377, 15
R411). -/
def State.busErr (s : State) (noSwitch p : Nat) : Bool :=
  let m := s.portMap p
  s.mapped p && (s.iden.stuck.contains p
    || (bit m 7 && s.directPort != some p) || (!bit m 7 && noSwitch.testBit (fld m 0 1)))
/-- The entry of a port after a scan (13 R374). -/
def State.scanPort (s : State) (full : Bool) (mods : List Module) (noSwitch p : Nat) : Bytes :=
  let old := s.posEntry p
  if !s.mapped p then posOnly posUnmapped
  else if s.busErr noSwitch p then posOnly posBusErr
  else
    match mods.find? (fun m => m.port.toNat == p) with
    | none => posOnly posAbsent
    | some m =>
      let same := (old.drop 8).take 16 == fitBytes 16 m.serial && posNoRecord ≤ s.posStatus p && s.posStatus p ≤ posValid
      if !full && same then old else entryOf m
/-- Two entries of a port are of different modules: they differ in more than the module state (13 R381). -/
def moduleChanged (old new : Bytes) : Bool := old.take 2 != new.take 2 || old.drop 3 != new.drop 3
/-- Ports set in CTL_PORT_EXPECT for the MAC class. -/
def State.expected (s : State) (p : Nat) : Bool := s.regF 0x002058 (16 + p) 1 == 1
/-- Ports that hold a VALID record. -/
def State.validPorts (s : State) : List Nat := (List.range 16).filter (fun p => s.posStatus p == posValid)
/-- The fields of IDEN_EXPECT (13 R378). -/
def State.expectFields (s : State) : List Nat :=
  [s.regN 0x201040, s.regF 0x201044 0 16, s.regF 0x201044 16 16, s.regF 0x201048 0 16, s.regF 0x201048 16 10]
/-- The fields that MATCH selects equal IDEN_EXPECT. -/
def State.matches (s : State) (fs : List Nat) : Bool :=
  (List.range 5).all (fun i => s.regF 0x20104C i 1 == 0 || fs.getD i 0 == s.expectFields.getD i 0)
/-- A changed module's entry passes items 0 to 2 of Table 13-5 (13 R381). -/
def State.entryPasses (s : State) (p : Nat) : Bool :=
  if s.posStatus p != posValid then !s.expected p
  else s.posPort p == p && s.validPorts.all (fun q => s.posFields q == s.posFields p) && s.matches (s.posFields p)
/-- SCAN_DONE: the position table is filled and what waits may start (13 R374, R376, R381); `modules` is what answered,
`noSwitch` the switches that did not. Nothing moves while the crossing is closed (01 R22). -/
def scanDone (modules : List Module) (noSwitch : Nat) (s : State) : State :=
  match (if s.idenOpen then s.iden.scan else none) with
  | none => s
  | some x =>
    let rows := (List.range 16).map (fun p => (p, s.scanPort x.full modules noSwitch p))
    let errs := (List.range 16).filter (s.busErr noSwitch)
    let reads := (List.range 16).filter (fun p => s.mapped p && !s.busErr noSwitch p)
    let s1 := { s with iden := { s.iden with
      scan := none, stuck := [], pos := rows.foldl (fun m (r : Nat × Bytes) => m.set (fun _ => zeros 64) r.1 r.2) s.iden.pos } }
    let s2 := s1.setRegN 0x20004C (1 + 4 * b2n x.full + (errs.map (fun p => 2 ^ (16 + p))).sum)
    let s3 := (s2.countEv 0x200000 0x10 reads.length).err 0x200000 8
    let bad := x.auto && rows.any (fun r => moduleChanged (s.posEntry r.1) r.2 && !s3.entryPasses r.1)
    (if bad then s3.err 0x201000 8 else s3).idenKick
/-- SCAN_DONE (13 R374). -/
def execScanDone (modules : List Module) (noSwitch : BitVec 2) (s : State) : Host.Outcome State Fault Refusal :=
  done (scanDone modules noSwitch.toNat s)

/-! ### The topology check, R379, R380 -/

/-- An entry of the domain table: DOMAIN, SPARE, USED, REPLICA (13 R379). -/
structure DomEnt where
  dom : Nat
  spare : Bool
  used : Bool
  rep : Nat
  deriving DecidableEq, Repr
/-- A word of the domain table. -/
def domEntOf (w : Nat) : DomEnt := ⟨nfld w 0 10, w.testBit 10, w.testBit 11, nfld w 12 20⟩
/-- An entry of the ownership map: TENSOR, FIRST, LEN, OWNER, MIRROR (13 R379). -/
structure OwnEnt where
  tensor : Nat
  first : Nat
  len : Nat
  owner : Nat
  mirror : Nat
  deriving DecidableEq, Repr
/-- The 24 bytes of an ownership entry. -/
def ownEntOf (b : Nat) : OwnEnt :=
  ⟨nfld b 0 24, nfld b 24 40, nfld b 64 40, nfld b 128 18, nfld b 160 18⟩
/-- The domain table, by node ID. -/
def State.domTab (s : State) : List DomEnt :=
  (chunks 4 (s.bytes (s.reg64 0x201050) (4 * (s.regN 0x201058 + 1)))).map (fun b => domEntOf (ofLe b))
/-- The ownership map. -/
def State.ownMap (s : State) : List OwnEnt :=
  (chunks 24 (s.bytes (s.reg64 0x20105C) (24 * s.regN 0x201064))).map (fun b => ownEntOf (ofLe b))
/-- An entry's node is USED and not SPARE. -/
def working (ds : List DomEnt) (n : Nat) : Bool :=
  match ds[n]? with | some d => d.used && !d.spare | none => false
/-- Item 4: the lowest node whose DOMAIN differs from that of the first used node of its replica. -/
def badReplica : List (Nat × DomEnt) → SMap Nat → Option Nat
  | [], _ => none
  | (n, d) :: ds, m =>
    if !d.used || d.rep = 0xFFFFF then badReplica ds m
    else
      let first := m.get (fun _ => d.dom) d.rep
      if first != d.dom then some n else badReplica ds (m.put d.rep d.dom)
/-- Item 5: the lowest used spare that lies beyond its domain's limit. -/
def overSpare (work : SMap Nat) : List (Nat × DomEnt) → SMap Nat → Option Nat
  | [], _ => none
  | (n, d) :: ds, m =>
    if !d.used || !d.spare then overSpare work ds m
    else
      let k := m.get (fun _ => 0) d.dom + 1
      if work.get (fun _ => 0) d.dom / 16 < k then some n else overSpare work ds (m.put d.dom k)
/-- Working packages of each domain. -/
def workCount (ds : List DomEnt) : SMap Nat :=
  ds.foldl (fun m d => if d.used && !d.spare then m.put d.dom (m.get (fun _ => 0) d.dom + 1) else m) []
/-- Item 6 for one entry. -/
def ownBad (ds : List DomEnt) (o : OwnEnt) : Bool :=
  o.first % 256 != 0 || o.len < 1 || !working ds o.owner || !working ds o.mirror
    || (ds.map (·.dom)).getD o.owner 0 == (ds.map (·.dom)).getD o.mirror 0
/-- Item 7: the first entry that is out of order or overlaps the entry before it. -/
def ownOrder : List (Nat × OwnEnt) → Option Nat
  | (_, a) :: (i, b) :: os =>
    if b.tensor < a.tensor || (b.tensor == a.tensor && (b.first ≤ a.first || b.first < a.first + a.len)) then some i
    else ownOrder ((i, b) :: os)
  | _ => none
/-- No port, entry or node. -/
def topoNone : Nat := 0xFFFFFF
/-- The first failing item of Table 13-5, with what [31:8] reports (13 R380). -/
def State.topoFail (s : State) : Option (Nat × Nat) :=
  let vs := s.validPorts
  let low := vs.headD topoNone
  let have_ := vs.head?.map s.posFields
  match (List.range 16).find? (fun p => s.expected p && s.posStatus p != posValid) with
  | some p => some (0, p)
  | none =>
    if vs.any (fun p => some (s.posFields p) != have_ || s.posPort p != p) then some (1, low)
    else if (match have_ with | some f => !s.matches f | none => s.regN 0x20104C != 0) then some (2, low)
    else
      match have_ with
      | none => some (3, topoNone)
      | some f =>
        let ds := s.domTab
        let nds := indexed 0 ds
        let dom := f.getD 4 0
        let own := ds[s.node]?
        if dom != s.regN 0xE00048 || (match own with | some d => !d.used || d.dom != dom | none => true) then
          some (3, s.node)
        else
          match badReplica nds [] with
          | some n => some (4, n)
          | none =>
            match overSpare (workCount ds) nds [] with
            | some n => some (5, n)
            | none =>
              match (nds.filter (fun x => x.2.used))[131072]? with
              | some (n, _) => some (5, n)
              | none =>
                let os := indexed 0 s.ownMap
                match os.find? (fun x => ownBad ds x.2) with
                | some (i, _) => some (6, i)
                | none => (ownOrder os).map (fun i => (7, i))
/-- A write of IDEN_CHECK_GO (13 R380, 15 R412, R421); a new check is held back while IDEN 1 quiesces (15 Table 15-1). -/
def checkGo (v : W32) (s : State) : State :=
  if s.iden.check != 0 then s.err 0x201000 9
  else if !bit v 0 then s
  else (({ s with iden := { s.iden with check := if bit (s.reg 0x201010) 1 then 3 else 1 } }).setRegN 0x20106C 1).idenKick
/-- CHECK_DONE: the checks end with PASS or with the first failing item (13 R380). -/
def checkDone (s : State) : State :=
  if s.iden.check != 2 then s
  else
    let s1 := { s with iden := { s.iden with check := 0 } }
    (match s.topoFail with
    | none => s1.setRegN 0x20106C 0
    | some (i, x) =>
      ((s1.setRegN 0x20106C (8 + i + x % 2 ^ 24 * 2 ^ 8)).countEv 0x201000 0x10 1).err 0x201000 8).idenKick
/-- CHECK_DONE (13 R380). -/
def execCheckDone (s : State) : Host.Outcome State Fault Refusal := done (checkDone s)
/-- RESULT is PASS (13 R380). -/
def State.topoPass (s : State) : Bool := s.regF 0x20106C 0 4 == 0

end Sys2Proof.Machine
end

