-- ==== Sys2Proof/Machine/Quicon.lean ====
section
/-! DEFINITION. Quicon's receiver and timers: segments and tests 1 to 6 (09 R247, R252), ACK and CREDIT (R245, R246),
retries and lifetimes (R242, R243), cooling (R248 to R250) and the KX1 format (R263 to R265). -/
namespace Sys2Proof.Machine
open Sys2Proof

/-! ### Segments -/

/-- The header obeys R237: a KIND and, in a GUARD frame, a GOP that is not reserved, reserved bits zero, and the ECN field zero
under UDP/IPv6. -/
def State.hdrOk (s : State) (bs : Bytes) : Bool :=
  let x := ofLe (bs.take 48)
  let h := hdrOf bs
  48 ≤ bs.length && h.ver == 2 && h.kind ≤ 4 && (h.kind != 3 || nfld h.spec 0 4 ≤ 12)
    && nfld x 9 1 == 0 && nfld x 58 6 == 0 && nfld x 76 4 == 0 && nfld x 238 2 == 0 && nfld x 280 8 == 0
    && (s.ether || h.ecn == 0) && h.off + h.slen ≤ h.len
/-- The trailer of R240: it is there as this package's own setting says, and right. -/
def State.e2eOk (s : State) (bs : Bytes) : Bool :=
  let h := hdrOf bs
  h.e2e == s.e2e && (!s.e2e
    || ofLe ((bs.drop (48 + h.slen)).take 4) == crc32c (hdrBytes { h with ecn := 0 } ++ (bs.drop 48).take h.slen))
/-- The frame holds its header, its segment and its trailer, and nothing else. -/
def State.frameLen (s : State) (bs : Bytes) : Bool := bs.length == 48 + (hdrOf bs).slen + if s.e2e then 4 else 0
/-- The context and GEN were retired by a reset (09 R262). -/
def State.wasRetired (s : State) (c gen : Nat) : Bool := s.qcn.retired.any (fun r => r.ctx == c && r.gen == gen)
/-- Test 5 of 09 Table 9-6, with 12 R318 for GUARD frames and their ACKs; a PARKED context still takes Tongs answers (10
R286; log entry 20). -/
def State.genOk (s : State) (h : Hdr) : Bool :=
  let run := s.cRunnable h.ctx && s.cGen h.ctx == h.gen
  let parked := s.cActive h.ctx && s.cGen h.ctx == h.gen
  let guard (gop : Nat) : Bool := jobOp gop || s.guardCtxOk h.ctx h.gen
  match h.kind with
  | 3 => guard (nfld h.spec 0 4)
  | 1 =>
    match nfld h.spec 82 4 with
    | 3 => guard (h.blk % 16)
    | 4 => parked
    | _ => run
  | 4 => if 3 ≤ nfld h.spec 0 3 then parked else run
  | _ => run
/-- Test 1 of 10 Table 10-5 on a complete request whose TOP is reserved: discarded, once (10 R275). -/
def State.dropBadTop (s : State) : State :=
  match s.rxFind (fun r => r.key.kind == 4 && 6 ≤ r.top) with
  | some r => (s.rxDrop r).bump 0xC00078 1
  | none => s
/-- Tests 2 to 6 of 09 Table 9-6 on a frame that passed test 1; an ACK, a CREDIT or a Tongs answer for a context that has been
reset is ACK_STRAY (09 R262, 10 R288). -/
def State.rxTests (s : State) (p : Nat) (h : Hdr) (ce : Bool) (seg : Bytes) : State :=
  let inc := match s.incOf h.src with
    | some i => h.incarn == i
    | none => h.kind == 3 && h.incarn == 0
  let age := (s.time.ktime / 256 + 2 ^ 40 - h.tsend) % 2 ^ 40
  if h.src = s.node then s.fence
  else if h.dst != s.node then s.bump 0xB02048 1
  else if !inc then s.bump 0xB0204C 1
  else if 195313 < age then s.bump 0xB02050 1
  else if (h.kind = 1 || h.kind = 2 || (h.kind = 4 && 3 ≤ nfld h.spec 0 3 && nfld h.spec 0 3 ≤ 5))
      && s.wasRetired h.ctx h.gen && !s.genOk h then s.stray
  else if !s.genOk h then s.bump 0xB02054 1
  else (s.rxStore p h ce seg).dropBadTop

/-! ### KX1 frames -/

/-- A KX1 header (09 Table 9-8). -/
structure Kx1 where
  kind : Nat
  ece : Bool
  src : Nat
  dst : Nat
  bucket : Nat
  seq : Nat
  off : Nat
  count : Nat
  dtype : Nat
  step : Nat
  grant : Nat
  deriving DecidableEq, Repr
/-- The header that 32 bytes hold. -/
def kx1Of (bs : Bytes) : Kx1 :=
  let x := ofLe (bs.take 32)
  { kind := nfld x 4 4, ece := x.testBit 8, src := nfld x 16 16, dst := nfld x 32 16, bucket := nfld x 48 16,
    seq := nfld x 64 32, off := nfld x 96 32, count := nfld x 128 12 + 1, dtype := nfld x 140 2, step := nfld x 160 32,
    grant := nfld x 192 32 }
/-- The KX1-mode context and Billet slot of a bucket (09 R265 test 3): one that is READY or RUNNING before any that is not. -/
def State.kx1Ctx (s : State) (bucket : Nat) : Option (Nat × Nat) :=
  let cs := s.live.filter s.cKx1
  (cs.filter s.cRunnable ++ cs).findSome? (fun c =>
    ((s.billetsOf c).find? (fun b => s.billetId b % 65536 == bucket)).map (fun b => (c, b)))
/-- Answer a KX1 message for Billet slot `b`, on the port it came by. -/
def State.kx1Ack (s : State) (p c b : Nat) (ce : Bool) (h : Kx1) : State :=
  s.sendShot 1 (some p) ⟨h.src, c, s.cGen c, s.cStep c, h.bucket, h.seq, 7⟩ 0 (s.billetId b + h.off / 4096 * 2 ^ 20)
    (kx1Hdr 1 ce s.node h.src h.bucket h.seq 0 1 0 h.step 0)
/-- KX1 DATA of the open step: a part of a child's block; the block is an operand once its parts cover it (09 R264, 06
R148). -/
def State.kx1Data (s : State) (p c b : Nat) (ce : Bool) (h : Kx1) (body : Bytes) : State :=
  let n := h.off / 4096
  let pos := h.off % 4096
  let dup : State := (s.kx1Ack p c b ce h).bump 0xB0205C 1
  match s.routeFor c b n with
  | none => s.bump 0xB02048 1
  | some r =>
    match r.childPos h.src with
    | none => s.bump 0xB02048 1
    | some i =>
      let o := s.openOf c b n
      if o.nelem < pos + h.count then s.bump 0xB02048 1
      else if (s.emitted c b).contains n || o.marked.contains i
          || o.parts.any (fun x => x.1 == h.src && x.2.1 == pos) then dup
      else
        let vs := if h.dtype = 0 then (chunks 4 body).map ofLe else ((chunks 2 body).map ofLe).map widenB
        let ps := o.parts ++ [(h.src, pos, vs)]
        let mine := sortBy (fun a b => decide (a.2.1 < b.2.1)) (ps.filter (fun x => x.1 == h.src))
        let codes := (mine.map (·.2.2)).flatten
        if codes.length < o.nelem then (s.putOpen { o with parts := ps }).kx1Ack p c b ce h
        else
          let contrib := ((r.children[i]?).map (·.2)).getD 0
          if r.cmax < o.contrib + contrib then s.contribOver
          else
            let g : Grist := ⟨0, 0, 0, 5, o.nelem, false, false, [], codes, [], contrib, false, false, false, false⟩
            let (y, _) := s.addOperand { o with parts := ps.filter (fun x => x.1 != h.src) } h.src g
            ((((s.putOpen { y with marked := y.marked ++ [i] }).kx1Ack p c b ce h).refresh c r).accessAcc r o)
/-- Credit is held for a step: the largest D with its WIN (09 R246). -/
def State.putCredit (s : State) (k : Credit) : State :=
  let same (x : Credit) : Bool := x.src == k.src && x.ctx == k.ctx && x.step == k.step && x.bslot == k.bslot && x.first == k.first
  let cs := s.qcn.credits.filter (fun x => x.ctx != k.ctx || s.cStep k.ctx ≤ x.step)
  let put (cs : List Credit) : State := { s with qcn := { s.qcn with credits := cs } }
  if cs.any same then
    put (cs.map (fun x => if same x && (x.d < k.d || (x.d == k.d && x.win < k.win)) then { x with d := k.d, win := k.win } else x))
  else put (cs ++ [k])
/-- Tests 2 to 4 of 09 R265. -/
def State.kx1Tests (s : State) (p : Nat) (ce : Bool) (h : Kx1) (body : Bytes) : State :=
  if h.src = s.node then s.fence
  else if h.dst != s.node then s.bump 0xB02048 1
  else
    match s.kx1Ctx h.bucket with
    | none => s.bump 0xB02054 1
    | some (c, b) =>
      if !s.cRunnable c then s.bump 0xB02054 1
      else
        let d := (h.step + 2 ^ 32 - s.cStep c % 2 ^ 32) % 2 ^ 32
        match h.kind with
        | 0 =>
          if (s.reg 0x900010).getLsbD 1 then s
          else if d = 0 then s.kx1Data p c b ce h body
          else if d < 2 ^ 31 then s.bump 0xB02058 1
          else (s.kx1Ack p c b ce h).bump 0xB0205C 1
        | 1 =>
          match s.qcn.msgs.find? (fun m => (m.key.kind == 5 || m.key.kind == 6) && m.key.dst == h.src && m.key.ctx == c
              && m.key.billet == h.bucket && m.key.blk == h.seq && !m.gone) with
          | none => s.stray
          | some m =>
            let s1 := s.answered m (if h.ece then m.charge else 0) 0
            if m.key.kind = 5 then s1.markVerdict c
            else (((s1.routes c).filter (fun r => r.bslot == b)).foldl (fun s r => s.refresh c r) s1)
        | _ =>
          if d ≤ 1 then (s.putCredit ⟨h.src, c, s.cStep c + d, b, 0, 2 ^ 20, h.grant / 4096, 0⟩).kx1Ack p c b ce h else s
/-- Test 1 of 09 R265: the CRC, KIND and DTYPE, and a length that COUNT_M1 and DTYPE give. -/
def kx1Ok (bs : Bytes) : Bool :=
  let h := kx1Of bs
  let n := bs.length
  let body := if h.kind = 0 then h.count * (if h.dtype = 0 then 4 else 2) else 0
  36 ≤ n && h.kind ≤ 2 && h.dtype ≤ 1 && n == 36 + body && ofLe (bs.drop (n - 4)) == crc32c (bs.take (n - 4))

/-! ### SEGMENT and KX1_FRAME -/

/-- A frame arrives at a port whose crossing is OPEN and whose link is up; its VER selects the Quicon or the KX1 header
(09 R236, R237, R247, R265). -/
def frameIn (p : Nat) (frame : Bytes) (s : State) : State :=
  if !(s.macPort p).link || s.xing 3 p != .opened then s
  else
    match s.decap frame with
    | none => s.bump 0xB02040 1
    | some (bs, out) =>
      let count (s : State) (ce : Bool) : State :=
        let s1 := s.bump (qcn3 p 0x4C) 1
        if ce then s1.bump (qcn3 p 0x50) 1 else s1
      if nfld (ofLe (bs.take 1)) 0 4 = 1 then
        let ce := out == some 3
        if kx1Ok bs then (count s ce).kx1Tests p ce (kx1Of bs) ((bs.take (bs.length - 4)).drop 32) else s.bump 0xB02040 1
      else if !s.hdrOk bs then s.bump 0xB02040 1
      else if !s.e2eOk bs then s.bump 0xB02044 1
      else if !s.frameLen bs then s.bump 0xB02040 1
      else
        let h := hdrOf bs
        let ce := (out.getD h.ecn) == 3
        (count s ce).rxTests p h ce ((bs.drop 48).take h.slen)
/-- SEGMENT (09 R252). -/
def execSegment (port : Port) (frame : Bytes) (s : State) : Host.Outcome State Fault Refusal :=
  done (frameIn port.toNat frame s)
/-- KX1_FRAME (09 R265). -/
def execKx1Frame (port : Port) (frame : Bytes) (s : State) : Host.Outcome State Fault Refusal :=
  done (frameIn port.toNat frame s)

/-! ### ACK and CREDIT -/

/-- The D and WIN that the ACK of a DATA message carries (09 R244, R246). -/
def State.ackCredit (s : State) (r : Rx) : State :=
  let c := r.key.ctx
  match s.billetSlot c r.key.billet with
  | none => s
  | some b =>
    let f := nfld r.spec 0 20
    match s.qcn.credits.find? (fun k => k.src == r.src && k.ctx == c && k.step == r.key.step && k.bslot == b && k.first == f) with
    | none => s
    | some k => s.putCredit { k with d := nfld r.spec 20 20, win := nfld r.spec 40 16 }
/-- A CREDIT has ended: what has become due for its record meanwhile is sent (09 R246). -/
def State.afterCredit (s : State) (k : MKey) : State :=
  match s.billetSlot k.ctx k.billet with
  | none => s
  | some b => match s.routeFor k.ctx b k.blk with | some t => s.refresh k.ctx t | none => s
/-- What the end of a message by its ACK means to those that sent it. -/
def State.afterAck (s : State) (r : Rx) (m : Msg) : State :=
  match m.key.kind with
  | 0 => (s.ackCredit r).markVerdict m.key.ctx
  | 2 => s.afterCredit m.key
  | 3 => s.guardAcked m.key
  | _ => s.tngAcked m.key
/-- The message that an ACK answers: the one held under its key, in any state (09 R245), that is not forgotten (R262); a Tongs
READ or CNT_READ is not ended by an ACK (10 R273). -/
def State.ackedMsg (s : State) (r : Rx) : Option Msg :=
  let k := { r.key with dst := r.src, kind := nfld r.spec 82 4 }
  s.qcn.msgs.find? (fun m => m.key == k && !m.gone && !(m.key.kind == 4 && nfld m.spec 0 3 != 0))
/-- ACK: it ends the message whose key it matches, ADDED or LATE; any other is ACK_STRAY (09 R245, R241). -/
def ackRx (s : State) : State :=
  match s.rxFind (fun r => r.key.kind == 1) with
  | none => s
  | some r =>
    let s1 := s.rxDrop r
    match s1.ackedMsg r with
    | none => s1.stray
    | some m => (s1.answered m (nfld r.spec 56 20) (if r.spec.testBit 77 then 1 else 0)).afterAck r m
/-- ACK (09 R245). -/
def execAck (s : State) : Host.Outcome State Fault Refusal := done (ackRx s)
/-- CREDIT: credit for the current or the next step is held and acknowledged; any other is discarded (09 R246, Table
9-6 test 12). -/
def creditRx (s : State) : State :=
  match s.rxFind (fun r => r.key.kind == 2) with
  | none => s
  | some r =>
    let s1 := s.rxDrop r
    let c := r.key.ctx
    if !s1.cRunnable c || s1.cGen c != r.key.gen then s1.bump 0xB02054 1
    else if r.key.step != s1.cStep c && r.key.step != s1.cStep c + 1 then s1
    else
      let s2 := match s1.billetSlot c r.key.billet with
        | some b => s1.putCredit ⟨r.src, c, r.key.step, b, nfld r.spec 0 20, nfld r.spec 56 20, nfld r.spec 20 20, nfld r.spec 40 16⟩
        | none => s1
      s2.ack r 0 0 0 false false
/-- CREDIT (09 R246). -/
def execCredit (s : State) : Host.Outcome State Fault Refusal := done (creditRx s)

/-! ### Timers -/

/-- A message ends UNKNOWN, and what follows for those that sent it; nothing, when a context reset had cancelled it. -/
def State.endUnknown (s : State) (m : Msg) : State :=
  let s1 := s.endMsg m 3
  if m.gone then s1
  else
    match m.key.kind with
    | 2 => s1.afterCredit m.key
    | 3 => s1.guardUnknown m
    | 4 => s1.tngUnknown m.key
    | 0 | 5 => s1.markVerdict m.key.ctx
    | _ => s1
/-- The timeout after attempt `n`, in µs (09 R242). -/
def timeoutOf (n : Nat) : Nat := min (12 * 2 ^ n) 3200
/-- The attempt of a message has timed out: the next one is queued, or it gives up after attempt 12. An attempt that is
due while no port of its group is up counts as handed over (09 R242, R243, R254). -/
def State.retry (s : State) (m : Msg) : State :=
  let s1 := s.onFlow m (fun f => { f with cwnd := max (s.regN 0xB01044) (f.cwnd / 2) })
  if m.attempt = 12 then ((s1.bump 0xB02070 1).err 0xB00000 8).endUnknown m
  else
    let m1 := { m with attempt := m.attempt + 1 }
    if s1.upPorts m.group = [] then s1.putMsg { m1 with sentAt := m.sentAt + timeoutOf m.attempt * usec }
    else s1.putMsg { m1 with active := true, done := 0, port := none, withdrawn := false }
/-- An ACK that answers the message has arrived and waits to be processed. -/
def State.ackWaits (s : State) (m : Msg) : Bool :=
  s.qcn.rx.any (fun r => r.full && r.key.kind == 1 && (match s.ackedMsg r with | some x => x.key == m.key | none => false))
/-- The timeout of a message's attempt has expired without an answer: an ACK that comes with it goes first (09 R267). -/
def State.timedOut (s : State) (m : Msg) : Bool :=
  m.phase == .sent && !m.active && !m.cancelled && decide (m.sentAt + timeoutOf m.attempt * usec ≤ s.time.ktime)
    && decide (s.time.ktime < m.tsend + 25000 * usec) && !s.ackWaits m
/-- RETRY_TIMEOUT: every attempt whose timeout has expired (09 R242); and what has come to wait for want of a port since its
group changed counts as handed over (R243). -/
def retryTimeout (s : State) : State :=
  let t := s.portless
  (t.qcn.msgs.filter t.timedOut).foldl (fun s m => s.retry m) t
/-- RETRY_TIMEOUT (09 R242). -/
def execRetryTimeout (s : State) : Host.Outcome State Fault Refusal := done (retryTimeout s)
/-- LIFETIME_END: every message that is 25 ms past TSEND ends UNKNOWN (09 R243). -/
def lifetimeEnd (s : State) : State :=
  (s.qcn.msgs.filter (fun m => m.phase != .queued && decide (m.tsend + 25000 * usec ≤ s.time.ktime))).foldl
    (fun s m => s.endUnknown m) s
/-- LIFETIME_END (09 R243). -/
def execLifetimeEnd (s : State) : Host.Outcome State Fault Refusal := done (lifetimeEnd s)
/-- COOLING_EXPIRY: the entries of steps that closed 32 ms ago are removed, and verdicts that waited for room end (09
R248, R249). -/
def coolingExpiry (s : State) : State :=
  let old (x : Close) : Bool := decide (x.at_ + 32000 * usec ≤ s.time.ktime)
  let gone := s.qcn.closes.filter old
  let s1 := { s with qcn := { s.qcn with
    closes := s.qcn.closes.filter (fun x => !old x),
    cool := s.qcn.cool.filter (fun e => !gone.any (fun x => x.ctx == e.ctx && x.gen == e.gen && x.step == e.step)) } }
  s1.live.foldl (fun s c => match (s.gx c).toHold with | some v => s.verdictEnd c v | none => s) s1
/-- COOLING_EXPIRY (09 R248). -/
def execCoolingExpiry (s : State) : Host.Outcome State Fault Refusal := done (coolingExpiry s)
/-- GEN_COOLING_END: generations retired 32 ms ago no longer hold a context in LOADED (09 R250). -/
def genCoolingEnd (s : State) : State :=
  { s with qcn := { s.qcn with
    retired := s.qcn.retired.filter (fun r => decide (s.time.ktime < r.at_ + 32000 * usec)) } }
/-- GEN_COOLING_END (09 R250). -/
def execGenCoolingEnd (s : State) : Host.Outcome State Fault Refusal := done (genCoolingEnd s)

end Sys2Proof.Machine
end

