-- ==== Sys2Proof/Machine/Plan.lean ====
section
/-! DEFINITION. What each subsystem checks when a context would leave LOADED for READY (03 R74, 04 R94, 06 R137, R145, R146,
R159, 07 R202, 08 R206, 09 R264, R265, 12 R314, 14 R394, R395, R399) and the conditions of STATUS (15 R415). -/
namespace Sys2Proof.Machine
open Sys2Proof

/-! ### Slot records -/

/-- Temper accepts a scale policy record (03 R74). -/
def State.policyOk (s : State) (t : Nat) : Bool :=
  let f := s.fmt t
  let floor := s.polS t 2 0
  let ceil := s.polS t 2 16
  let init := s.polS t 3 0
  let (lo, hi) : Int × Int := if f = 4 then (-1022, 1023) else (-512, 571)
  f != 7 && (isRaw f || (floor ≤ init && init ≤ ceil && lo ≤ floor && ceil ≤ hi))
    && s.escPer t ≤ 64 && 8 ≤ s.polF t 4 8 5 && s.polF t 4 8 5 ≤ 20 && 1 ≤ s.underU t && s.underU t ≤ 24
/-- The codec accepts a codec record (04 R94, 14 R399). -/
def State.codecOk (s : State) (t : Nat) : Bool :=
  let w := (List.getD [2, 2, 4, 8] (s.srcFmt t) 8)
  let pexp := sgn 8 (fld (s.pckW t 3) 0 8)
  1 ≤ s.len t && s.len t * w ≤ 2 ^ 28 && 15 ≤ fld (s.pckW t 0) 8 8 && s.resBase t % 4096 == 0
    && (!s.cPattern (s.slotCtx t) || (-100 ≤ pexp && pexp ≤ 100 && fld (s.pckW t 3) 8 2 ≤ 1))

/-! ### Routes and staging -/

/-- The class of a slot as configured: 0 coded, 1 W192, 2 raw (14 R395: checks come before overrides). -/
def State.confCls (s : State) (t : Nat) : Nat := if isCoded (s.fmt t) then 0 else if s.fmt t = 4 then 1 else 2
/-- Tensors of a Billet with their first block number and their blocks. -/
def spanList (s : State) : Nat → List Nat → List (Nat × Nat × Nat)
  | _, [] => []
  | k, t :: ts => (t, k, s.nblocks t) :: spanList s (k + s.nblocks t) ts
/-- The tensors that a record's range reaches. -/
def State.routeTensors (s : State) (c : Nat) (r : Route) : List Nat :=
  ((spanList s 0 (s.tensorsOf c r.bslot)).filter (fun x => overlaps r.first r.nblk x.2.1 x.2.2)).map (·.1)
/-- Records in ascending order that cover every block from `k` to `n` exactly once (06 R145). -/
def covers (n : Nat) : Nat → List Route → Bool
  | k, [] => k == n
  | k, r :: rs => r.first == k && 1 ≤ r.nblk && covers n (k + r.nblk) rs
/-- The lane bound of a coded tensor (06 R146). -/
def State.laneOk (s : State) (r : Route) (t : Nat) : Bool :=
  let cape := if s.escPer t = 0 then 0 else s.escCap t
  let m := r.cmax * (qmaxOf (s.fmt t) + cape)
  if r.final || r.parent == s.node then m ≤ 2 ^ 31 - 1
  else match r.lane with | 0 => m ≤ 32767 | 1 => m ≤ 2 ^ 31 - 1 | _ => false
/-- No entry twice. -/
def distinct : List Nat → Bool
  | [] => true
  | x :: xs => !xs.contains x && distinct xs
/-- One route record (06 R145). -/
def State.routeOk (s : State) (c : Nat) (r : Route) : Bool :=
  let ts := s.routeTensors c r
  let cls := (ts.map s.confCls).headD 3
  let ids := r.children.map (·.1) ++ r.deliv.map (·.1)
  let cm := (r.children.map (·.2)).sum
  ts.all (fun t => s.confCls t == cls) && ts != []
    && 1 ≤ r.cmax && r.cmax ≤ 131072 && (r.final || r.children.length + 1 ≤ r.cmax)
    && r.children.all (fun e => 1 ≤ e.2 && e.2 ≤ 131072) && r.deliv.all (fun e => e.2 == 0)
    && (if r.final then cm == r.cmax else cm + 1 == r.cmax)
    && distinct ids && !ids.contains s.node
    && r.childIdx + r.children.length + r.deliv.length ≤ 131072
    && (r.deliv == [] || (r.parent == s.node && r.nblk == 1))
    && (!r.final || (r.children.length == 1 && r.deliv == [] && r.nblk == 1 && r.parent == s.node))
    && (cls != 2 || r.final
      || (if r.parent = s.node then r.children.length + 1 == r.cmax else r.children == []))
    && (cls != 0 || ts.all (s.laneOk r))
/-- The route table of a context (06 R145). -/
def State.routesOk (s : State) (c : Nat) : Bool :=
  let rs := s.routes c
  rs.all (s.routeOk c)
    && (s.billetsOf c).all (fun b => covers (s.billetBlocks c b) 0 (rs.filter (fun r => r.bslot == b)))
/-- Bytes of the largest sealed block of a slot (06 R159): every form that the slot can be sent in. Only a coded slot's blocks
can be padded to whole rotation groups (04 R106). -/
def State.largestBlock (s : State) (c t : Nat) : Nat :=
  let n := min 4096 (if isCoded (s.fmt t) then s.lenPad t else s.len t)
  let f := s.fmt t
  let excess := if s.cEnc c then 52 else 24
  let nesc := if isCoded f then s.escPer t else 0
  let own := max (areaSizes f n 0 nesc false) (areaSizes f n (min n (fld (s.pckW t 0) 8 8 + 1)) nesc true)
  excess + max own (if f = 4 then 0 else areaSizes 5 n 0 0 false)
/-- The staging configuration of a context (06 R159). -/
def State.stagingOk (s : State) (c : Nat) : Bool :=
  let ts := s.slotsOf c
  let rs := s.routes c
  let acc (r : Route) : Nat := if (s.routeTensors c r).any (fun t => s.confCls t == 2) then accW 2 r.cmax else 98304
  4 ≤ s.cStageSegs c && 1 ≤ s.cStageOut c && s.cStageOut c + 1 ≤ s.cStageSegs c
    && ts.all (fun t => s.largestBlock c t ≤ s.outBytes c)
    && rs.all (fun r => acc r ≤ s.inBytes c
      && (!(s.isRoot r && (s.routeTensors c r).any (fun t => s.confCls t == 2)) || r.nblk * acc r ≤ s.inBytes c))

/-! ### Update records -/

/-- Two used records with one ROLE cover an element of one tensor. -/
def State.recClash (s : State) (u v : Nat) : Bool :=
  u != v && s.uSlot u == s.uSlot v && s.uMirror u == s.uMirror v
    && overlaps (s.ownFirst u) (s.ownLen u) (s.ownFirst v) (s.ownLen v)
/-- Two Kiln regions share a unit. -/
def State.kilnClash (s : State) (u v : Nat) : Bool :=
  u != v && s.uRule v == 5 && s.cState (s.uCtx v) != stFree
    && overlaps (s.uf u 7 0 17) (s.uf u 8 0 18) (s.uf v 7 0 17) (s.uf v 8 0 18)
/-- UPD accepts a used record (08 R206). -/
def State.recOk (s : State) (c u : Nat) : Bool :=
  let t := s.uSlot u
  let all := (usedIds 48 s.updR).filter s.uUsed
  let n := s.ownLen u
  let ends := s.ownFirst u + n
  let (rows, cols) := s.nsDim u
  s.uRule u ≤ 5 && s.slowD u ≤ 8 && s.used t && s.slotCtx t == c && s.uWide u == (s.fmt t == 4)
    && 1 ≤ n && ends ≤ s.len t && s.ownFirst u % 256 == 0 && (n % 256 == 0 || ends == s.len t)
    && (s.uRule u != 4 || (!s.uWide u && s.ownFirst u == 0 && n == s.len t && rows * cols == s.len t))
    && (s.uRule u != 5 || (n ≤ 262144 && (s.uf u 7 0 17 + s.uf u 8 0 18) * 256 ≤ 2 ^ 25 && 8 * n ≤ s.uf u 8 0 18 * 256
      && all.all (fun v => !s.kilnClash u v)))
    && ([14, 16, 18, 20, 22, 24, 26, 28].all (fun w => s.uAddr u w % 256 == 0))
    && (s.buffers u).all (fun b => s.inWindow c b.1 b.2)
    && all.all (fun v => !s.recClash u v)

/-! ### Quicon and Guard -/

/-- The KX1 conditions of a context (09 R264, R265, 14 R394). -/
def State.kx1Ok (s : State) (c : Nat) : Bool :=
  let ids (x : Nat) : List Nat := (s.billetsOf x).map (fun b => s.billetId b % 65536)
  let mine := ids c
  let nodes := ((s.routes c).map (fun r => r.parent :: r.children.map (·.1) ++ r.deliv.map (·.1))).flatten
  !s.cKx1 c || (!s.cEnc c && (s.slotsOf c).all (fun t => s.fmt t != 4) && nodes.all (fun n => n < 65536)
    && (if s.ether then 8228 else 8276) ≤ s.regF 0xB00060 0 14
    && (s.live.filter (fun x => x != c && s.cKx1 x)).all (fun x => (ids x).all (fun i => !mine.contains i)))
/-- GEN_COOLING: the context ID was retired under this GEN, or as a KX1-mode context, less than 32 ms ago (09 R250,
R265). -/
def State.genCooling (s : State) (c : Nat) : Bool :=
  s.qcn.retired.any (fun r => r.ctx == c && (r.kx1 || (r.was && r.gen == s.cGen c)) && decide (s.time.ktime < r.at_ + 32000 * usec))
/-- Bytes of the lock-step area: 8 for each block of the context's Billets (12 R350). -/
def State.lsBytes (s : State) (c : Nat) : Nat := ((s.billetsOf c).map (fun b => 8 * s.billetBlocks c b)).sum
/-- Guard accepts the record of a context (12 R314). -/
def State.guardOk (s : State) (c : Nat) : Bool :=
  let pol := fld (s.gw c 0) 0 2
  let area (a n : Nat) : Bool := n == 0 || s.inWindow c a n
  !(pol == 3 && s.gAddr c 15 == 0) && !(s.vparent c == s.node && s.rootId c != s.node)
    && area (s.gAddr c 10) (4 * fld (s.gw c 0) 8 8) && area (s.gAddr c 22) (4 * fld (s.gw c 24) 0 8)
    && area (s.gAddr c 12) ((s.gw c 14).toNat * 4096) && area (s.gAddr c 19) ((s.gw c 21).toNat * 4096)
    && (!bit (s.gw c 0) 2 || area (s.gAddr c 17) (s.lsBytes c))

/-! ### All checks, and STATUS -/

/-- The ring and the completion area lie outside every Malt footprint (07 R202). -/
def State.ringOk (s : State) (c : Nat) : Bool :=
  !s.inFootprint (s.cRingBase c) (64 * s.cRing c) && !s.inFootprint (s.cCmplBase c) (32 * s.cRing c)
/-- The checks of the subsystems with the page and bit that each sets: those that fail. -/
def State.failedChecks (s : State) (c : Nat) : List (Nat × Nat) :=
  let ts := s.slotsOf c
  ([(ts.all s.policyOk, 0x500000, 8), (ts.all s.codecOk, 0x800000, 8),
    (ts.all (fun t => s.leafMask t != 0), 0x900000, 11), (s.routesOk c, 0x900000, 12), (s.stagingOk c, 0x900000, 16),
    (((usedIds 48 s.updR).filter (fun u => s.uUsed u && s.uCtx u == c)).all (s.recOk c), 0xA00000, 8),
    (s.kx1Ok c, 0xB00000, 11), (s.guardOk c, 0xE01000, 8), (s.ringOk c, 0x300000, 12)] : List (Bool × Nat × Nat)).filterMap
    (fun x => if x.1 then none else some x.2)
/-- TIME_WAIT (13 R369). -/
def State.timeWait (s : State) (c : Nat) : Bool :=
  s.tState == tAcquiring || s.tState == tUnfit || (s.tState == tFree && 1 < s.members c)
/-- TOPO_WAIT (13 R380). -/
def State.topoWait (s : State) (c : Nat) : Bool := 1 < s.members c && !s.topoPass
/-- SCALES_WAIT: Temper does not hold the scales of the current step (15 Table 15-12). -/
def State.scalesWait (s : State) (c : Nat) : Bool := decide (s.scalesFor c < s.cStep c)
/-- The context STATUS (15 Table 15-12). -/
def State.ctxStatus (s : State) (c : Nat) : Nat :=
  b2n (s.keyMissing c) + 2 * b2n (s.incMissing c) + 4 * b2n (s.hx c).checkFailed + 8 * b2n (s.genCooling c)
    + 16 * b2n (s.timeWait c) + 32 * b2n (s.topoWait c) + 64 * b2n (s.scalesWait c) + 128 * b2n (s.hx c).loadRefused
/-- CTX_EFF (14 Table 14-5). -/
def State.ctxEff (s : State) (c : Nat) : Nat :=
  if s.cState c = stFree then 0
  else
    let us := (usedIds 48 s.updR).filter (fun u => s.uUsed u && s.uCtx u == c)
    s.policy c + 4 * b2n (s.policy c != fld (s.gw c 0) 0 2) + 8 * b2n (bit (s.gw c 0) 2) + 16 * b2n (s.cEnc c)
      + 32 * b2n (s.cKx1 c) + 64 * b2n (s.cPattern c) + 128 * b2n (s.hx c).sparge
      + 256 * b2n (s.gx c).parkHeld
      + 4096 * (us.map s.slowD).foldl max 0

end Sys2Proof.Machine
end

