-- ==== Sys2Proof/Machine/Contexts.lean ====
section
/-! DEFINITION. The life of a context: LOAD (01 R13, R19, 07 R190, 15 R414), LOADED to READY (15 R415), context reset (02
R52, 09 R262), the end of a STEP descriptor (07 R181, 12 R352, 13 R370, R385, 14 R398) and the accounting window (07
R172). -/
namespace Sys2Proof.Machine
open Sys2Proof

/-! ### Modes that wait for the next load, 14 R392 -/

/-- Where a held word is kept. -/
def heldKey (kind rec w : Nat) : Nat := kind * 2 ^ 40 + rec * 64 + w
/-- Keep a held word, or withdraw it. -/
def State.setHeld (s : State) (k : Nat) (o : Option W32) : State :=
  { s with ctl := { s.ctl with held := s.ctl.held.set (fun _ => none) k o } }
/-- A word as read: as written, where its modes wait. -/
def State.asHeld (s : State) (kind rec w : Nat) (v : W32) : W32 := (s.ctl.held.get (fun _ => none) (heldKey kind rec w)).getD v
/-- Put a word into a record of a kind. -/
def State.putRec (s : State) (kind rec w : Nat) (v : W32) : State :=
  match kind with
  | 0 => { s with ctxR := setWord s.ctxR 128 rec w v }
  | 1 => { s with polR := setWord s.polR 8 rec w v }
  | 2 => { s with pckR := setWord s.pckR 8 rec w v }
  | 3 => { s with updR := setWord s.updR 48 rec w v }
  | _ => { s with grdR := setWord s.grdR 25 rec w v }
/-- The context of a record of a kind. -/
def State.recCtx (s : State) (kind rec : Nat) : Nat :=
  match kind with
  | 0 => rec
  | 1 => s.slotCtx rec
  | 2 => s.slotCtx rec
  | 3 => s.uCtx rec
  | _ => rec
/-- The held words of a context come into force: at its load, LOADED to READY, or as it returns to FREE (14 R392). -/
def State.applyHeld (s : State) (c : Nat) : State :=
  s.ctl.held.foldl (fun s e =>
    let kind := e.1 / 2 ^ 40
    let rec_ := e.1 / 64 % 2 ^ 34
    match e.2 with
    | none => s
    | some v => if s.recCtx kind rec_ = c then (s.putRec kind rec_ (e.1 % 64) v).setHeld e.1 none else s) s

/-! ### LOAD -/

/-- Change each value of a list of keys back to what an unlisted key reads as. -/
def dropKeys {α : Type} (m : SMap α) (ks : List Nat) : SMap α := m.filter (fun e => !ks.contains e.1)
/-- The sum of SHARE over the non-FREE contexts (01 R19). -/
def State.shareSum (s : State) : Nat := (s.live.map s.cShare).sum
/-- HOP_SHARE_SUM takes the sum (15 R413). -/
def State.shareNow (s : State) : State := s.setRegN 0x300060 s.shareSum
/-- The union of the Hearth claims (07 R190). -/
def State.claimed (s : State) : Nat := s.live.foldl (fun m c => m ||| s.cHearth c) 0
/-- The claims of a loaded context: each claimed tile's contents become unspecified (07 R190). -/
def State.claimTiles (s : State) (mask : Nat) : State :=
  let ts := (List.range 32).filter mask.testBit
  let n := s.fresh + 1
  { s with
    fresh := n
    hop := { s.hop with
      claims := ts.foldl (fun m t => m.set (fun _ => 0) t n) s.hop.claims
      hearth := s.hop.hearth.filter (fun e => !ts.contains (e.1 / 65536)) } }
/-- Temper starts a context afresh: its slots and Billet slots hold what their records say (03 R74, R85). -/
def State.tmpFresh (s : State) (c : Nat) : State :=
  let ts := s.slotsOf c
  { s with tmp := { s.tmp with
    rule := dropKeys s.tmp.rule ts, now := dropKeys s.tmp.now ts, last := dropKeys s.tmp.last ts,
    ssqs := dropKeys s.tmp.ssqs ts, bB := dropKeys s.tmp.bB (s.billetsOf c), bound := dropKeys s.tmp.bound [c],
    closed := dropKeys s.tmp.closed [c] } }
/-- LOAD = 1 written to word 0 of a FREE context: refused when its reserved share or its claims do not fit (01 R19, 07 R190,
15 R414). HOP_SHARE_SUM follows (15 R413). Nothing in deep park (13 R388, log entry 118). -/
def loadCtx (c : Nat) (v : W32) (s : State) : State :=
  if s.dmp.power != 0 then s
  else
    let s0 := (s.setCf c 0 16 12 (fld v 16 12)).setCf c 0 28 2 (fld v 28 2)
    let excess := 256 < s0.shareSum + s0.cShare c
    let clash := s0.claimed &&& s0.cHearth c != 0
    let s1 := if excess then s0.err 0x300000 13 else s0
    let s2 := if clash then s1.err 0x300000 11 else s1
    if excess || clash then s2.setHx c { s2.hx c with loadRefused := true }
    else
      let s3 := (s2.setHx c (hopCtx0 c)).setGx c (gctx0 c)
      let s4 := ([28, 29, 30, 32, 33] : List Nat).foldl (fun s w => s.setCw c w 0) s3
      let s5 := { s4 with
        upd := { s4.upd with heldIn := s4.upd.heldIn.filter (fun x => x.1 != c) }
        dmp := { s4.dmp with pace := dropKeys s4.dmp.pace [c] }
        time := { s4.time with ph := dropKeys s4.time.ph [2 * c, 2 * c + 1], pt := s4.time.pt.clear (4 * c) (4 * c + 4) } }
      (((((s5.tmpFresh c).claimTiles (s5.cHearth c))).setCf c 0 0 3 stLoaded).shareNow).reloaded c

/-! ### LOADED to READY -/

/-- CONTEXT_READY: with an outstanding doorbell, a LOADED context is checked; one that passes and that no condition of STATUS
holds moves to READY (01 Table 1-2, 15 R415); modes written since the step in progress come into force with it (14 R392). The
root then counts those that have joined (12 R348). Nothing in deep park (13 R388, log entry 118). -/
def contextReady (c : Nat) (s : State) : State :=
  if s.dmp.power != 0 || s.cState c != stLoaded || s.cHead c = s.cTail c || (s.hx c).checkFailed then s
  else
    let h := s.applyHeld c
    let bad := h.failedChecks c
    let fails (s : State) : State :=
      let s1 := bad.foldl (fun s x => s.err x.1 x.2) s
      if s1.genCooling c then s1.err 0xB00000 10 else s1
    if bad != [] then (fails s).setHx c { (fails s).hx c with checkFailed := true }
    else if h.ctxStatus c % 128 != 0 then fails s
    else
      let s2 := fails h
      let s3 := { s2 with time := { s2.time with pt := s2.time.pt.setList zero32 (4 * c) (s2.ptR.getList zero32 (4 * c) 4) } }
      ((if (s.hx c).opened = 0 then s3 else s2).setCState c stReady).joinCheck
/-- CONTEXT_READY (15 R415). -/
def execContextReady (ctx : Ctx) (s : State) : Host.Outcome State Fault Refusal := done (contextReady ctx.toNat s)

/-! ### Context reset -/

/-- A frame key is a job-level Guard operation's (12 Table 12-2). -/
def MKey.ofJob (k : MKey) : Bool := k.kind == 3 && jobOp (k.blk % 16)
/-- Quicon forgets a context: its messages are cancelled and reported by no counter, its OUT and reassembly space released,
and its ID and GEN retired (09 R250, R262, R265). -/
def State.qcnReset (s : State) (c : Nat) : State :=
  let mine (k : MKey) : Bool := k.ctx == c && !k.ofJob
  let end_ (m : Msg) : Option Msg :=
    if !mine m.key then some m
    else match m.phase with
      | .queued => none
      | _ => some { m.stop with gone := true, own := none }
  { s with qcn := { s.qcn with
    msgs := s.qcn.msgs.filterMap end_
    rx := s.qcn.rx.filter (fun r => r.key.kind == 1 || !mine r.key)
    credits := s.qcn.credits.filter (fun k => k.ctx != c)
    retired := s.qcn.retired ++ [⟨c, s.cGen c, s.time.ktime, s.cKx1 c, s.cActive c⟩] } }
/-- Mash, the codec and the update unit drop what they hold for a context (02 R52, Table 2-7; 04 R119). -/
def State.mashReset (s : State) (c : Nat) : State :=
  let ts := s.slotsOf c
  { s with
    pck := { s.pck with
      front := s.pck.front.filter (fun g => g.ctx != c), own := s.pck.own.filter (fun o => o.ctx != c) }
    msh := { s.msh with
      tiles := s.msh.tiles.filter (fun t => t.ctx != c), opens := s.msh.opens.filter (fun o => o.ctx != c),
      hands := s.msh.hands.filter (fun h => h.ctx != c), emitted := s.msh.emitted.clear (65536 * c) (65536 * c + 65536),
      ownNext := s.msh.ownNext.clear (65536 * c) (65536 * c + 65536), maxSum := dropKeys s.msh.maxSum ts,
      pat := dropKeys s.msh.pat [c], stalled := s.msh.stalled.filter (fun x => !ts.contains x.1) }
    qcn := { s.qcn with adv := s.qcn.adv.clear (65536 * c * 2 ^ 28) (65536 * (c + 1) * 2 ^ 28) }
    upd := { s.upd with banks := s.upd.banks.filter (fun b => s.uCtx b.urec != c) } }
/-- Lauter drops a context's sort (07 R188). -/
def State.sortReset (s : State) (c : Nat) : State :=
  let s1 := { s with hop := { s.hop with sortQ := s.hop.sortQ.filter (fun x => x != c) } }
  match s1.hop.sort with | some (o, _) => if o = c then s1.sortNext else s1 | none => s1
/-- The completion record with status RESET of the descriptor that a context reset interrupts (02 R52). -/
def State.resetCmpl (s : State) (c : Nat) (w : Waiting) : State :=
  s.writeCmpl c { pos := w.pos, op := dOp w.d, tag := dTag w.d, status := 1, cmpl := true, cnt := false, nf := false,
                  big := false, refetch := w.refetch, result := 0, hc := 0, seq := (s.hx c).seq, writes := []
                  upd := none }
/-- The descriptor that a context reset interrupts (02 R52, 07 Table 7-13): the one that waits; where none does, the next one of
a ring that is not empty, from its prefetched copy or from memory (log entry 36). -/
def State.resetDesc (s : State) (c : Nat) : Option Waiting :=
  match (s.hx c).waiting with
  | some w => some w
  | none =>
    if !s.cRunnable c || s.cHead c = s.cTail c then none
    else
      let p := s.cHead c
      match (s.hx c).copies.find? (fun cp => cp.pos == p) with
      | some cp => some ⟨p, ofLe cp.bytes, cp.refetch, s.time.ktime⟩
      | none => some ⟨p, s.memN (s.cRingBase c + 64 * p) 64, false, s.time.ktime⟩
/-- A context reset finds blocks of the context in the codec, all their groups there: the codec completes them and writes their
residuals (04 Table 4-9); the Packer discards them with the rest. -/
def State.codecDrain (s : State) (c : Nat) : State :=
  let step := s.cStep c
  let ks := ((s.pck.front.filter (fun g => g.ctx == c && g.step == step)).map (fun g => (g.slot, g.elem / 4096))).eraseDups
  ks.foldl (fun s k =>
    match s.frontOf k.1 step k.2 with
    | some (vals, pat) => s.codeFront k.1 k.2 step (s.eff k.1) vals pat
    | none => s) s
/-- Descriptors that ended before the reset complete (07 R175). -/
def State.completeAll (s : State) (c : Nat) : State := (s.hx c).ended.foldl (fun s _ => complete c s) s
/-- A context returns to FREE: a member of a running job reports itself (12 R316); the ring is abandoned, Billets in
flight are cancelled, queues, staging and claims are released (02 R52, 09 R262, 10 R280). Every reset level clears the key
staging (02 R44). -/
def State.ctxFree (s : State) (c : Nat) : State :=
  if s.cState c = stFree then s
  else
    let s1 := if (s.gx c).member && s.members c != 0 then s.sendFailrep s.node true else s
    let s2 := s1.completeAll c
    let s3 := match s2.resetDesc c with | some w => s2.resetCmpl c w | none => s2
    let s4 := (s3.queuesOf c).foldl (fun s q => s.queueReset q) (s3.qcnReset c)
    let s5 := (((((s4.codecDrain c).mashReset c).release c).setHx c (hopCtx0 c)).sortReset c).applyHeld c
    let s6 := { s5 with
      tmp := { s5.tmp with bound := dropKeys s5.tmp.bound [c] }
      dmp := { s5.dmp with pace := dropKeys s5.dmp.pace [c] }
      ptR := s5.ptR.clear (4 * c) (4 * c + 4)
      time := { s5.time with
        ph := dropKeys s5.time.ph [2 * c, 2 * c + 1], pt := s5.time.pt.clear (4 * c) (4 * c + 4)
        ptHeld := s5.time.ptHeld.filter (fun w => w.1 != c) }
      ctl := { s5.ctl with stage := [] }
      grd := { s5.grd with
        parts := s5.grd.parts.filter (fun p => p.ctx != c || jobOp p.gop)
        reload := if (s.gx c).member then s5.grd.reload.filter (fun x => x != c) ++ [c] else s5.grd.reload } }
    ((s6.setGx c (gctx0 c)).setCf c 0 0 3 stFree).shareNow
/-- A write of HOP_CTX_RESET: at once where no descriptor can run, else at the next descriptor boundary (02 R52, 15
R421). -/
def ctxReset (v : W32) (s : State) : State :=
  let c := fld v 0 12
  if s.cRunnable c then s.setHx c { s.hx c with resetReq := true } else s.ctxFree c
/-- CONTEXT_RESET: the descriptor boundary has come (02 R52). -/
def contextReset (c : Nat) (s : State) : State := if (s.hx c).resetReq then s.ctxFree c else s
/-- CONTEXT_RESET (02 R52). -/
def execContextReset (ctx : Ctx) (s : State) : Host.Outcome State Fault Refusal := done (contextReset ctx.toNat s)

/-! ### The end of a STEP descriptor -/

/-- The moment at which R181 alone ends a waiting STEP descriptor, if its conditions hold now: the VERDICT of the step
before has ended, or no step has been opened; the launch count, a RESUME's in place of LAUNCH, has been reached; a held job has
its RESUME (07 R181, 12 R345, R348, R354, 13 R370). -/
def State.stepFree (s : State) (c : Nat) (w : Waiting) : Option Nat :=
  let h := s.hx c
  let g := s.gx c
  let k := dq w.d 1 0 48
  let verdict := h.opened == 0 || s.tmp.closed.get (fun _ => none) c == some (k - 1)
  let vEnd := if h.opened = 0 then 0 else (((s.phase c (k - 1)).ends.get (fun _ => none) phVerdict).getD 0)
  let launch := match g.launch with | some l => l | none => if w.d.testBit 113 then dq w.d 2 0 64 else 0
  let first := h.opened == 0 && 1 < s.members c && g.launch.isNone
  if verdict && launch ≤ s.time.ktime && !g.needResume && !first then some (max w.at_ (max vEnd launch)) else none
/-- Staged codec words that the step opens (04 R95). -/
def State.applyPck (s : State) (c step : Nat) : State :=
  (s.slotsOf c).foldl (fun s t =>
    match s.pck.staged.get (fun _ => none) t with
    | none => s
    | some v =>
      if (s.pckW t 7).toNat != step % 2 ^ 32 then s
      else
        { s with
          pckR := setWord s.pckR 8 t 0 v
          pck := { s.pck with staged := s.pck.staged.set (fun _ => none) t none } }) s
/-- Guard's state of a step gives way to the next step's (12 R320, R336, R350). -/
def GCtx.opens (g : GCtx) (step : Nat) : GCtx :=
  { g with
    vups := g.vups.filter (fun v => step ≤ v.step), sent := false, vqAt := none, vqN := 0, man := [], manOvf := false,
    diverge := false, lsMis := false, winOvf := false, hashes := [], sigs := [],
    peer := g.peer.filter (fun p => step ≤ p.1), compared := [], launch := none, lostTo := [], released := false }
/-- What the collector, the codec and Mash hold of earlier steps is gone. -/
def State.mashOpen (s : State) (c step : Nat) : State :=
  let ts := s.slotsOf c
  let stale (x n : Nat) : Bool := x == c && n < step
  { s with
    pck := { s.pck with
      front := s.pck.front.filter (fun g => !stale g.ctx g.step), own := s.pck.own.filter (fun o => !stale o.ctx o.step) }
    msh := { s.msh with
      tiles := s.msh.tiles.filter (fun t => !stale t.ctx t.step), opens := s.msh.opens.filter (fun o => !stale o.ctx o.step),
      emitted := s.msh.emitted.clear (65536 * c) (65536 * c + 65536),
      ownNext := s.msh.ownNext.clear (65536 * c) (65536 * c + 65536), maxSum := dropKeys s.msh.maxSum ts,
      stalled := s.msh.stalled.filter (fun x => !(ts.contains x.1 && x.2.2 < step)) }
    qcn := { s.qcn with
      adv := s.qcn.adv.clear (65536 * c * 2 ^ 28) (65536 * (c + 1) * 2 ^ 28),
      credits := s.qcn.credits.filter (fun k => !stale k.ctx k.step) } }
/-- The Phase Timer at the end of a STEP descriptor: the record of the step before, for a context without a fetch queue; then
a change of its record takes effect (12 R352, 15 R410). -/
def State.phaseOpen (s : State) (c : Nat) : State :=
  let s1 := if (s.hx c).opened != 0 && !bit (s.pt c 3) 31 then s.writePhase c (s.cStep c) else s
  { s1 with time := { s1.time with pt := s1.time.pt.setList zero32 (4 * c) (s1.ptR.getList zero32 (4 * c) 4) } }
/-- The step opens (07 R181, 14 R398). -/
def State.openStep (s : State) (c : Nat) (w : Waiting) (free : Nat) : State :=
  let step := dq w.d 1 0 48
  let s1 := ((s.paceLaunch c (s.gx c).launch free).wearStep.phaseOpen c).setC64 c 26 step
  let h := s1.hx c
  let s2 := s1.setHx c { h with opened := h.opened + 1, stepEnd := s1.time.ktime, sparge := w.d.testBit 112 }
  let s3 := ((s2.applyPck c step).mashOpen c step)
  let s4 := ((s3.setGx c ((s3.gx c).opens step)).stepCredits c).patStart c
  (s4.endDesc c w (Fin.plain 0)).guardOpen c
/-- STEP_END: the conditions of the waiting STEP descriptor hold, and pacing allows its launch (07 R181, 13 R385). -/
def stepEnd (c : Nat) (s : State) : State :=
  match s.waitingOp c 0x01 with
  | none => s
  | some w =>
    match s.stepFree c w with
    | none => s
    | some free =>
      match (s.gx c).launch, s.paceAt c with
      | none, some l => if l ≤ s.time.ktime then s.openStep c w free else s
      | _, _ => s.openStep c w free
/-- STEP_END (07 R181). -/
def execStepEnd (ctx : Ctx) (s : State) : Host.Outcome State Fault Refusal := done (stepEnd ctx.toNat s)

/-! ### Accounting windows, 07 R172 -/

/-- The work estimate of an Anvil-class descriptor (07 R173). -/
def workOf (c d : Nat) (s : State) : Nat :=
  match dOp d with
  | 0x08 => (decVop d s).w
  | 0x09 => (decVred d s).w
  | 0x10 => (decTload c d s).w
  | 0x11 => (decTstore c d s).w
  | 0x12 => (decTbcast c d s).w
  | 0x13 => (decMmt c d s).w
  | 0x40 => (decApply c d s).w
  | 0x48 => (decKDelta c d s).w
  | 0x50 => (decCaskOut c d s).w
  | 0x51 => (decCaskIn c d s).w
  | _ => 0
/-- The descriptor that holds the Anvil at the end of the window, `hc` of it in this window: charged now, and its
estimate counted where it started in the window (log entry 11). -/
def State.chargeRun (s : State) (hc : Nat) : State :=
  match s.hop.owner with
  | none => s
  | some o =>
    if hc = 0 then s
    else
      let ws := if s.hop.preHc = 0 then (match s.ready o with | some w => [(o, workOf o w.d s)] | none => []) else []
      let s1 := s.charge o hc
      { s1 with hop := { s1.hop with winW := s1.hop.winW ++ ws, preHc := s1.hop.preHc + hc } }
/-- What `run` hc since the last grant leave of its switch for the next window (07 R170, R172). -/
def State.switchLeft (s : State) (run : Nat) : Nat := if s.hop.owner.isSome then s.hop.swHc - run else 0
/-- WIN_HC of a context, less the hc of its switch that pass after the window. -/
def State.winCharged (s : State) (back c : Nat) : Nat :=
  if s.hop.owner = some c then s.cWinHc c - back else s.cWinHc c
/-- ACCOUNTING_WINDOW_END: `run` is how long the holder of the Anvil has been switched to and has run in this window. A
context that was a candidate or held the Anvil throughout, and was charged below its reservation, has yielded; the rest of a
switch is charged in the new window (07 R172). -/
def windowEnd (run : Nat) (s : State) : State :=
  let back := s.switchLeft run
  let s1 := s.chargeRun (run - s.hop.swHc)
  let s2 := s1.live.foldl (fun s c =>
    let l := ((s1.hop.winW.filter (fun x => x.1 != c)).map (·.2)).foldl max 0
    if (s1.hx c).candWin && s1.winCharged back c + l + 12 < s1.cShare c * 256 then s.yieldEv c 4 0 else s) s1
  let s3 := s2.live.foldl (fun s c =>
    (s.setCw c 33 (if s.hop.owner = some c then BitVec.ofNat 32 back else 0)).setHx c
      { s.hx c with candWin := s.isCand c || s.hop.owner == some c }) s2
  { s3 with hop := { s3.hop with winW := [], swHc := back } }
/-- ACCOUNTING_WINDOW_END (07 R172). -/
def execAccountingWindowEnd (run : Nat) (s : State) : Host.Outcome State Fault Refusal := done (windowEnd run s)

end Sys2Proof.Machine
end

