-- ==== Sys2Proof/Machine/MaltCode.lean ====
section
/-! DEFINITION. What a Malt slice stores: fixed-rate groups and blocks (11 R294 to R297), variable-rate blocks (R300, R301),
and the check order of R304. -/
namespace Sys2Proof.Machine
open Sys2Proof

/-- The settings of a partition that fix its stored form (11 Table 11-1). -/
structure MSet where
  mode : Nat
  zp : Bool
  act : Bool
  src : Nat
  w : Nat
  wcode : Nat
  sealed_ : Bool
  pdom : Nat
  deriving DecidableEq, Repr

/-- The settings that word 0 holds. -/
def msetOf (w : W32) : MSet :=
  { mode := fld w 1 2, zp := bit w 3, act := bit w 4, src := fld w 5 2, w := 4 + 2 * fld w 8 2, wcode := fld w 8 2,
    sealed_ := bit w 10, pdom := fld w 16 12 }
/-- LB: a logical block (11 R294, R300). -/
def MSet.lb (m : MSet) : Nat := if m.mode = 2 then 4096 else 1024 * fmtBytes m.src
/-- PB: a fixed-rate stored block. -/
def MSet.pb (m : MSet) : Nat := 64 + 128 * m.w

/-! ### Fixed-rate groups -/

/-- A coded group: E, Z, the 64 codes, clamped codes, and whether it is non-finite. -/
structure MGroup where
  e : Nat
  z : Nat
  codes : List Nat
  sat : Nat
  nf : Bool
  deriving DecidableEq, Repr

/-- The smallest E in 0 to 254 with a ≤ M × s(E), else 254 (11 R295, R296). -/
def maltE (m a : FVal) : Nat := ((List.range 255).find? (fun e : Nat => !vlt (vshift ((e : Int) - 134) m) a)).getD 254
/-- |x|. -/
def vabs : FVal → FVal
  | .fin _ m e => .fin false m e
  | .inf _ => .inf false
  | .nan => .nan
/-- The largest of a list of values, at least `x`. -/
def vmaxOf (x : FVal) (xs : List FVal) : FVal := xs.foldl (fun a y => if vlt a y then y else a) x
/-- Codes clamped to a range, with how many were clamped. -/
def clampAll (lo hi : Int) (cs : List Int) : List Int × Nat :=
  (cs.map (fun c => min (max c lo) hi), (cs.filter (fun c => decide (c < lo) || decide (hi < c))).length)
/-- FR_GROUP of 11 R295, on binary32 patterns. -/
def frGroup (w : Nat) (zp : Bool) (xs : List Nat) : MGroup :=
  let zero : FVal := .fin false 0 0
  if xs.any (fun x => !isFin f32 x) then ⟨255, 0, xs.map (fun _ => 0), 0, true⟩
  else
    let vs := xs.map (decF f32)
    if zp then
      let lo := vneg (vmaxOf zero (vs.map vneg))
      let hi := vmaxOf zero vs
      let qr : Nat := 2 ^ w - 1
      let e := maltE (.fin false qr 0) (vadd hi (vneg lo))
      let k : Int := 134 - (e : Int)
      let z := min (max (rneInt (vshift k (vneg lo))) 0) qr
      let (cs, n) := clampAll 0 qr (vs.map (fun v => rneInt (vshift k v) + z))
      ⟨e, z.toNat, cs.map Int.toNat, n, false⟩
    else
      let q : Nat := 2 ^ (w - 1) - 1
      let e := maltE (.fin false q 0) (vmaxOf zero (vs.map vabs))
      let (cs, n) := clampAll (-(q : Int)) q (vs.map (fun v => rneInt (vshift (134 - (e : Int)) v)))
      ⟨e, 0, cs.map (unsgn w), n, false⟩
/-- The index that minimises |x − T[c]|, the lower one at a tie (11 R296). -/
def nearest (x : FVal) (t : List FVal) : Nat :=
  ((indexed 0 (t.map (fun y => vabs (vadd x (vneg y))))).foldl (fun b p =>
    match b with
    | none => some p
    | some q => if vlt p.2 q.2 then some p else some q) none).elim 0 (·.1)
/-- An FT group of 11 R296. -/
def ftGroup (t : List Nat) (xs : List Nat) : MGroup :=
  let zero : FVal := .fin false 0 0
  if xs.any (fun x => !isFin f32 x) then ⟨255, 0, xs.map (fun _ => 0), 0, true⟩
  else
    let vs := xs.map (decF f32)
    let ts := t.map (decF f32)
    let e := maltE (vmaxOf zero (ts.map vabs)) (vmaxOf zero (vs.map vabs))
    ⟨e, 0, vs.map (fun v => nearest (vshift (134 - (e : Int)) v) ts), 0, false⟩
/-- A binary32 pattern converted to SRC: RNE, largest finite value beyond, never −0 (11 R297). -/
def toSrc (src v : Nat) : Nat :=
  let f := fmtOf src
  let x := cvt f32 f v
  if isInf f x then f.maxFin (x.testBit (f.eb + f.mb)) else if isZero f x then 0 else x
/-- Decode one code of a group (11 R297). -/
def MSet.decode (m : MSet) (t : List Nat) (e z c : Nat) : Nat :=
  let k : Int := (e : Int) - 134
  if e = 255 then (fmtOf m.src).qnan
  else if m.mode = 1 then toSrc m.src (encF f32 (vshift k (decF f32 (t.getD c 0))))
  else
    let n : Int := if m.zp then (c : Int) - z else sgn m.w c
    toSrc m.src (encF f32 (ofInt false n k))

/-! ### Fixed-rate blocks -/

/-- Encode the 1,024 elements of a block: metadata and codes, codes clamped, non-finite groups. -/
def MSet.encode (m : MSet) (t : List Nat) (data : Bytes) : Bytes × Nat × Nat :=
  let xs := ((chunks (fmtBytes m.src) data).map ofLe).map (toF32 m.src)
  let gs := (chunks 64 xs).map (fun g => if m.mode = 1 then ftGroup t g else frGroup m.w m.zp g)
  ((gs.map (fun g => leBytes 2 (g.e + g.z * 256))).flatten ++ packBits m.w (gs.map (·.codes)).flatten,
    (gs.map (·.sat)).sum, (gs.filter (·.nf)).length)
/-- Decode the metadata and codes of a block. The zero block decodes to +0 (11 R299), also under FT, where T[0] × s(0) of R297
need not round to zero (log entry 120). -/
def MSet.expand (m : MSet) (t : List Nat) (pt : Bytes) : Bytes :=
  if pt.all (fun b => b == 0) then zeros m.lb
  else
  let cs := unpackBits m.w 1024 (pt.drop 32)
  ((indexed 0 cs).map (fun p =>
    let g := p.1 / 64
    leBytes (fmtBytes m.src) (m.decode t (pt.getD (2 * g) 0).toNat (pt.getD (2 * g + 1) 0).toNat p.2))).flatten
/-- A block of canonical NaNs. -/
def MSet.nanBlock (m : MSet) : Bytes :=
  (List.replicate 1024 (leBytes (fmtBytes m.src) (fmtOf m.src).qnan)).flatten
/-- The zero block (11 R299). -/
def MSet.zeroBlock (m : MSet) : Bytes := zeros (32 + 128 * m.w)

/-! ### Variable-rate blocks -/

/-- The plane stream of 4,096 bytes (11 R300). -/
def planes (b : Nat) (data : Bytes) : Bytes :=
  let es := chunks b data
  ((List.range b).map (fun p => es.map (fun e => e.getD p 0))).flatten
/-- The bytes whose plane stream is given. -/
def unplanes (b : Nat) (st : Bytes) : Bytes :=
  let n := 4096 / b
  let ps := chunks n st
  ((List.range n).map (fun k => ps.map (fun p => p.getD k 0))).flatten
/-- Two 4-bit values a byte. -/
def nibbles : List Nat → Bytes
  | a :: b :: r => BitVec.ofNat 8 (a + 16 * b) :: nibbles r
  | _ => []
/-- A chunk's tag and payload (11 Table 11-4). -/
def vrChunk (c : Bytes) : Nat × Bytes :=
  let ns := c.map BitVec.toNat
  let m := ns.foldl min 255
  let v := ns.headD 0
  if ns.all (· == 0) then (0, [])
  else if ns.all (· == v) then (1, [BitVec.ofNat 8 v])
  else if ns.all (fun x => decide (x ≤ m + 15)) then (2, BitVec.ofNat 8 m :: nibbles (ns.map (· - m)))
  else (3, c)
/-- The body of a block, and whether it is stored RAW (11 R300). -/
def vrBody (src : Nat) (data : Bytes) : Bytes × Bool :=
  let cs := (chunks 64 (planes (fmtBytes src) data)).map vrChunk
  let body := packBits 2 (cs.map (·.1)) ++ (cs.map (·.2)).flatten
  if 4096 ≤ body.length then (data, true) else (body, false)
/-- Payload bytes of a tag. -/
def vrLen (tag : Nat) : Nat := match tag with | 0 => 0 | 1 => 1 | 2 => 33 | _ => 64
/-- The length of a body from its tag map. -/
def vrBodyLen (map : Bytes) : Nat := 16 + ((unpackBits 2 64 map).map vrLen).sum
/-- Expand chunks. -/
def vrChunks : List Nat → Bytes → Bytes
  | [], _ => []
  | t :: ts, bs =>
    let c : Bytes := match t with
      | 0 => zeros 64
      | 1 => List.replicate 64 (bs.headD 0)
      | 2 => (((bs.drop 1).take 32).map (fun x => [bs.headD 0 + x % 16, bs.headD 0 + x / 16])).flatten
      | _ => bs.take 64
    c ++ vrChunks ts (bs.drop (vrLen t))
/-- The 4,096 bytes of a body. -/
def vrExpand (src : Nat) (raw : Bool) (body : Bytes) : Bytes :=
  if raw then body else unplanes (fmtBytes src) (vrChunks (unpackBits 2 64 body) (body.drop 16))
/-- LEN64 of a body (11 R301). -/
def MSet.len64 (m : MSet) (n : Nat) : Nat := cdiv (n + 4 + (if m.sealed_ then 28 else 0)) 64

/-! ### Sealing and checks, 11 R304 -/

/-- The additional data of a sealed block: [3:0] instance, [6:4] partition, [47:8] block number (11 R304). -/
def maltAad (inst part n : Nat) : Bytes := leBytes 8 (inst + part * 16 + n * 256)
/-- A stored block: nonce, text and tag when sealed; the CRC; zeros to a multiple of 64 bytes. -/
def storedBytes (key : Option (BitVec 256 × Bytes)) (aad pt : Bytes) : Bytes :=
  let x := match key with
    | some (k, iv) => iv ++ gcmSeal k iv aad pt
    | none => pt
  let y := x ++ leBytes 4 (crc32c x)
  fitBytes (padTo 64 y.length) y
/-- Open a stored block whose text has `n` bytes: the text, or the check that fails: 2 the CRC, 3 the tag. -/
def openStored (key : Option (BitVec 256)) (sealed_ : Bool) (aad : Bytes) (n : Nat) (bs : Bytes) : Bytes ⊕ Nat :=
  let m := if sealed_ then n + 28 else n
  if bs.length < m + 4 || ofLe ((bs.drop m).take 4) != crc32c (bs.take m) then .inr 2
  else if !sealed_ then .inl (bs.take n)
  else
    match key with
    | none => .inr 3
    | some k => match gcmOpen k (bs.take 12) aad ((bs.drop 12).take (n + 16)) with | some pt => .inl pt | none => .inr 3
/-- The first 16 bytes of the text of a stored block, before any check: they hold the tag map of a VR body. -/
def peek (key : Option (BitVec 256)) (sealed_ : Bool) (bs : Bytes) : Bytes :=
  match sealed_, key with
  | true, some k => toBytes (ctrF (aesKeys (keyBytes k)) (toNats (bs.take 12)) 2 [toNats ((bs.drop 12).take 16)])
  | _, _ => bs.take 16

end Sys2Proof.Machine
end

