-- ==== Sys2Proof/Machine/Malt.lean ====
section
/-! DEFINITION. Malt (11): partitions (R289 to R293, R299, R305, R311), client accesses and the block buffer (R297, R298,
R303, R304), packs (R302) and the regulators (R307 to R309). -/
namespace Sys2Proof.Machine
open Sys2Proof

/-! ### Records and registers -/

/-- A register of MLT page 0 or 1 of an instance (16 R433, R434). -/
def mltReg (i off : Nat) : Nat := 0xD00000 + 0x10000 * i + off
/-- A range that the integration fixes, aligned to 4 KiB (11 R289). -/
def maltFix (i k : Nat) : Nat := (Config.maltRange i k).toNat / 4096 * 4096
/-- The settings of a partition. -/
def State.mset (s : State) (i p : Nat) : MSet := msetOf (s.pw i p 0)
/-- EN. -/
def State.pEn (s : State) (i p : Nat) : Bool := bit (s.pw i p 0) 0
/-- STATE: 0 OFF, 1 INIT, 2 READY, 3 PACKING, 4 EMPTY. -/
def State.pState (s : State) (i p : Nat) : Nat := fld (s.pw i p 16) 0 3
/-- Store a word of a partition record. -/
def State.setPw (s : State) (i p w v : Nat) : State :=
  { s with partR := s.partR.set zero32 ((8 * i + p) * 24 + w) (BitVec.ofNat 32 v) }
/-- A counter of the state area advances (11 Table 11-1). -/
def State.bumpPw (s : State) (i p w n : Nat) : State := s.setPw i p w (satAdd 32 (s.pw i p w).toNat n)
/-- Logical blocks of a partition. -/
def State.pBlocks (s : State) (i p : Nat) : Nat := s.pAddr i p 3 / (s.mset i p).lb
/-- The index area of a VR partition (11 R301). -/
def State.indexLen (s : State) (i p : Nat) : Nat := padTo 4096 (8 * (s.pAddr i p 3 / 4096))
/-- CEIL_B (11 R307). -/
def State.ceilB (s : State) (i : Nat) : Nat := s.regN (mltReg i 0x60) * s.regN (mltReg i 0x64) / 10
/-- RATE over the enabled partitions of an instance. -/
def State.partRates (s : State) (i : Nat) : Nat :=
  ((List.range 7).map (fun p => if s.pEn i (p + 1) then fld (s.pw i (p + 1) 11) 0 20 else 0)).sum
/-- RATE over channel 0 and the enabled partitions. -/
def State.rateSum (s : State) (i : Nat) : Nat := s.regN (mltReg i 0x6C) + s.partRates i
/-- The key of a sealed partition's domain. -/
def State.maltKey (s : State) (m : MSet) : Option (BitVec 256) := s.ctl.keys.get (fun _ => none) m.pdom
/-- KEY_LOAD and KEY_ERASE are refused for the domain of an enabled sealed partition (11 R305). -/
def State.maltHolds (s : State) (d : Nat) : Bool :=
  s.enabledParts.any (fun e => let m := s.mset e.1 e.2; m.sealed_ && m.pdom == d)

/-! ### The regulator, R307 to R309 -/

/-- Tokens that stand full at reset: channel 0 and the instance bucket. -/
def tok0 (k : Nat) : Int := if k % 9 = 0 || k % 9 = 8 then 65536 else 0
/-- Tokens of a channel, or at 8 of the instance bucket. -/
def State.tok (s : State) (i c : Nat) : Int := s.mlt.tok.get tok0 (9 * i + c)
/-- Store tokens. -/
def State.setTok (s : State) (i c : Nat) (v : Int) : State :=
  { s with mlt := { s.mlt with tok := s.mlt.tok.set tok0 (9 * i + c) v } }
/-- Charge bytes to a channel and the instance. -/
def State.chargeTok (s : State) (i c n : Nat) : State := (s.setTok i c (s.tok i c - n)).setTok i 8 (s.tok i 8 - n)
/-- ADMIT. -/
def State.admits (s : State) (i c : Nat) : Bool := decide (0 < s.tok i c) && decide (0 < s.tok i 8)
/-- RATE and BURST of a channel. -/
def State.chRate (s : State) (i c : Nat) : Nat × Nat :=
  if c = 0 then (s.regN (mltReg i 0x6C), s.regN (mltReg i 0x70))
  else if s.pEn i c then (fld (s.pw i c 11) 0 20, fld (s.pw i c 12) 0 24) else (0, 0)
/-- REFILL of one instance; MLT 0 event 0x11 when a request waits. -/
def State.refillOne (s : State) (i : Nat) : State :=
  let s1 := (List.range 8).foldl (fun s c =>
    let (r, b) := s.chRate i c
    s.setTok i c (min b (s.tok i c + r))) s
  let s2 := s1.setTok i 8 (min (s.regN (mltReg i 0x68) : Int) (s1.tok i 8 + s.ceilB i))
  if s.mlt.reqs.any (fun r => r.inst == i) || s.mlt.walks.any (fun x => x.inst == i) then s2.countEv (mltReg i 0) 0x11 1 else s2
/-- REFILL: every instance (11 R308). -/
def refill (s : State) : State := (List.range 16).foldl (fun s i => s.refillOne i) s
/-- REFILL (11 R308). -/
def execRefill (s : State) : Host.Outcome State Fault Refusal := done (refill s)
/-- A write of a regulator register of MLT page 0: outside its range, or over the ceiling, it sets REG_BAD (11 R309, 16
R433). -/
def maltRegWrite (i off : Nat) (v : W32) (s : State) : State :=
  let put (m : Nat) (ok : Nat → Bool) : State :=
    let n := v.toNat % 2 ^ m
    if ok n then s.setRegN (mltReg i off) n else s.err (mltReg i 0) 8
  match off with
  | 0x60 => put 12 (fun n => decide (1 ≤ n ∧ s.rateSum i ≤ n * s.regN (mltReg i 0x64) / 10))
  | 0x64 => put 10 (fun n => decide (1 ≤ n ∧ n ≤ 1000 ∧ s.rateSum i ≤ s.regN (mltReg i 0x60) * n / 10))
  | 0x68 => put 25 (fun n => decide (4096 ≤ n ∧ n ≤ 2 ^ 24))
  | 0x6C => put 20 (fun n => decide (n + s.partRates i ≤ s.ceilB i))
  | 0x70 => put 24 (fun n => decide (4096 ≤ n))
  | _ => s

/-! ### Stored blocks -/

/-- The stored bytes as the queued writes of the instance will leave them: what a decode of the stored block sees when the block
is encoded (11 R298). -/
def State.maltBytes (s : State) (i a n : Nat) : Bytes :=
  s.mlt.reqs.foldl (fun old r =>
    match r.kind with
    | .write b bs => if r.inst = i && overlaps b bs.length a n then mergeBytes b bs a old else old
    | _ => old) (s.bytes a n)
/-- The index entry of a VR block: OFF64, LEN64, RAW. -/
def State.indexEnt (s : State) (i p n : Nat) : Nat × Nat × Bool :=
  let x := s.memN (s.pAddr i p 5 + 8 * n) 8
  (nfld x 0 32, nfld x 32 7, x.testBit 39)
/-- FT table of a partition. -/
def State.ftab (s : State) (i p : Nat) : List Nat := s.mlt.tabs.get (fun _ => []) (8 * i + p)
/-- Check, open and expand a stored block: its logical bytes, or the check of R304 that fails. An admitted read finds memory as
the accesses that reached the slice before it have left it, and none of the queued writes that reached it after (`queued`
false); they have been performed, since requests of a channel are admitted in their order (11 R293, R308). -/
def State.maltOpen (s : State) (i p n : Nat) (queued : Bool) : Bytes ⊕ Nat :=
  let m := s.mset i p
  let key := s.maltKey m
  let a := s.pAddr i p 5 + n * m.pb
  if m.mode = 2 then
    let (off, len, raw) := s.indexEnt i p n
    let bs := s.bytes (s.pAddr i p 5 + 64 * off) (64 * len)
    let k := if raw then 4096 else vrBodyLen (peek key m.sealed_ bs)
    match openStored key m.sealed_ (maltAad i p n) k bs with
    | .inl pt => .inl (vrExpand m.src raw pt)
    | .inr e => .inr e
  else
    match openStored key m.sealed_ (maltAad i p n) (32 + 128 * m.w)
        (if queued then s.maltBytes i a m.pb else s.bytes a m.pb) with
    | .inl pt => .inl (m.expand (s.ftab i p) pt)
    | .inr e => .inr e
/-- A check of R304 failed: 1 poison, 2 the CRC, 3 the tag. -/
def State.maltFail (s : State) (i p k : Nat) : State :=
  if k = 3 then (s.bumpPw i p 21 1).err (mltReg i 0x1000) 12
  else (if k = 2 then s.bumpPw i p 20 1 else s).err (mltReg i 0x1000) 11
/-- Seal and frame the text of a block (11 R304): a fresh nonce from the domain's SEQ. -/
def State.maltSeal (s : State) (i p n : Nat) (pt : Bytes) : Bytes × State :=
  let m := s.mset i p
  match m.sealed_, s.maltKey m with
  | true, some key =>
    (storedBytes (some (key, s.nonce m.pdom)) (maltAad i p n) pt,
      { s with ctl := { s.ctl with
        seq := s.ctl.seq.set (fun _ => 0) m.pdom ((s.ctl.seq.get (fun _ => 0) m.pdom + 1) % 2 ^ 72) } })
  | _, _ => (storedBytes none (maltAad i p n) pt, s)

/-! ### Requests and the block buffer -/

/-- The next order number of Malt. -/
def State.maltTick (s : State) : Nat × State :=
  (s.mlt.order, { s with mlt := { s.mlt with order := s.mlt.order + 1 } })
/-- A request starts to wait. -/
def State.maltReq (s : State) (i ch n : Nat) (k : MKind) : State :=
  let (o, s1) := s.maltTick
  { s1 with mlt := { s1.mlt with reqs := s1.mlt.reqs ++ [⟨i, ch, n, k, o⟩] } }
/-- Bytes in the smoothing queue of an instance (11 R306). -/
def State.queued (s : State) (i : Nat) : Nat :=
  (s.mlt.reqs.map (fun r => match r.kind with | .write _ bs => if r.inst = i then bs.length else 0 | _ => 0)).sum
/-- Room in the smoothing queue. -/
def State.queueRoom (s : State) (i n : Nat) : Bool := decide (s.queued i + n ≤ 262144)
/-- Drop an entry of the block buffer. -/
def State.dropEnt (s : State) (e : MEnt) : State := { s with mlt := { s.mlt with ents := s.mlt.ents.filter (fun x => x != e) } }
/-- Every byte of an entry has been written. -/
def MEnt.whole (e : MEnt) : Bool := e.data.all Option.isSome
/-- The decode of the stored block behind an entry that is not whole (11 R298): its logical bytes, or canonical NaNs where a
check of R304 fails. Whether the controller indicates poison, the first of them, is free (log entry 3). -/
def State.partialBase (s : State) (e : MEnt) : Bytes × State :=
  let i := e.inst
  let p := e.part
  let m := s.mset i p
  let s0 := ((s.bumpPw i p 19 1).err (mltReg i 0x1000) 10).chargeTok i p m.pb
  let s1 := { s0 with fresh := s0.fresh + 1 }
  let r := if (Config.openValue 8 s.fresh).getLsbD 0 then .inr 1 else s1.maltOpen i p e.blk true
  match r with
  | .inl bs => (bs, s1)
  | .inr k => (m.nanBlock, s1.maltFail i p k)
/-- Encode an open entry and queue it (11 R298). -/
def State.encodeNow (s : State) (e : MEnt) : State :=
  let i := e.inst
  let p := e.part
  let m := s.mset i p
  let (base, s1) : Bytes × State := if e.whole then ([], s) else s.partialBase e
  let data := (indexed 0 e.data).map (fun x => x.2.getD (base.getD x.1 0))
  let (pt, sat, nf) := m.encode (s.ftab i p) data
  let s2 := (((s1.bumpPw i p 17 sat).bumpPw i p 18 nf).countEv (mltReg i 0x1000) 0x10 1).dropEnt e
  let (bs, s3) := s2.maltSeal i p e.blk pt
  s3.maltReq i p m.pb (.write (s.pAddr i p 5 + e.blk * m.pb) (fitBytes m.pb bs))
/-- Encode an open entry; none while the smoothing queue cannot take it (11 R306). -/
def State.encodeEnt (s : State) (e : MEnt) : Option State :=
  if s.queueRoom e.inst (s.mset e.inst e.part).pb then some (s.encodeNow e) else none
/-- Encode the whole entries of an instance, oldest first, while the queue takes them. -/
def encodeWhole (i : Nat) : List MEnt → State → State
  | [], s => s
  | e :: es, s =>
    if e.inst = i && !e.cached && e.whole then
      match s.encodeEnt e with
      | some t => encodeWhole i es t
      | none => s
    else encodeWhole i es s
/-- Make room for one more block in the buffer of an instance: an expanded block leaves first, else the entry open
longest is evicted (11 R298). None while the eviction must wait. -/
def State.makeRoom (s : State) (i : Nat) : Option State :=
  let es := s.mlt.ents.filter (fun e => e.inst == i)
  if es.length < 64 then some s
  else
    match es.find? (·.cached), es with
    | some e, _ => some (s.dropEnt e)
    | none, e :: _ => s.encodeEnt e
    | none, [] => some s
/-- The entry of a block. -/
def State.entFor (s : State) (i p n : Nat) (cached : Bool) : Option MEnt :=
  s.mlt.ents.find? (fun e => e.inst == i && e.part == p && e.blk == n && e.cached == cached)
/-- Answer a client. -/
def State.answerClient (s : State) (i a k : Nat) (bs : Bytes) : State := s.emit (.client i a k bs)
/-- The error answer, with a counter of the partition. -/
def State.clientErr (s : State) (i p a w : Nat) : State := (s.bumpPw i p w 1).answerClient i a 1 []
/-- Serve an admitted read of part of a block (11 R303, R304); a VR block stays in the buffer, expanded. -/
def State.serveRead (s : State) (i p n a len : Nat) (poison : Bool) : State :=
  let m := s.mset i p
  let off := (a - s.pAddr i p 1) % m.lb
  if s.pState i p != 2 then s.clientErr i p a 22
  else if poison then (s.maltFail i p 1).answerClient i a 2 []
  else
    match s.maltOpen i p n false with
    | .inr k => (s.maltFail i p k).answerClient i a 2 []
    | .inl bs =>
      let s1 := (s.countEv (mltReg i 0x1000) 0x11 1).answerClient i a 0 ((bs.drop off).take len)
      if m.mode != 2 then s1
      else
        match s1.makeRoom i with
        | none => s1
        | some s2 =>
          let (o, s3) := s2.maltTick
          { s3 with mlt := { s3.mlt with ents := s3.mlt.ents ++ [⟨i, p, n, bs.map some, true, o⟩] } }
/-- Perform an admitted request. -/
def State.perform (s : State) (r : MReq) : State :=
  let s1 := { s with mlt := { s.mlt with reqs := s.mlt.reqs.filter (fun x => x.order != r.order) } }
  match r.kind with
  | .write a bs => s1.busWrite a bs
  | .read p n a len poison => s1.serveRead r.inst p n a len poison
  | .tun => (s1.countEv (mltReg r.inst 0) 0x10 1).emit (.tunReady r.inst true)

/-! ### Walks: INIT and packs -/

/-- The body of the next block of a pack, and its LEN64 (11 R300 to R302). -/
def State.walkBody (s : State) (x : MWalk) : (Bytes × Bool) × Nat :=
  let m := s.mset x.inst x.part
  let body := vrBody m.src (s.bytes (s.reg64 (mltReg x.inst 0x1050) + 4096 * x.next) 4096)
  (body, m.len64 body.1.length)
/-- One block of INIT, or of a pass of a pack whose read has been admitted (11 R299, R302). INIT and pass 2 place the stored
block in the smoothing queue, which drains as the channel is admitted (R306). -/
def State.walkOne (s : State) (x : MWalk) : State :=
  let i := x.inst
  let p := x.part
  let m := s.mset i p
  let (body, len) := s.walkBody x
  let (o, s0) := s.maltTick
  let put (s : State) (y : MWalk) : State :=
    { s with mlt := { s.mlt with
      walks := s.mlt.walks.map (fun z => if z.inst = i && z.part = p then { y with order := o } else z) } }
  let y := { x with next := x.next + 1 }
  match x.pass with
  | 0 =>
    let (bs, s1) := s0.maltSeal i p x.next m.zeroBlock
    put (s1.maltReq i p m.pb (.write (s.pAddr i p 5 + x.next * m.pb) (fitBytes m.pb bs))) y
  | 1 =>
    put ((s0.chargeTok i p 4104).busWrite (s.pAddr i p 5 + 8 * x.next)
      (leBytes 8 (x.off + len * 2 ^ 32 + b2n body.2 * 2 ^ 39))) { y with off := x.off + len }
  | _ =>
    let (off, ilen, _) := s.indexEnt i p x.next
    if ilen != len then put (s0.chargeTok i p 4096) { y with changed := true }
    else
      let (bs, s1) := s0.maltSeal i p x.next body.1
      put ((s1.chargeTok i p 4096).maltReq i p (64 * len) (.write (s.pAddr i p 5 + 64 * off) bs)) y
/-- A walk still has blocks to do. -/
def State.walking (s : State) (x : MWalk) : Bool := decide (x.next < s.pBlocks x.inst x.part) && !x.changed
/-- Blocks of a partition still lie in the smoothing queue. -/
def State.draining (s : State) (i p : Nat) : Bool :=
  s.mlt.reqs.any (fun r => r.inst == i && r.ch == p && (match r.kind with | .write _ _ => true | _ => false))
/-- An engine is not stalled: the queue can take its next block (11 R306). Pass 1 places none, and a changed length of pass 2
none either. -/
def State.engineFree (s : State) (x : MWalk) : Bool :=
  match x.pass with
  | 0 => s.queueRoom x.inst (s.mset x.inst x.part).pb
  | 1 => true
  | _ =>
    let len := (s.walkBody x).2
    (s.indexEnt x.inst x.part x.next).2.1 != len || s.queueRoom x.inst (64 * len)
/-- INIT works on: one more block of each partition of the instance in INIT goes to the queue, where it can (11 R299, R306; log
entry 119). -/
def initOne (i : Nat) (s : State) : State :=
  (s.mlt.walks.filter (fun x => x.inst == i && x.pass == 0)).foldl (fun s x =>
    if s.walking x && s.engineFree x then s.walkOne x else s) s
/-- The walk of a partition. -/
def State.walkOf (s : State) (i p : Nat) : Option MWalk := s.mlt.walks.find? (fun x => x.inst == i && x.part == p)
/-- End a walk. -/
def State.endWalk (s : State) (i p : Nat) : State :=
  { s with mlt := { s.mlt with walks := s.mlt.walks.filter (fun x => !(x.inst == i && x.part == p)) } }
/-- INIT_DONE: INIT has written every block; the partition enters READY (11 R299). -/
def initDone (i p : Nat) (s : State) : State :=
  match s.walkOf i p with
  | some x => if x.pass = 0 && !s.walking x && !s.draining i p then (s.endWalk i p).setPw i p 16 2 else s
  | none => s
/-- INIT_DONE (11 R299). -/
def execInitDone (inst : BitVec 4) (part : BitVec 3) (s : State) : Host.Outcome State Fault Refusal :=
  done (initDone inst.toNat part.toNat s)
/-- MLT_PACK_STAT, and its copy at MLT_PACK_CMPL when a pack ends (11 R302, 16 R434). -/
def State.packStat (s : State) (i result units : Nat) (ends : Bool) : State :=
  let s1 := (s.setRegN (mltReg i 0x105C) (result + units % 2 ^ 24 * 256)).setRegN (mltReg i 0x1060) (units / 2 ^ 24 % 256)
  let a := s.reg64 (mltReg i 0x1064) / 8 * 8
  if ends && a != 0 && !s.inFootprint a 8 then s1.busWrite a (leBytes 8 (result + units % 2 ^ 32 * 256)) else s1
/-- A pack ends: DONE to READY, any other to EMPTY. -/
def State.packEnd (s : State) (x : MWalk) (result : Nat) : State :=
  ((s.endWalk x.inst x.part).setPw x.inst x.part 16 (if result = 0 then 2 else 4)).packStat x.inst result x.off true
/-- MLT_PACK_GO (11 R302); PACK_BUSY while a pack of the instance runs; none starts while MLT 1 quiesces. A pack that ends
BAD_ARG moves an enabled VR partition to EMPTY. -/
def packGo (i : Nat) (v : W32) (s : State) : State :=
  let p := fld v 0 3
  let src := s.reg64 (mltReg i 0x1050)
  let n := s.pAddr i p 3
  if (s.reg (mltReg i 0x1010)).getLsbD 1 then s
  else if s.mlt.walks.any (fun x => x.inst == i && x.pass != 0) then s.err (mltReg i 0x1000) 13
  else if p = 0 || !s.pEn i p || (s.mset i p).mode != 2 || src % 4096 != 0 || src < maltFix i 2
      || maltFix i 2 + maltFix i 3 < src + n || s.inFootprint src n then
    (if p != 0 && s.pEn i p && (s.mset i p).mode == 2 then s.setPw i p 16 4 else s).packStat i 4 0 true
  else
    let (o, s1) := s.maltTick
    let off := s.indexLen i p / 64
    let s2 := { s1 with mlt := { s1.mlt with
      walks := s1.mlt.walks ++ [(⟨i, p, 1, 0, off, false, o⟩ : MWalk)]
      ents := s1.mlt.ents.filter (fun e => !(e.inst == i && e.part == p))
      lines := s1.mlt.lines.filter (fun l : Nat × Nat × Nat => !(l.1 == i && l.2.1 == p)) } }
    (s2.setPw i p 16 3).packStat i 1 0 false
/-- PACK_PASS1_END: the index is complete; the pack ends FULL, or pass 2 starts (11 R302). -/
def packPass1End (i : Nat) (s : State) : State :=
  match s.mlt.walks.find? (fun x => x.inst == i && x.pass == 1) with
  | none => s
  | some x =>
    if s.walking x then s
    else if s.pAddr i x.part 7 < 64 * x.off then s.packEnd x 2
    else { s with mlt := { s.mlt with
      walks := s.mlt.walks.map (fun z => if z == x then { x with pass := 2, next := 0 } else z) } }
/-- PACK_PASS1_END (11 R302). -/
def execPackPass1End (inst : BitVec 4) (s : State) : Host.Outcome State Fault Refusal := done (packPass1End inst.toNat s)
/-- PACK_END: pass 2 is complete, DONE, or met a length that had changed, CHANGED (11 R302). -/
def packEndCmd (i : Nat) (s : State) : State :=
  match s.mlt.walks.find? (fun x => x.inst == i && x.pass == 2) with
  | none => s
  | some x => if s.walking x || s.draining i x.part then s else s.packEnd x (if x.changed then 3 else 0)
/-- PACK_END (11 R302). -/
def execPackEnd (inst : BitVec 4) (s : State) : Host.Outcome State Fault Refusal := done (packEndCmd inst.toNat s)

/-! ### CHANNEL_ADMIT -/

/-- What waits for admission at an instance. -/
inductive Wait where
  | req (r : MReq)
  | walk (x : MWalk)
  deriving DecidableEq, Repr
/-- Its channel. -/
def Wait.ch : Wait → Nat
  | .req r => r.ch
  | .walk x => x.part
/-- Its order. -/
def Wait.order : Wait → Nat
  | .req r => r.order
  | .walk x => x.order
/-- Requests that wait at an instance, the one waiting longest first. -/
def State.waits (s : State) (i : Nat) : List Wait :=
  sortBy (fun a b => decide (a.order < b.order) || (a.order == b.order && decide (a.ch < b.ch)))
    (((s.mlt.reqs.filter (fun r => r.inst == i)).map Wait.req)
      ++ ((s.mlt.walks.filter (fun x => x.inst == i && x.pass != 0 && s.walking x && s.engineFree x)).map Wait.walk))
/-- The controller presents a channel 0 request of `n` bytes, which waits in its turn and holds the Tun port's ready signal (11
R307, R308). -/
def State.present (s : State) (i : Nat) (tun : Option Nat) : State :=
  match tun with
  | some n => (s.maltReq i 0 n .tun).emit (.tunReady i false)
  | none => s
/-- Admit the request of an instance that waits longest and for which ADMIT holds (11 R308). -/
def State.admitOne (s : State) (i : Nat) : State :=
  match (s.waits i).find? (fun w => s.admits i w.ch) with
  | some (.req r) => (s.chargeTok i r.ch r.bytes).perform r
  | some (.walk x) => s.walkOne x
  | none => s

/-! ### Client accesses -/

/-- The partition whose logical range holds an address: an enabled one, else a disabled one. -/
def State.partAt (s : State) (i a : Nat) : Option Nat :=
  let holds (p : Nat) : Bool := s.pAddr i p 1 ≤ a && a < s.pAddr i p 1 + s.pAddr i p 3
  let ps := (List.range 7).map (· + 1)
  match ps.find? (fun p => s.pEn i p && holds p) with
  | some p => some p
  | none => ps.find? holds
/-- The pieces of an access by logical block: block, address, length. -/
def State.pieces (s : State) (i p a len : Nat) : List (Nat × Nat × Nat) :=
  let lb := (s.mset i p).lb
  let base := s.pAddr i p 1
  let n0 := (a - base) / lb
  let n1 := (a + len - 1 - base) / lb
  (List.range (n1 + 1 - n0)).map (fun k =>
    let lo := max a (base + (n0 + k) * lb)
    (n0 + k, lo, min (a + len) (base + (n0 + k + 1) * lb) - lo))
/-- The slice takes client accesses: its crossing is OPEN and MLT 0 does not quiesce (11 R311, R313). -/
def State.sliceOpen (s : State) (i : Nat) : Bool := !(s.reg (mltReg i 0x10)).getLsbD 1 && s.xing 4 i == .opened
/-- A read of this block waits for the smoothing queue. -/
def State.heldFor (s : State) (i p n : Nat) : Bool := s.mlt.held.any (fun h => h.inst == i && h.part == p && h.blk == n)
/-- A read of one block: an open entry is encoded first, as soon as the smoothing queue can take it; an expanded VR block
answers at once, any other read waits for its admission (11 R298, R303, R306). -/
def State.readPiece (s : State) (i p : Nat) (poison : Bool) (x : Nat × Nat × Nat) : State :=
  let (n, a, len) := x
  let m := s.mset i p
  if m.mode = 2 then
    match s.entFor i p n true with
    | some e => s.answerClient i a 0 (((e.data.map (·.getD 0)).drop ((a - s.pAddr i p 1) % 4096)).take len)
    | none =>
      let line := (i, p, n / 8)
      let hit := s.mlt.lines.contains line
      let (own, rest) := s.mlt.lines.partition (fun l : Nat × Nat × Nat => l.1 == i)
      let s1 := if hit then s
        else ({ s with mlt := { s.mlt with
          lines := rest ++ (own ++ [line]).drop (if own.length < 1024 then 0 else 1) } }).countEv (mltReg i 0x1000) 0x12 1
      s1.maltReq i p ((if hit then 0 else 64) + 64 * (s.indexEnt i p n).2.1) (.read p n a len poison)
  else
    let hold : State := { s with mlt := { s.mlt with held := s.mlt.held ++ [⟨i, p, n, a, len, poison⟩] } }
    if s.heldFor i p n then hold
    else
      match s.entFor i p n false with
      | none => s.maltReq i p m.pb (.read p n a len poison)
      | some e =>
        match s.encodeEnt e with
        | some t => t.maltReq i p m.pb (.read p n a len poison)
        | none => hold
/-- The reads of an instance that wait for the smoothing queue are tried again, in order (11 R298, R306). -/
def State.retryHeld (s : State) (i : Nat) : State :=
  let hs := s.mlt.held.filter (fun h => h.inst == i)
  hs.foldl (fun s h => s.readPiece i h.part h.poison (h.blk, h.addr, h.len))
    { s with mlt := { s.mlt with held := s.mlt.held.filter (fun h => h.inst != i) } }
/-- CHANNEL_ADMIT: INIT engines go on, the request waiting longest for which ADMIT holds is admitted, and what waited for room
in the smoothing queue follows; `tun` is a channel 0 request that the controller presents (11 R306, R308). -/
def channelAdmit (i : Nat) (tun : Option Nat) (s : State) : State :=
  let s1 := ((initOne i s).present i tun).admitOne i
  (encodeWhole i s1.mlt.ents s1).retryHeld i
/-- CHANNEL_ADMIT (11 R308). -/
def execChannelAdmit (inst : BitVec 4) (tun : Option Nat) (s : State) : Host.Outcome State Fault Refusal :=
  done (channelAdmit inst.toNat tun s)
/-- CLIENT_READ: a read of a logical range (11 R293, R297, R303, R304). -/
def clientRead (i a len : Nat) (poison : Bool) (s : State) : State :=
  match s.partAt i a with
  | none => s.answerClient i a 1 []
  | some p =>
    if len = 0 || s.pState i p != 2 || !s.sliceOpen i || s.pAddr i p 1 + s.pAddr i p 3 < a + len then s.clientErr i p a 22
    else (s.pieces i p a len).foldl (fun s x => s.readPiece i p poison x) s
/-- CLIENT_READ (11 R297). -/
def execClientRead (inst : BitVec 4) (addr : BitVec 48) (len : BitVec 13) (poison : Bool) (s : State) :
    Host.Outcome State Fault Refusal := done (clientRead inst.toNat addr.toNat len.toNat poison s)
/-- A write of part of one block into its entry; a whole entry is encoded (11 R298). None while no entry can be
opened, or while a read of the block that reached the slice before it waits (11 R293). -/
def State.writePiece (s : State) (i p : Nat) (bs : Bytes) (a0 : Nat) (x : Nat × Nat × Nat) : Option State :=
  let (n, a, len) := x
  let m := s.mset i p
  let off := (a - s.pAddr i p 1) % m.lb
  let part := (bs.drop (a - a0)).take len
  let put (s : State) (e : MEnt) : State :=
    let d := (indexed 0 e.data).map (fun z => if off ≤ z.1 && z.1 < off + len then some (part.getD (z.1 - off) 0) else z.2)
    let e1 := { e with data := d }
    let s1 := { s with mlt := { s.mlt with ents := s.mlt.ents.map (fun y => if y == e then e1 else y) } }
    if e1.whole then (s1.encodeEnt e1).getD s1 else s1
  if s.heldFor i p n then none
  else
    match s.entFor i p n false with
    | some e => some (put s e)
    | none =>
      match s.makeRoom i with
      | none => none
      | some s1 =>
        let (o, s2) := s1.maltTick
        let e : MEnt := ⟨i, p, n, List.replicate m.lb none, false, o⟩
        some (put { s2 with mlt := { s2.mlt with ents := s2.mlt.ents ++ [e] } } e)
/-- Write the pieces of an access in order; none while one of them must wait. -/
def writePieces (i p : Nat) (bs : Bytes) (a0 : Nat) : List (Nat × Nat × Nat) → State → Option State
  | [], s => some s
  | x :: xs, s => match s.writePiece i p bs a0 x with | some t => writePieces i p bs a0 xs t | none => none
/-- CLIENT_WRITE: a write of a logical range (11 R293, R298); a VR write is refused; one that cannot open its entry waits
and changes nothing. -/
def clientWrite (i a : Nat) (bs : Bytes) (s : State) : State :=
  match s.partAt i a with
  | none => s.answerClient i a 1 []
  | some p =>
    if (s.mset i p).mode = 2 then s.clientErr i p a 23
    else if bs = [] || s.pState i p != 2 || !s.sliceOpen i || s.pAddr i p 1 + s.pAddr i p 3 < a + bs.length then
      s.clientErr i p a 22
    else
      match writePieces i p bs a (s.pieces i p a bs.length) s with
      | some t => t.answerClient i a 0 []
      | none => s
/-- CLIENT_WRITE (11 R298). -/
def execClientWrite (inst : BitVec 4) (addr : BitVec 48) (data : Bytes) (s : State) : Host.Outcome State Fault Refusal :=
  done (clientWrite inst.toNat addr.toNat data s)

/-! ### Enabling and disabling, R291, R311 -/

/-- Words that a partition record holds (11 Table 11-1): their listed bits. -/
def partMask (w : Nat) : Nat :=
  if w = 0 then 0x0FFF077F
  else if w ≤ 10 then (if w % 2 = 1 then 0xFFFFFFFF else 0xFFFF)
  else if w = 11 then 0xFFFFF else if w = 12 then 0xFFFFFF else 0
/-- The footprint of a partition meets a byte range. -/
def State.footMeets (s : State) (i p a n : Nat) : Bool :=
  overlaps (s.pAddr i p 1) (s.pAddr i p 3) a n || overlaps (s.pAddr i p 5) (s.pAddr i p 7) a n
/-- The conditions of R291 on a record whose word 0 is `w`. -/
def State.partOk (s : State) (i p : Nat) (w : W32) : Bool :=
  let m := msetOf w
  let lb := m.lb
  let lbase := s.pAddr i p 1
  let lsize := s.pAddr i p 3
  let pbase := s.pAddr i p 5
  let psize := s.pAddr i p 7
  let within (a n k : Nat) : Bool := maltFix i k ≤ a && a + n ≤ maltFix i k + maltFix i (k + 1)
  let tn := 4 * 2 ^ m.w
  let tab := s.vals (s.pAddr i p 9) 4 (2 ^ m.w)
  m.mode ≤ 2 && m.wcode ≤ 2 && (m.src != 3 || m.mode == 2) && (!m.zp || (m.mode == 0 && m.act))
    && within lbase lsize 0 && lbase % lb == 0 && lsize % lb == 0
    && within pbase psize 2 && pbase % 4096 == 0 && psize % 4096 == 0
    && (m.mode != 1 || (within (s.pAddr i p 9) tn 2 && s.pAddr i p 9 % 64 == 0 && tab.all (isFin f32)
        && (List.zip tab (tab.drop 1)).all (fun x => flt f32 x.1 x.2)))
    && (if m.mode = 2 then decide (padTo 4096 (8 * (lsize / 4096)) < psize) else decide (lsize / lb * m.pb ≤ psize))
    && (s.enabledParts.all (fun e => e == (i, p)
        || (!s.footMeets i p (s.pAddr e.1 e.2 1) (s.pAddr e.1 e.2 3)
            && !s.footMeets i p (s.pAddr e.1 e.2 5) (s.pAddr e.1 e.2 7))))
    && (s.live.all (fun c => !s.footMeets i p (s.cRingBase c) (64 * s.cRing c)
        && !s.footMeets i p (s.cCmplBase c) (32 * s.cRing c)))
    && ((List.range 4096).all (fun d => !s.footMeets i p (s.dAddr d 0) (s.dAddr d 2)))
    && (!m.sealed_ || ((s.maltKey m).isSome && s.ctl.incSince.get (fun _ => false) m.pdom))
    && 0 < fld (s.pw i p 11) 0 20 && s.rateSum i + fld (s.pw i p 11) 0 20 ≤ s.ceilB i
/-- Enable a partition: INIT for FR and FT, EMPTY for VR; its counters start from zero and its tokens full. -/
def State.partEnable (s : State) (i p : Nat) (w : W32) : State :=
  let m := msetOf w
  if !s.partOk i p w then (s.setPw i p 0 (w.toNat / 2 * 2)).err (mltReg i 0x1000) 8
  else
    let s1 := (List.range 7).foldl (fun s k => s.setPw i p (17 + k) 0) (s.setPw i p 0 w.toNat)
    let s2 := s1.setTok i p (fld (s.pw i p 12) 0 24)
    let s3 := { s2 with mlt := { s2.mlt with
      tabs := s2.mlt.tabs.set (fun _ => []) (8 * i + p) (if m.mode = 1 then s.vals (s.pAddr i p 9) 4 (2 ^ m.w) else []) } }
    if m.mode = 2 then s3.setPw i p 16 4
    else
      let (o, s4) := s3.maltTick
      ({ s4 with mlt := { s4.mlt with walks := s4.mlt.walks ++ [(⟨i, p, 0, 0, 0, false, o⟩ : MWalk)] } }).setPw i p 16 1
/-- Perform every waiting request of a partition, in order. -/
def State.flushReqs (s : State) (i p : Nat) : State :=
  (s.mlt.reqs.filter (fun r => r.inst == i && r.ch == p)).foldl (fun s r => (s.chargeTok i p r.bytes).perform r) s
/-- Disable a partition: accepted accesses complete, open entries are encoded and written, each as the queue drains, a pack
ends BAD_ARG, and it enters OFF (11 R311). -/
def State.partDisable (s : State) (i p : Nat) (w : W32) : State :=
  let hs := s.mlt.held.filter (fun h => h.inst == i && h.part == p)
  let s0 := { s with mlt := { s.mlt with held := s.mlt.held.filter (fun h => !(h.inst == i && h.part == p)) } }
  let encode (s : State) (es : List MEnt) : State := es.foldl (fun s e => (s.encodeNow e).flushReqs i p) s
  let s1 := hs.foldl (fun s h =>
    ((encode s (s.entFor i p h.blk false).toList).readPiece i p h.poison (h.blk, h.addr, h.len)).flushReqs i p)
    (s0.flushReqs i p)
  let s2 := encode s1 (s1.mlt.ents.filter (fun e => e.inst == i && e.part == p && !e.cached))
  let s3 := match s2.walkOf i p with
    | some x => if x.pass = 0 then s2.endWalk i p else (s2.endWalk i p).packStat i 4 0 true
    | none => s2
  let s4 := { s3 with mlt := { s3.mlt with
    ents := s3.mlt.ents.filter (fun e => !(e.inst == i && e.part == p)),
    lines := s3.mlt.lines.filter (fun l : Nat × Nat × Nat => !(l.1 == i && l.2.1 == p)),
    tabs := s3.mlt.tabs.set (fun _ => []) (8 * i + p) [] } }
  (s4.setPw i p 16 0).setPw i p 0 w.toNat
/-- A window write of word `w` of partition `p`: live words while EN = 1, else PART_BUSY; enabling and disabling through
word 0 (11 R291, R309, R311). -/
def partWrite (i p w : Nat) (v0 : W32) (s : State) : State :=
  let v := v0 &&& BitVec.ofNat 32 (partMask w)
  if p = 0 || 13 ≤ w then s
  else if s.pEn i p then
    if w = 11 then
      if s.rateSum i - fld (s.pw i p 11) 0 20 + v.toNat ≤ s.ceilB i then s.setPw i p 11 v.toNat else s.err (mltReg i 0) 8
    else if w = 12 then
      if 4096 ≤ v.toNat then s.setPw i p 12 v.toNat else s.err (mltReg i 0) 8
    else if w = 0 && !bit v 0 then s.partDisable i p v
    else s.err (mltReg i 0x1000) 9
  else if w = 0 && bit v 0 then s.partEnable i p v
  else s.setPw i p w v.toNat

end Sys2Proof.Machine
end

