-- ==== Sys2Proof/Machine/Control.lean ====
section
/-! DEFINITION. Alignment of the crossings (02 R53 to R56), the control commands (R43 to R46, 13 R388) and the resets of the
whole block (02 R50, R51, R442). -/
namespace Sys2Proof.Machine
open Sys2Proof

/-! ### Crossings -/

/-- Store the status of a crossing. -/
def State.setXing (s : State) (k : Nat) (x : Xing) : State :=
  { s with ctl := { s.ctl with xing := s.ctl.xing.set xing0 k x } }
/-- The KREF crossing has reached a final status since the reset: its port carries traffic from then on, through any later
PORT_ALIGN (01 R22, 02 R46). -/
def State.krefSettled (s : State) (cls : Nat) : State :=
  if cls = 0 then { s with ctl := { s.ctl with krefDone := true } } else s
/-- CTL_PORT_EXPECT names the port (15 Table 15-6). -/
def State.expects (s : State) (cls idx : Nat) : Bool :=
  match cls with
  | 0 => bit (s.reg 0x00205C) 16
  | 1 => bit (s.reg (0x002050 + 4 * (idx / 32))) (idx % 32)
  | 2 => bit (s.reg 0x002058) idx
  | 3 => bit (s.reg 0x002058) (16 + idx)
  | 4 => bit (s.reg 0x00205C) idx
  | 5 => bit (s.reg 0x00205C) 17
  | _ => false
/-- A crossing reaches a final status: PORT_MISSING for an expected port that is not OPEN (02 R56); an open port asserts its
ready signal (R53). -/
def State.settle (s : State) (cls idx : Nat) (x : Xing) : State :=
  let s1 := if x != .opened && s.expects cls idx then s.err 0x002000 8 else s
  let s2 := (s1.setXing (xKey cls idx) x).krefSettled cls
  if x != .opened then s2
  else
    let s3 := s2.emit (.portReady cls idx)
    if cls = 3 then s3.portGood idx else s3
/-- Some built port named by a written word of CTL_PORT_EXPECT holds a final status other than OPEN (02 R56). -/
def State.someMissing (s : State) : Bool :=
  xAll.any (fun k =>
    let x := s.ctl.xing.get xing0 k
    x.final && x != .opened && s.expects (k / 64) (k % 64))

/-! ### Control commands -/

/-- The doorbell: CTL_CMD_STAT.RUNNING, CTL_BUSY_CAUSE.DOORBELL, CTL 1 event 0x10 (02 R43, 15 R407). -/
def State.cmdStart (s : State) (op : Nat) : State :=
  let s1 := { s with ctl := { s.ctl with cmd := some op } }
  krdyEdge s.krdy ((s1.setReg 0x001054 (s.reg 0x001054 ||| 0x10000)).countEv 0x001000 0x10 1)
/-- The running command ends: CTL_CMD_STAT, CMD_ERR for a result other than DONE, the key staging of a key command
cleared, DOORBELL cleared (02 R43, R44, 15 Table 15-3). -/
def State.cmdEnd (s : State) (result : Nat) : State :=
  match s.ctl.cmd with
  | none => s
  | some op =>
    let s1 := s.setRegN 0x001054 (result + op * 2 ^ 8)
    let s2 := if result = 0 then s1 else s1.err 0x001000 8
    let s3 := if result = 1 then s2.countEv 0x001000 0x11 1 else s2
    krdyEdge s3.krdy { s3 with ctl := { s3.ctl with
      cmd := none, stage := if op = 1 || op = 2 then [] else s3.ctl.stage } }
/-- PORT_ALIGN runs on this port. -/
def State.aligning (s : State) (cls idx : Nat) : Bool :=
  s.ctl.cmd == some 3 && s.regF 0x001044 0 3 == cls && s.regF 0x001044 4 6 == idx
/-- PORT_ALIGN ends with the status of its port; CTL 2 event 0x10 when that is not OPEN (15 R408). -/
def State.alignDone (s : State) (cls idx : Nat) : State :=
  (if s.xing cls idx == .opened then s else s.countEv 0x002000 0x10 1).cmdEnd 0

/-- PG_STAT.QUIESCED of a page. -/
def State.quiesced (s : State) (pg : Nat) : Bool := bit (s.reg (pg + 0x14)) 1
/-- PORT_ALIGN needs every page of the subsystem that owns the crossing QUIESCED (02 R46). -/
def State.alignFree (s : State) (cls : Nat) : Bool :=
  match cls with
  | 1 => s.quiesced 0x900000
  | 2 => s.quiesced 0xA00000
  | 4 => (List.range 16).all (fun i => s.quiesced (mltReg i 0) && s.quiesced (mltReg i 0x1000))
  | _ => true
/-- The start of PORT_ALIGN (02 R43, R46). While KREF has a final status other than OPEN, the realignment of another
crossing ends at once as ABSENT, as R55 says of an absent KREF; for a KREF that an abort left FAILED the manual says nothing
(log entry 89). -/
def State.alignCmd (s : State) (cls idx : Nat) : State :=
  if 5 < cls || portsOf cls ≤ idx then s.cmdEnd 3
  else if !s.alignFree cls then s.cmdEnd 5
  else if cls = 0 then s.setXing 0 .presence
  else if cls = 5 then (s.settle 5 0 (s.xing 0 0)).alignDone 5 0
  else
    let s1 := s.setXing (xKey cls idx) .frequency
    let s2 := if cls = 3 then s1.portBad idx else s1
    if s.xing 0 0 == .opened then s2 else (s2.settle cls idx .absent).alignDone cls idx
/-- A key slot is in use: a context of the domain is READY or RUNNING, or an enabled partition seals with it (02 R44, 11
R305). -/
def State.slotInUse (s : State) (d : Nat) : Bool :=
  s.live.any (fun c => s.cRunnable c && s.cPdom c == d) || s.maltHolds d
/-- Deep park may be entered (13 R388). -/
def State.mayPark (s : State) : Bool :=
  s.live == [] && !s.hbEn && s.enabledParts == [] && (!s.syncEn || s.tState != tRoot)
/-- Store DMP_STATE's power part. -/
def State.setPower (s : State) (v : Nat) : State := { s with dmp := { s.dmp with power := v } }
/-- The crossings that deep park closes: all but KREF (13 R388). -/
def parkXings : List Nat := xAll.filter (fun k => 64 ≤ k)
/-- A crossing that deep park closed aligns again: without an OPEN KREF it ends at once as ABSENT, the identity crossing
with the status of KREF (02 R46, R55, R56, 13 R388). -/
def State.reopen (s : State) (k : Nat) : State :=
  if k / 64 = 5 then s.settle 5 0 (s.xing 0 0)
  else if s.xing 0 0 == .opened then s.setXing k .frequency
  else s.settle (k / 64) (k % 64) .absent
/-- Every SRAM content is gone, the registers with history among it (02 R32, 13 R388); the other registers, the wear record,
which only a warm or cold reset clears (16 R439), and the sealed key slots stay. -/
def State.sramGone (s : State) : State :=
  { s with
    ctxR := [], ptR := [], polR := [], bslR := [], pckR := [], mshR := [], updR := [], domR := [], tqR := [], partR := []
    grdR := []
    ctl := { s.ctl with held := [] }
    hop := State.reset.hop, tmp := State.reset.tmp
    dmp := { s.dmp with hist := [] }
    pck := State.reset.pck, msh := State.reset.msh, upd := State.reset.upd
    qcn := { s.qcn with msgs := [], shots := [], rx := [], flows := [], credits := [], adv := [] }
    tng := State.reset.tng, mlt := State.reset.mlt, grd := State.reset.grd, iden := State.reset.iden
    time := { s.time with ph := [], pt := [], ptHeld := [] } }
/-- Entering deep park: every SRAM content and every key is gone (13 R388). -/
def State.sramClear (s : State) : State :=
  let s1 := s.sramGone
  { s1 with ctl := { s1.ctl with keys := [], seq := [], incSince := [] } }
/-- Leaving deep park: SRAM initialisation, and every closed crossing aligns again (13 R388). -/
def State.leavePark (s : State) : State :=
  let s1 := s.sramGone.setPower 4
  krdyEdge s.krdy (parkXings.foldl State.reopen { s1 with ctl := { s1.ctl with sramInit := true } })
/-- The start of POWER_STATE (02 R43, 13 R388): 0 ready idle, 1 deep park. -/
def State.powerCmd (s : State) (k : Nat) : State :=
  if 1 < k then s.cmdEnd 3
  else if k = 0 then (if s.dmp.power = 0 then s.cmdEnd 0 else s.leavePark)
  else if s.dmp.power = 2 then s.cmdEnd 0
  else if !s.mayPark then s.cmdEnd 5
  else s.setPower 3
/-- A write of CTL_CMD (02 R43): the command starts, or ends at once where it can do nothing; new commands end BAD_STATE
while CTL 1 quiesces (15 Table 15-1). -/
def ctlCmd (v : W32) (s : State) : State :=
  let op := fld v 0 8
  let a := s.reg 0x001044
  let s1 := s.cmdStart op
  if bit (s.reg 0x001010) 1 then s1.cmdEnd 5
  else if op = 1 || op = 2 then (if s.slotInUse (fld a 0 12) then s1.cmdEnd 4 else s1)
  else if op = 3 then s1.alignCmd (fld a 0 3) (fld a 4 6)
  else if op = 4 then s1
  else if op = 5 then s1.powerCmd (fld a 0 2)
  else s1.cmdEnd 2
/-- The 256 bits of CTL_KEY_STAGE0-7, word 0 holding bits [31:0] (02 R44). -/
def State.stagedKey (s : State) : BitVec 256 :=
  BitVec.ofNat 256 (ofLe (((List.range 8).map (fun i => leBytes 4 (s.ctl.stage.get zero32 i).toNat)).flatten))
/-- KEY_LOAD or KEY_ERASE ends SLOT_IN_USE where a context of the domain has become READY meanwhile, else DONE: the slot holds
the key or is empty; SEQ starts from zero and no incarnation counts as assigned since (02 R44, 04 R115, R116). -/
def keyEnds (op : Nat) (s : State) : State :=
  let d := s.regF 0x001044 0 12
  if s.ctl.cmd != some op then s
  else if s.slotInUse d then s.cmdEnd 4
  else
    let k := if op = 1 then some s.stagedKey else none
    ({ s with ctl := { s.ctl with
      keys := s.ctl.keys.set (fun _ => none) d k, seq := s.ctl.seq.set (fun _ => 0) d 0,
      incSince := s.ctl.incSince.set (fun _ => false) d false } }).cmdEnd 0
/-- IDENT_SCAN ends: the scan starts in IDEN (02 Table 2-6, 13 R374). -/
def scanEnds (s : State) : State :=
  if s.ctl.cmd != some 4 then s else (s.scanReq (bit (s.reg 0x001044) 0) false).cmdEnd 0
/-- A write of CTL_ABORT (02 R45). -/
def abortCmd (v : W32) (s : State) : State :=
  let c := s.regF 0x001044 0 3
  let i := s.regF 0x001044 4 6
  if !bit v 0 then s
  else if s.ctl.cmd == some 1 || s.ctl.cmd == some 2 then s.cmdEnd 1
  else if s.ctl.cmd == some 3 then
    let s1 := s.settle c i .failed
    ((if c = 0 then s1.settle 5 0 .failed else s1).countEv 0x002000 0x10 1).cmdEnd 1
  else s

/-! ### Deep park -/

/-- Deep park is entered: keys and SRAM are erased, every crossing but KREF and KCP closes, time sync stops (13 R388). -/
def State.enterPark (s : State) : State :=
  let s1 := (List.range 16).foldl (fun s p => s.portBad p) s
  let s2 := parkXings.foldl (fun s k => s.settle (k / 64) (k % 64) .absent) s1.sramClear
  (s2.timeParks).setPower 2
/-- POWER_STATE_DONE: entry to or exit from deep park completes (13 R388). -/
def powerDone (s : State) : State :=
  if s.ctl.cmd != some 5 then s
  else if s.dmp.power = 3 then s.enterPark.cmdEnd 0
  else if s.dmp.power = 4 && !s.ctl.sramInit && xAll.all (fun k => (s.ctl.xing.get xing0 k).final) then
    ((s.setPower 0).timeWakes).cmdEnd 0
  else s

/-! ### Alignment phases -/

/-- The port is built (02 Table 2-8). -/
def built (cls idx : Nat) : Bool := cls < 6 && idx < portsOf cls
/-- The accepted counts of Table 2-8. -/
def accepted (cls : Nat) : Nat × Nat :=
  match cls with
  | 1 => (40919, 41001) | 2 => (81838, 82002) | 3 => (63936, 64064) | 4 => (20480, 81920) | _ => (1, 0)
/-- What the count of a port's clock edges gives (02 R53). -/
def freqOf (cls count : Nat) : Xing :=
  if count = 0 then .absent
  else if (accepted cls).1 ≤ count && count ≤ (accepted cls).2 then .fill else .badFreq
/-- The tokens that FILL returns (02 R53). -/
def fillTokens : List W32 := (List.range 8).map (fun i => BitVec.ofNat 32 (0x5A5A0000 + i))
/-- A phase of a crossing ends with another phase or with a final status. -/
def State.phaseEnds (s : State) (cls idx : Nat) (ph x : Xing) : State :=
  if s.ctl.rstLow || s.xing cls idx != ph then s
  else if !x.final then s.setXing (xKey cls idx) x
  else if s.aligning cls idx then (s.settle cls idx x).alignDone cls idx
  else krdyEdge s.krdy (s.settle cls idx x)
/-- ALIGN_PRESENCE: a KREF edge, or none in 65,536 hc; the identity crossing takes the status of KREF; after a reset the
other crossings go on to FREQUENCY, or end ABSENT (02 R46, R53, R55). -/
def alignPresence (edge : Bool) (s : State) : State :=
  if s.ctl.rstLow || s.xing 0 0 != .presence then s
  else
    let x : Xing := if edge then .opened else .absent
    let s1 := (s.settle 0 0 x).settle 5 0 x
    if s.aligning 0 0 then s1.alignDone 0 0
    else
      let rest := xAll.filter (fun k => 64 ≤ k && k < 320 && s1.ctl.xing.get xing0 k == .presence)
      krdyEdge s.krdy (if edge then rest.foldl (fun s k => s.setXing k .frequency) s1
        else rest.foldl (fun s k => s.settle (k / 64) (k % 64) .absent) s1)
/-- ALIGN_PRESENCE (02 R53). -/
def execAlignPresence (edge : Bool) (s : State) : Host.Outcome State Fault Refusal := done (alignPresence edge s)
/-- An alignment event of a port that is built. -/
def ofPort (cls idx : Nat) (s : State) : Host.Outcome State Fault Refusal :=
  if built cls idx then .next s else .fault .noSuchCrossing
/-- ALIGN_FREQUENCY (02 R53): the counting window of a crossing expires. -/
def execAlignFrequency (cls : BitVec 3) (idx : BitVec 6) (count : Nat) (s : State) : Host.Outcome State Fault Refusal :=
  ofPort cls.toNat idx.toNat (s.phaseEnds cls.toNat idx.toNat .frequency (freqOf cls.toNat count))
/-- ALIGN_FILL (02 R53): the eight tokens return. -/
def execAlignFill (cls : BitVec 3) (idx : BitVec 6) (tokens : List W32) (s : State) : Host.Outcome State Fault Refusal :=
  ofPort cls.toNat idx.toNat (s.phaseEnds cls.toNat idx.toNat .fill (if tokens = fillTokens then .lock else .failed))
/-- ALIGN_LOCK (02 R53): the 256 round trips are complete. -/
def execAlignLock (cls : BitVec 3) (idx : BitVec 6) (ok : Bool) (s : State) : Host.Outcome State Fault Refusal :=
  ofPort cls.toNat idx.toNat (s.phaseEnds cls.toNat idx.toNat .lock (if ok then .opened else .failed))
/-- POWER_STATE_DONE (13 R388). -/
def execPowerStateDone (s : State) : Host.Outcome State Fault Refusal := done (powerDone s)

/-! ### Resets of the block -/

/-- TIME_EPOCH. -/
def State.epoch (s : State) : Nat := s.regN 0x100048
/-- The state after a reset of the block, KX2_RST_N low: KTIME and TIME_EPOCH as given, package memory kept (02 Table
2-7); a high KTICK falls, since no port carries traffic until its crossing has aligned (01 R22). -/
def State.blockReset (s : State) (epoch : Nat) (t : TimeSt) : State :=
  let s1 := { State.reset with
    pending := s.pending, out := s.out, fresh := s.fresh, mem := s.mem, time := { t with tickHigh := 0 }
    regs := State.reset.regs.set regReset 0x100048 (BitVec.ofNat 32 epoch) }
  let s2 := if 0 < s.time.tickHigh then s1.emit (.ktick false) else s1
  if s.krdy then s2.emit (.krdy false) else s2
/-- COLD_RESET: KTIME restarts at zero, TIME_EPOCH + 1 (02 R50). -/
def coldReset (s : State) : State := s.blockReset (s.epoch + 1) State.reset.time
/-- COLD_RESET (02 R50). -/
def execColdReset (s : State) : Host.Outcome State Fault Refusal := done (coldReset s)
/-- A reset pulse takes effect: at its minimum length, or when the shorter one happens to (02 R442). -/
def State.pulse (s : State) (least cycles : Nat) : Bool × State :=
  if least ≤ cycles then (true, s) else (Config.shortPulseResets s.fresh, { s with fresh := s.fresh + 1 })
/-- KRDY while KX2_RST_N is low in a pulse that does not reset (02 R37, R442). -/
def State.krdyDip (s : State) : State :=
  if s.krdy then ((s.emit (.krdy false)).countEv 0x000000 0x10 1).emit (.krdy true) else s
/-- WARM_RESET: KX2_RST_N low for so many KREF cycles; KTIME keeps counting (02 R50, R442). -/
def warmReset (cycles : Nat) (s : State) : State :=
  if s.ctl.rstLow then s
  else
    let (yes, s1) := s.pulse 100 cycles
    if yes then
      s1.blockReset s.epoch { State.reset.time with
        ktime := s.time.ktime, frac := s.time.frac, tick := s.time.tick, tickHigh := s.time.tickHigh }
    else s1.krdyDip
/-- WARM_RESET (02 R50). -/
def execWarmReset (cycles : Nat) (s : State) : Host.Outcome State Fault Refusal := done (warmReset cycles s)
/-- RESET_RELEASE: KX2_RST_N goes high; SRAM initialisation and alignment start (02 R51, R53, R55). -/
def resetRelease (s : State) : State :=
  if s.ctl.rstLow then { s with ctl := { s.ctl with rstLow := false, sramInit := true } } else s
/-- RESET_RELEASE (02 R55). -/
def execResetRelease (s : State) : Host.Outcome State Fault Refusal := done (resetRelease s)
/-- SRAM_INIT_DONE: CTL_BUSY_CAUSE.RESET clears (02 R51). -/
def sramInitDone (s : State) : State :=
  if s.ctl.rstLow then s else krdyEdge s.krdy { s with ctl := { s.ctl with sramInit := false } }
/-- SRAM_INIT_DONE (02 R51). -/
def execSramInitDone (s : State) : Host.Outcome State Fault Refusal := done (sramInitDone s)

end Sys2Proof.Machine
end

