-- ==== Sys2Proof/Machine/Windows.lean ====
section
/-! DEFINITION. The windows: which record and word a window selects (15 R403), the words that it reads, the words that it
accepts and refuses, and 64-bit fields (02 R47, R48). A window is named by the address of its DATA register. -/
namespace Sys2Proof.Machine
open Sys2Proof

/-! ### Selecting -/

/-- A window: its SEL register, and the register, lowest bit and width that hold its word index. -/
structure Win where
  sel : Nat
  off : Nat
  lo : Nat
  n : Nat
  deriving DecidableEq, Repr

/-- The windows with a word index, by DATA register (15 R403, 16 R436). -/
def winOf (a : Nat) : Option Win :=
  let up (n : Nat) : Option Win := some ⟨a - 8, a - 4, 2, n⟩
  match inst0 a with
  | 0x300048 => up 7
  | 0x101044 => some ⟨a - 4, a - 4, 16, 2⟩
  | 0x200054 => some ⟨a - 4, a - 4, 4, 4⟩
  | 0x500048 => up 7
  | 0x700048 => up 3
  | 0x800048 => up 4
  | 0x900048 => up 4
  | 0xA00048 => up 6
  | 0xC00048 => up 6
  | 0xC00054 => up 4
  | 0xD01048 => up 5
  | 0xE01048 => up 5
  | 0xE01050 => some ⟨a - 4, a - 4, 20, 2⟩
  | _ => none
/-- The window whose DATA register lies at an implemented address. -/
def winAt (a : Nat) : Option Win := if (pageRow a).isSome then winOf a else none
/-- Words at which a window wraps; a Billet slot window is shorter than a tensor slot window (15 R417). -/
def winWrap (a sel : Nat) : Nat :=
  match inst0 a with
  | 0x300048 => 128
  | 0x101044 => 4
  | 0x200054 => 16
  | 0x500048 => if sel / 65536 % 2 = 1 then 4 else 72
  | 0x700048 => 8
  | 0x800048 => 16
  | 0x900048 => 16
  | 0xA00048 => 48
  | 0xC00048 => 48
  | 0xC00054 => 16
  | 0xD01048 => 24
  | 0xE01048 => 25
  | _ => 4
/-- The low words of the 64-bit fields of a window (02 R47; log entry 21). -/
def winLows (a sel : Nat) : List Nat :=
  match inst0 a with
  | 0x300048 => [8, 10, 12, 14, 16, 19, 21, 24, 26, 28]
  | 0x101044 => [1]
  | 0x500048 =>
    if sel / 65536 % 2 = 1 then []
    else [16, 18, 20, 22, 24, 26, 28, 30, 32, 34, 36, 38, 40, 42, 44, 46, 54, 56, 58, 60, 62, 66, 68]
  | 0x700048 => [0, 2, 6]
  | 0x900048 => [4, 6, 8, 10, 12]
  | 0xA00048 => [14, 16, 18, 20, 22, 24, 26, 28, 32, 34, 36]
  | 0xC00048 => [0, 2, 5, 16, 18, 20, 22, 24, 26, 28, 30, 32, 34, 36, 38, 40, 42, 44, 46]
  | 0xC00054 => [1, 3, 10]
  | 0xD01048 => [1, 3, 5, 7, 9]
  | 0xE01048 => [10, 12, 15, 17, 19, 22]
  | _ => []
/-- The word that a window selects. -/
def State.winWord (s : State) (w : Win) : Nat := s.regF w.off w.lo w.n
/-- The value of a window's SEL register. -/
def State.winSel (s : State) (w : Win) : Nat := s.regN w.sel

/-! ### Words as read -/

/-- A stored word of 32 records words read as a number. -/
def half (x k : Nat) : W32 := BitVec.ofNat 32 (x >>> (32 * k))
/-- A word under a mask. -/
def masked (m : Nat) (v : W32) : W32 := v &&& BitVec.ofNat 32 m

/-- The bits of a context record's words that software writes (15 Table 15-11). -/
def ctxMask (w : Nat) : Nat :=
  if w = 2 then 0x1FF
  else if w = 3 || w = 4 || w = 7 || w = 18 || w = 23 then 0xFFFFFFFF
  else if w = 5 then 0x1F000F
  else if w = 6 then 0xFFFF
  else if [8, 10, 12, 14, 16, 19, 21, 24, 25, 26].contains w then 0xFFFFFFFF
  else if [9, 11, 13, 15, 17, 20, 22, 27].contains w then 0xFFFF
  else 0
/-- A word of the context record window (15 R414). -/
def State.ctxRead (s : State) (c w : Nat) : W32 :=
  if w = 1 then BitVec.ofNat 32 (s.ctxStatus c)
  else if w = 31 then BitVec.ofNat 32 (s.ctxEff c)
  else if 34 ≤ w then 0
  else s.asHeld 0 c w (s.cw c w)
/-- An entry that a live write has made and that is not in force yet reads as written (02 R30). -/
def liveOr (staged : SMap (Option W32)) (k : Nat) (v : W32) : W32 := (staged.get (fun _ => none) k).getD v
/-- A word of the tensor slot window (15 R418). -/
def State.slotRead (s : State) (t w : Nat) : W32 :=
  let r := s.rule t
  let x := s.tmp.last.get stat0 t
  let n (v : Nat) : W32 := BitVec.ofNat 32 v
  if w < 8 then liveOr s.tmp.staged (8 * t + w) (s.asHeld 1 t w (s.polW t w))
  else if w = 8 then n (unsgn 16 r.q + r.dn * 2 ^ 16 + r.hist.length * 2 ^ 24)
  else if w = 9 then (if isCoded (s.tfmt t) then n (s.oOf t) else 0)
  else if w < 16 then 0
  else if w < 48 then half (r.hist.getD ((w - 16) / 2) 0) (w % 2)
  else match w with
    | 48 => n x.sat
    | 49 => n x.esc
    | 50 => n x.und
    | 51 => n (b2n x.clamp)
    | 52 => n x.wovf
    | 53 => n x.wund
    | 54 => half x.maxL 0
    | 55 => half x.maxL 1
    | 56 => half x.maxG 0
    | 57 => half x.maxG 1
    | 58 => half x.elems 0
    | 59 => half x.elems 1
    | 60 => half x.mseN 0
    | 61 => half x.mseN 1
    | 62 => half x.mseD 0
    | 63 => half x.mseD 1
    | 64 => n x.flags
    | 65 => n x.nfSpans
    | 66 => half (match x.nfFirst with | some i => i + 2 ^ 63 | none => 0) 0
    | 67 => half (match x.nfFirst with | some i => i + 2 ^ 63 | none => 0) 1
    | 68 => half x.step 0
    | 69 => half x.step 1
    | _ => 0
/-- The context of a Billet slot: that of a used tensor slot naming it. -/
def State.billetCtx (s : State) (b : Nat) : Option Nat :=
  ((usedIds 8 s.polR).find? (fun t => s.used t && s.bslotOf t == b)).map s.slotCtx
/-- A word of the Billet slot window (15 R418). -/
def State.billetRead (s : State) (b w : Nat) : W32 :=
  match w with
  | 0 => s.bslR.get zero32 b
  | 1 => BitVec.ofNat 32 (unsgn 8 (s.bOf b))
  | 2 => match s.billetCtx b with | some c => BitVec.ofNat 32 (s.digest c b (s.cStep c)) | none => 0
  | _ => 0
/-- A word of the selection window (15 R420). -/
def State.ltrRead (s : State) (t w : Nat) : W32 :=
  let x := s.tmp.last.get stat0 t
  match w with
  | 0 => half x.keptL1 0
  | 1 => half x.keptL1 1
  | 2 => half x.leftL1 0
  | 3 => half x.leftL1 1
  | 4 => BitVec.ofNat 32 x.keptCnt
  | 6 => half x.step 0
  | 7 => half x.step 1
  | _ => 0
/-- A word of the codec slot window (16 R424). -/
def State.codecRead (s : State) (t w : Nat) : W32 :=
  let st := s.pck.staged.get (fun _ => none) t
  if w < 8 then s.asHeld 2 t w (s.pckW t w)
  else if w = 8 then s.slotEff t
  else if w = 9 then st.getD 0
  else if w = 10 then BitVec.ofNat 32 (b2n st.isSome)
  else 0
/-- A word of the Mash slot window (16 R425). -/
def State.mashRead (s : State) (t w : Nat) : W32 :=
  let x := s.tmp.last.get stat0 t
  if w = 0 then liveOr s.msh.staged t (s.mshR.get zero32 (4 * t))
  else match w with
    | 4 => half x.ssq 0
    | 5 => half x.ssq 1
    | 6 => half x.n 0
    | 7 => half x.n 1
    | 8 => half x.mean 0
    | 9 => half x.mean 1
    | 10 => half x.m2 0
    | 11 => half x.m2 1
    | 12 => half x.step 0
    | 13 => half x.step 1
    | _ => if w < 4 then s.mshR.get zero32 (4 * t + w) else 0
/-- A word of the domain window (10 Table 10-1, 16 R432); no register returns a key. -/
def State.domRead (s : State) (d w : Nat) : W32 :=
  if w = 4 then s.dw d 4 ||| (if (s.tkey d).isSome then 0x80000000 else 0)
  else if w = 5 || w = 6 then 0
  else s.dw d w
/-- The bits of a rule word that the rule of a record lists; the others are reserved (08 R205, Table 8-2). -/
def ruleMask (rule : Nat) (fact : Bool) (w : Nat) : Nat :=
  match rule, w with
  | 2, 4 => if fact then 0xFFFFFF else 0
  | 4, 4 => 0x1FFF1FFF
  | 4, 5 => 0xFFFFFFFF
  | 4, 6 => 0xFFFFFFFF
  | 4, 7 => 0xFFFFFFFF
  | 4, 8 => 0xFFFFFFFF
  | 5, 4 => 0xFFF
  | 5, 5 => 0xFFFFFFFF
  | 5, 6 => 0xFFFFFFFF
  | 5, 7 => 0x1FFFF
  | 5, 8 => 0x3FFFF
  | _, _ => 0
/-- A word of the update record window; reserved bits read as zero (08 R205, 00 R6). -/
def State.updRead (s : State) (u w : Nat) : W32 :=
  let v := if w < 16 then liveOr s.upd.staged (16 * u + w) (s.asHeld 3 u w (s.uw u w)) else s.uw u w
  if 4 ≤ w ∧ w ≤ 9 then masked (ruleMask (s.uRule u) (bit (s.uw u 0) 20) w) v else v
/-- A word of the verdict log (16 R436). -/
def State.vlogRead (s : State) (sel w : Nat) : W32 :=
  match (s.gx (sel % 4096)).vlog[sel / 65536 % 16]? with
  | none => 0
  | some v =>
    match w with
    | 0 => half v.step 0
    | 1 => BitVec.ofNat 32 (v.step / 2 ^ 32 % 2 ^ 16 + v.verdict % 2 ^ 8 * 2 ^ 16 + v.vflags % 2 ^ 8 * 2 ^ 24)
    | 2 => BitVec.ofNat 32 v.reasons
    | _ => BitVec.ofNat 32 v.mandig
/-- A word of a window; a word beyond its last reads zero (15 R403). -/
def State.winRead (s : State) (a sel w : Nat) : W32 :=
  if winWrap a sel ≤ w then 0
  else match inst0 a with
    | 0x300048 => s.ctxRead sel w
    | 0x101044 => s.ptR.get zero32 (4 * (sel % 4096) + w)
    | 0x200054 => BitVec.ofNat 32 (ofLe (((s.posEntry (sel % 16)).drop (4 * w)).take 4))
    | 0x500048 => if sel / 65536 % 2 = 1 then s.billetRead (sel % 65536) w else s.slotRead (sel % 65536) w
    | 0x700048 => s.ltrRead sel w
    | 0x800048 => s.codecRead sel w
    | 0x900048 => s.mashRead sel w
    | 0xA00048 => s.updRead sel w
    | 0xC00048 => s.domRead sel w
    | 0xC00054 => s.qw sel w
    | 0xD01048 => if sel % 8 = 0 then 0 else s.pw (instOf a) (sel % 8) w
    | 0xE01048 => if w < 16 then liveOr s.grd.staged (16 * sel + w) (s.asHeld 4 sel w (s.gw sel w)) else s.gw sel w
    | 0xE01050 => s.vlogRead sel w
    | _ => 0

/-! ### Words as written -/

/-- A context that is LOADED with a step open: its modes change at its next load only (14 R392, R398). -/
def State.holdsModes (s : State) (c : Nat) : Bool := s.cState c == stLoaded && (s.hx c).opened != 0
/-- The bits of a word that set modes of 14 Table 14-1, by kind of record: 0 context, 1 scale policy, 2 codec, 3 update, 4
Guard. -/
def modeMask (kind w : Nat) : Nat :=
  match kind, w with
  | 0, 5 => 0xD
  | 1, 0 => 0x7000000
  | 2, 0 => 0xFFFF
  | 2, 3 => 0x300
  | 3, 0 => 0xF070000
  | 4, 0 => 0xF
  | _, _ => 0
/-- The word that is stored when `v` is written over `old` in a record of context `c`, and the state with the word as written
kept where its mode bits wait for the next load (14 R392; log entry 117). -/
def State.holdMode (s : State) (kind rec w c : Nat) (old v : W32) : W32 × State :=
  let m : W32 := BitVec.ofNat 32 (modeMask kind w)
  let mix := (v &&& ~~~m) ||| (old &&& m)
  if m = 0 then (v, s)
  else if s.holdsModes c && mix != v then (mix, s.setHeld (heldKey kind rec w) (some v))
  else (v, s.setHeld (heldKey kind rec w) none)
/-- CHECK_FAILED clears when software rewrites a word of the record (15 R415). -/
def State.recheck (s : State) (c : Nat) : State :=
  if (s.hx c).checkFailed then s.setHx c { s.hx c with checkFailed := false } else s
/-- Store a word of a context record as its state allows (15 R414): LOAD acts in FREE; PDOM, SHARE and HEARTH_MASK change in
FREE only. -/
def State.ctxPut (s : State) (c w : Nat) (v : W32) : State :=
  let free := s.cState c == stFree
  let s1 := s.recheck c
  if w = 0 then
    if free && bit v 3 then loadCtx c v s1
    else
      let s2 := s1.setCf c 0 28 2 (fld v 28 2)
      if free then s2.setCf c 0 16 12 (fld v 16 12) else s2
  else if ctxMask w = 0 || (!free && (w = 2 || w = 7)) then s1
  else
    let (x, s2) := s1.holdMode 0 c w c (s1.cw c w) (masked (ctxMask w) v)
    s2.setCw c w x
/-- Words that stay writable in READY, RUNNING and PARKED (15 Table 15-11). -/
def ctxLive (w : Nat) : Bool := w = 0 || w = 3 || w = 4
/-- A used slot's context is READY, RUNNING or PARKED (03 R443, R75). -/
def State.slotLive (s : State) (t : Nat) : Bool := s.used t && s.cActive (s.slotCtx t)
/-- The listed bits of a scale policy record (03 Table 3-5). -/
def polMask (w : Nat) : Nat :=
  match w with
  | 1 => 0x3FFFFF | 2 => 0x07FF07FF | 3 => 0xFFFF07FF | 4 => 0x1F1F7F | 5 => 0xFFFFF | 6 => 0xFFFFF | _ => 0xFFFFFFFF
/-- The record of a slot has changed hands, or joined a Billet slot that its context did not use: rule state of a former
context does not survive in it, q is Q_INIT and HIST empty, and B of the Billet slot B_INIT (03 R77, R78). -/
def State.slotMoved (old s : State) (t : Nat) : State :=
  let c := s.slotCtx t
  let b := s.bslotOf t
  let moved := s.used t && !(old.used t && old.slotCtx t == c)
  let joined := s.used t && !(old.billetsOf c).contains b
  let ts := if moved then [t] else []
  { s with tmp := { s.tmp with
    rule := dropKeys s.tmp.rule ts, now := dropKeys s.tmp.now ts, last := dropKeys s.tmp.last ts
    ssqs := dropKeys s.tmp.ssqs ts, bB := dropKeys s.tmp.bB (if joined then [b] else []) } }
/-- Store a word of a scale policy record, or stage it while its context runs (03 R75). -/
def State.polPut (s : State) (t w : Nat) (v : W32) : State :=
  let k := 8 * t + w
  let x := masked (polMask w) v
  let st (o : Option W32) : State :=
    { s with tmp := { s.tmp with staged := s.tmp.staged.set (fun _ => none) k o } }
  if 8 ≤ w then s
  else if s.slotLive t then st (some x)
  else
    let (y, s1) := (st none).holdMode 1 t w (s.slotCtx t) (s.polW t w) x
    s.slotMoved { s1 with polR := setWord s1.polR 8 t w y } t
/-- The listed bits of a codec record (04 Table 4-2, 14 R399). -/
def pckMask (w : Nat) : Nat :=
  match w with
  | 0 => 0xFF37 | 2 => 0xFF00FF | 3 => 0x3FF | 6 => 0 | _ => 0xFFFFFFFF
/-- Store a word of a codec record, or stage word 0 while its context runs (04 R95). DESIGN CHOICE: a staged word 0 that is
still pending when its context is FREE or LOADED again is kept, and a direct write of word 0 withdraws it (log entry 111). -/
def State.codecPut (s : State) (t w : Nat) (v : W32) : State :=
  let x := masked (pckMask w) v
  let st (o : Option W32) : State :=
    { s with pck := { s.pck with staged := s.pck.staged.set (fun _ => none) t o } }
  if 8 ≤ w then s
  else if w = 0 && s.slotLive t then st (some x)
  else
    let (y, s1) := (if w = 0 then st none else s).holdMode 2 t w (s.slotCtx t) (s.pckW t w) x
    { s1 with pckR := setWord s1.pckR 8 t w y }
/-- Store a word of a Mash slot record, or stage word 0 while its context runs (06 R137). -/
def State.mashPut (s : State) (t w : Nat) (v : W32) : State :=
  let x := masked (if w = 0 then 3 else if w = 1 then 0 else 0xFFFFFFFF) v
  let st (o : Option W32) : State :=
    { s with msh := { s.msh with staged := s.msh.staged.set (fun _ => none) t o } }
  if 4 ≤ w then s
  else if w = 0 && s.slotLive t then st (some x)
  else { (if w = 0 then st none else s) with mshR := setWord s.mshR 4 t w x }
/-- A used record's context is READY, RUNNING or PARKED (08 R206, R207). -/
def State.recLive (s : State) (u : Nat) : Bool := s.uUsed u && s.cActive (s.uCtx u)
/-- The bits of an update record that some rule lists (08 Tables 8-1 and 8-2); which of words 4 to 9 a rule lists shows in
`updRead` (log entry 90). -/
def updMask (w : Nat) : Nat :=
  if w = 0 then 0x8FFFFFFF
  else if w = 4 then 0x1FFFFFFF
  else if w = 9 then 0
  else if w = 11 then 0xFF
  else if w = 13 then 0xFFF
  else if 30 ≤ w then 0
  else if 14 ≤ w && w % 2 = 1 then 0xFFFF
  else 0xFFFFFFFF
/-- A write to word 0 resets the state area, and empties the region of a KILN record, of its RULE as written (08 R207). -/
def State.updFresh (s : State) (u rule : Nat) : State :=
  let one : Nat := 0x3FF0000000000000
  let s1 := ((((s.setU64 u 32 0).setU64 u 34 one).setU64 u 36 one).setU64 u 38 0).setU64 u 40 0
  let s2 : State := { s1.setUw u 42 0 with upd := { s1.upd with lastStep := s1.upd.lastStep.del u } }
  if rule = 5 then s2.setRegion u (s2.region0 u) else s2
/-- Store a word of an update record, or stage words 1 to 9 while its context runs (08 R207). -/
def State.updPut (s : State) (u w : Nat) (v : W32) : State :=
  let x := masked (updMask w) v
  let st (o : Option W32) : State :=
    { s with upd := { s.upd with staged := s.upd.staged.set (fun _ => none) (16 * u + w) o } }
  if 32 ≤ w then s
  else if s.recLive u then st (some x)
  else
    let (y, s0) := (if w < 16 then st none else s).holdMode 3 u w (s.uCtx u) (s.uw u w) x
    let s1 := { s0 with updR := setWord s0.updR 48 u w y }
    let c := s1.uCtx u
    if w = 0 && (s1.cState c == stFree || s1.cState c == stLoaded) then s1.updFresh u (fld x 16 3) else s1
/-- The listed bits of a Tongs queue record (10 Table 10-6). -/
def queueMask (w : Nat) : Nat :=
  match w with
  | 0 => 0xFF1FFFFF | 2 => 0xFFFF | 4 => 0xFFFF | _ => 0xFFFFFFFF
/-- The listed bits of a Guard context record (12 Table 12-1). -/
def guardMask (w : Nat) : Nat :=
  if w = 0 then 0xFF0F
  else if w < 7 then 0x3FFFF
  else if [11, 13, 16, 18, 20, 23].contains w then 0xFFFF
  else if w = 24 then 0xFF
  else 0xFFFFFFFF
/-- Store a word of a Guard context record, or stage words 7 and 8 while the context runs (12 R314). -/
def State.guardPut (s : State) (c w : Nat) (v : W32) : State :=
  let x := masked (guardMask w) v
  let st (o : Option W32) : State :=
    { s with grd := { s.grd with staged := s.grd.staged.set (fun _ => none) (16 * c + w) o } }
  if 25 ≤ w then s
  else if s.cActive c then st (some x)
  else
    let (y, s1) := (if w = 7 || w = 8 then st none else s).holdMode 4 c w c (s.gw c w) x
    { s1 with grdR := setWord s1.grdR 25 c w y }
/-- The window of a domain reaches a footprint (10 R269). -/
def State.domClash (s : State) (d : Nat) : Bool := s.inFootprint (s.dAddr d 0) (s.dAddr d 2)
/-- Put the key of a domain: its high half with the staged low half, or with the low half that it holds (10 R268). -/
def State.keyPut (s : State) (d : Nat) (lo : Option W32) (hi : W32) : State :=
  let old : Nat := match s.tkey d with | some k => k.toNat % 2 ^ 32 | none => 0
  let l : Nat := match lo with | some x => x.toNat | none => old
  { s with tng := { s.tng with keys := s.tng.keys.set (fun _ => none) d (some (BitVec.ofNat 64 (l + hi.toNat * 2 ^ 32))) } }
/-- Words of the domain record and the arrival counts (10 R268, R269, 16 R432). `lo` is the low half committed with a high
word. A window that would reach a Malt footprint is left as it was. -/
def State.domPut (s : State) (d w : Nat) (lo : Option W32) (v : W32) : State :=
  if w = 6 then s.keyPut d lo v
  else if w < 4 then
    let s1 := match lo with | some x => s.setDw d (w - 1) x.toNat | none => s
    let s2 := s1.setDw d w (if w % 2 = 1 then v.toNat % 2 ^ 16 else v.toNat)
    let s3 := s2.setDw d (w / 2 * 2) ((s2.dw d (w / 2 * 2)).toNat / 4096 * 4096)
    if s3.domClash d then s.err 0xC00000 9 else s3
  else if w = 4 then
    let s1 := if bit v 8 then { s with tng := { s.tng with keys := s.tng.keys.set (fun _ => none) d none } } else s
    if s.domActive d then s1 else s1.setDw d 4 (v.toNat % 16)
  else if 16 ≤ w then s.setArrival d ((w - 16) / 2) 0
  else s
/-- The listed bits of a Phase Timer record (15 R410). -/
def ptMask (w : Nat) : Nat :=
  match w with
  | 0 => 0x1F | 2 => 0xFFFF | 3 => 0x800003FF | _ => 0xFFFFFFFF
/-- Store one word, or both words of a 64-bit field (02 R47). -/
def State.winPut (s : State) (a sel w : Nat) (lo : Option W32) (v : W32) : State :=
  let two (f : State → Nat → W32 → State) : State :=
    match lo with | some x => f (f s (w - 1) x) w v | none => f s w v
  match inst0 a with
  | 0x300048 => two (fun s w v => s.ctxPut sel w v)
  | 0x101044 => two (fun s w v => { s with ptR := setWord s.ptR 4 (sel % 4096) w (masked (ptMask w) v) })
  | 0x500048 =>
    if sel / 65536 % 2 = 1 then
      (if w = 0 then { s with bslR := s.bslR.set zero32 (sel % 65536) (masked 0x0FFFFFFF v) } else s)
    else s.polPut (sel % 65536) w v
  | 0x800048 => s.codecPut sel w v
  | 0x900048 => s.mashPut sel w v
  | 0xA00048 => two (fun s w v => s.updPut sel w v)
  | 0xC00048 => s.domPut sel w lo v
  | 0xC00054 => if 7 ≤ w then s else two (fun s w v => s.setQw sel w (masked (queueMask w) v).toNat)
  | 0xD01048 => two (fun s w v => partWrite (instOf a) (sel % 8) w v s)
  | 0xE01048 => two (fun s w v => s.guardPut sel w v)
  | _ => s
/-- A window write that is not made: what it leaves, and whether it completes with KCP_ACK (02 Table 2-2, R48; 03 R75, R443;
04 R95; 06 R137; 08 R206, R207; 10 R269, R277, R279; 11 R291; 12 R314; 15 R417). `any other word` of R75 is read as any other
writable word of the record: a write to a read-only word of a live slot's window is acknowledged without SLOT_BUSY, as an RO
field's is (00 R5; log entry 91). -/
def State.winRefuse (s : State) (a sel w : Nat) (v : W32) : Option (State × Bool) :=
  let busy (no : Bool) (pg i : Nat) : Option (State × Bool) := if no then some (s.err pg i, true) else none
  match inst0 a with
  | 0x300048 =>
    let st := s.cState sel
    if st = stFree || st = stLoaded || (s.cActive sel && ctxLive w) then none else some (s.err 0x300000 8, false)
  | 0x500048 =>
    if sel / 65536 % 2 = 1 then
      busy (w = 0 && ((usedIds 8 s.polR).any (fun t => s.slotLive t && s.bslotOf t == sel % 65536))) 0x500000 9
    else
      let t := sel % 65536
      busy ((s.slotLive t && w < 5) || (!s.slotLive t && w = 0 && bit v 31 && s.cActive (s.slotCtx t))) 0x500000 9
  | 0x800048 => busy (s.slotLive sel && 0 < w && w < 7) 0x800000 9
  | 0x900048 => busy (s.slotLive sel && 0 < w && w < 4) 0x900000 17
  | 0xA00048 =>
    busy ((s.recLive sel && (w = 0 || (10 ≤ w && w < 32)))
      || (!s.recLive sel && w = 0 && bit v 31 && s.cActive (s.uCtx sel))) 0xA00000 9
  | 0xC00048 =>
    busy (s.domActive sel && (w < 4 || (w = 4 && !bit v 8)) || (16 ≤ w && w < 48 && (v != 0 || s.domActive sel))) 0xC00000 8
  | 0xC00054 => busy (s.qState sel != 0 && w < 7) 0xC00000 12
  | 0xD01048 =>
    let i := instOf a
    let p := sel % 8
    busy (p != 0 && s.pEn i p && w != 11 && w != 12 && !(w = 0 && !bit v 0)) (mltReg i 0x1000) 9
  | 0xE01048 => busy (s.cActive sel && w < 25 && w != 7 && w != 8) 0xE01000 14
  | _ => none

/-! ### Transfers -/

/-- No half latched or staged. -/
def pair0 (_ : Nat) : Pair := ⟨none, none⟩
/-- The halves of a window or of a register pair. -/
def State.pair (s : State) (k : Nat) : Pair := s.ctl.pairs.get pair0 k
/-- Store them. -/
def State.setPair (s : State) (k : Nat) (p : Pair) : State :=
  { s with ctl := { s.ctl with pairs := s.ctl.pairs.set pair0 k p } }
/-- What every other field of the page has staged is dropped (02 R47; log entry 21). -/
def State.unstage (s : State) (k : Nat) : State :=
  ((s.ctl.pairs.map (fun e => e.1)).filter (fun j => pageOf j == pageOf k && j != k)).foldl
    (fun s j => s.setPair j { s.pair j with stage := none }) s
/-- The word index advances, wrapping at the window (15 R403). -/
def State.winNext (s : State) (a : Nat) (w : Win) : State :=
  let k := (s.winWord w + 1) % winWrap a (s.winSel w)
  s.setReg w.off (setFld (s.reg w.off) w.lo w.n k)
/-- A read of a DATA register (15 R403, 02 R47). -/
def State.readWin (s : State) (a : Nat) (x : Win) : W32 × State :=
  let sel := s.winSel x
  let w := s.winWord x
  let p := s.pair a
  let hit := match p.latch with | some (k, v) => if k = w then some v else none | none => none
  let v := hit.getD (s.winRead a sel w)
  let latch := if (winLows a sel).contains w then some (w + 1, s.winRead a sel (w + 1))
    else if hit.isSome then none else p.latch
  (v, (s.setPair a { p with latch := latch }).winNext a x)
/-- A write of a DATA register (15 R403, 02 R47, R48); false when it completes with KCP_NAK. An arrival count is cleared by
one word and is never staged (16 R432). -/
def State.writeWin (s : State) (a : Nat) (x : Win) (v : W32) : State × Bool :=
  let sel := s.winSel x
  let w := s.winWord x
  let p := s.pair a
  let lows := if inst0 a = 0xC00048 then [0, 2, 5] else winLows a sel
  if winWrap a sel ≤ w then (s.winNext a x, true)
  else
    match s.winRefuse a sel w v with
    | some (t, true) => (((t.unstage a).setPair a { p with stage := none }).winNext a x, true)
    | some (t, false) => (t, false)
    | none =>
      if lows.contains w then (((s.unstage a).setPair a { p with stage := some (w, v) }).winNext a x, true)
      else
        let lo := if 0 < w && lows.contains (w - 1) then
            (match p.stage with | some (k, y) => if k + 1 = w then some y else none | none => none)
          else none
        ((((s.unstage a).setPair a { p with stage := none }).winPut a sel w lo v).winNext a x, true)

end Sys2Proof.Machine
end

