-- ==== Sys2Proof/Machine/Kcp.lean ====
section
/-! DEFINITION. The control port: reads and writes of the register space (02 R29 to R36, 00 R5), the page header with quiesce
and soft reset (R33 to R36, 15 R403), the effect of each register of chapters 15 and 16, and the control-port reset (02 R54,
R58 to R60). -/
namespace Sys2Proof.Machine
open Sys2Proof

/-! ### Pages at work, R34 -/

/-- The pages of which QUIESCE holds back nothing: they are QUIESCED at once (15 Table 15-1, 16 Table 16-1). -/
def atOnce (pg : Nat) : Bool :=
  [0x000000, 0x002000, 0xB01000, 0xB02000, 0xB03000, 0xE00000, 0xF01000].contains (inst0 pg)
/-- Work accepted by a page is in flight (02 R34, 15 Table 15-1, 16 Table 16-1). -/
def State.inFlight (s : State) (pg : Nat) : Bool :=
  let i := instOf pg
  match inst0 pg with
  | 0x001000 => s.ctl.cmd.isSome
  | 0x100000 => s.time.exch.isSome
  | 0x200000 => s.iden.scan.isSome
  | 0x201000 => s.iden.check = 1 || s.iden.check = 2
  | 0x300000 => s.hop.ctx.any (fun e => e.2.waiting.isSome)
  | 0x700000 => s.hop.sort.isSome
  | 0x800000 => !s.pck.own.isEmpty
  | 0x900000 => !s.msh.tiles.isEmpty || !s.msh.opens.isEmpty
  | 0xB00000 => !s.qcn.msgs.isEmpty
  | 0xC00000 => s.tng.q.any (fun e => e.2.ents.any (fun x => x.key.isSome && x.status.isNone))
  | 0xD00000 => s.mlt.reqs.any (fun r => r.inst == i)
  | 0xD01000 => s.mlt.walks.any (fun x => x.inst == i && x.pass != 0)
  | 0xF00000 => s.dmp.fill != 0
  | _ => false
/-- PG_CTRL.QUIESCE. -/
def State.quiescing (s : State) (pg : Nat) : Bool := bit (s.reg (pg + 0x10)) 1
/-- PG_STAT as read: BUSY, and ACTIVE in place of an idle state, while work is in flight. The manual gives no condition for
the codes ALIGNING, SOFT_RESETTING and FAULT; the model never shows them (log entry 22). -/
def State.pgStat (s : State) (pg : Nat) : W32 :=
  let v := s.reg (pg + 0x14)
  if !s.inFlight pg then v
  else if s.quiescing pg then v ||| 1 else 0x31
/-- QUIESCE goes to 1 (02 R34). -/
def State.quiesceOn (s : State) (pg : Nat) : State := s.setRegN (pg + 0x14) (if atOnce pg then 0x52 else 0x40)
/-- QUIESCE goes to 0: IDLE; held identity work goes on, and held Phase Timer records are written (02 R34). -/
def State.quiesceOff (s : State) (pg : Nat) : State :=
  let s1 := s.setRegN (pg + 0x14) 0x20
  if pg = 0x200000 then s1.idenKick
  else if pg = 0x201000 then
    ({ s1 with iden := { s1.iden with check := if s1.iden.check = 3 then 1 else s1.iden.check } }).idenKick
  else if pg = 0x101000 then s1.ptFlush
  else s1
/-- QUIESCED: a quiescing page with no work in flight (02 R34). -/
def quiescedEv (pg : Nat) (s : State) : State :=
  if s.quiescing pg && fld (s.reg (pg + 0x14)) 4 4 == 4 && !s.inFlight pg then s.setRegN (pg + 0x14) 0x52 else s
/-- QUIESCED (02 R34). -/
def execQuiesced (page : Page) (s : State) : Host.Outcome State Fault Refusal := done (quiescedEv (page.toNat * 4096) s)

/-! ### Page soft reset, 15 R403 -/

/-- A register that survives a page soft reset (00 R5, 15 R403). -/
def keepReg (a : Nat) : Bool := match regRow a with | some r => r.acc == .rws || r.kept | none => false
/-- Set a 48-bit counter. -/
def State.setWide (s : State) (a v : Nat) : State :=
  { s with ctl := { s.ctl with wide := s.ctl.wide.set (fun _ => 0) a v } }
/-- Fields of a page that lie outside the register file, at their reset values (02 Table 2-7, 15 R403, R407, R412, R413, 16
Table 16-13). -/
def State.softFields (s : State) (pg : Nat) : State :=
  match inst0 pg with
  | 0x100000 => s.syncOff
  | 0x101000 => { s with time := { s.time with ptHeld := [] } }
  | 0x201000 => { s with iden := { s.iden with check := 0 } }
  | 0x300000 => { s with hop := { s.hop with yields := [] } }
  | 0x500000 => { s with tmp := { s.tmp with events := [] } }
  | 0x600000 => (s.setWide 0x600040 0).setWide 0x600048 0
  | 0xE00000 => { s with grd := { s.grd with periodAt := none, heard := [], declared := [] } }
  | 0xF00000 => { s.setWide 0xF00064 0 with dmp := { s.dmp with
      hist := [], tel := 0, bad := 0, fill := 0, tgt := 0, kcurt := false, level := 1000, pc := 0, kLev := 1000, gLev := 1000
      changes := [], gchanges := [], pace := [] } }
  | _ => s
/-- A page soft reset (02 Table 2-7, R35, R47; 15 R403): every field but RWS and kept ones; records behind windows stay. Every
reset level clears CTL_KEY_STAGE0-7 (02 R44). -/
def State.softReset (s : State) (pg : Nat) : State :=
  let out (a : Nat) : Bool := pageOf a != pg
  let s1 : State := { s.softFields pg with
    regs := s.regs.filter (fun e => out e.1 || keepReg e.1)
    ctl := { (s.softFields pg).ctl with
      stage := []
      unlock := s.ctl.unlock.set (fun _ => false) pg false, pairs := s.ctl.pairs.filter (fun e => out e.1) } }
  krdyEdge s.krdy s1

/-! ### The page header, R33, R35, R36 -/

/-- A PG_ERR bit returns to 0: the record of a first failure that goes with it loses VALID (15 Tables 15-13, 15-14; 16
Tables 16-3, 16-10, 16-14). -/
def State.unrecord (s : State) (pg gone : Nat) : State :=
  let off (a i : Nat) : State := s.setRegN a (s.regN a &&& (2 ^ 32 - 1 - 2 ^ i))
  match pg with
  | 0x400000 => if gone.testBit 3 then off 0x400050 31 else s
  | 0x500000 => if gone.testBit 10 then off 0x500058 31 else s
  | 0x800000 => if gone.testBit 10 then off 0x800050 31 else s
  | 0xC00000 => if gone.testBit 14 then off 0xC00074 31 else s
  | 0xE01000 => if gone.testBit 12 then off 0xE01060 31 else s
  | _ => s
/-- A W1C write of PG_ERR that meets events setting the bits of `meet` (02 R36, R39). -/
def State.errClear (s : State) (pg : Nat) (v meet : W32) : State :=
  let m := match pageRow pg with | some p => meet.toNat &&& p.err | none => 0
  let old := s.regN (pg + 0x18)
  let new := (old &&& (2 ^ 32 - 1 - v.toNat)) ||| m
  if old = 0 then s.raise pg m
  else
    let s1 := (s.setRegN (pg + 0x18) new).unrecord pg (old &&& (2 ^ 32 - 1 - new))
    let s2 := if new = 0 then s1.setRegN (pg + 0x24) 0 else s1
    if new &&& (2 ^ 32 - 1 - old) &&& s.regN (pg + 0x20) != 0 then s2.attend (subOf pg) else s2
/-- A W1C write of CTL_ATTN (02 R39); CTL 0 event 0x11 when a bit is cleared. -/
def State.attnClear (s : State) (v meet : W32) : State :=
  let old := s.regN 0x000044
  let m := meet.toNat % 2 ^ 16
  let new := (old &&& (2 ^ 32 - 1 - v.toNat)) ||| m
  let s1 := if old &&& (2 ^ 32 - 1 - new) != 0 then s.countEv 0x000000 0x11 1 else s
  krdyEdge s.krdy (s1.setRegN 0x000044 new)
/-- A write of PG_CTRL; false when the soft reset is refused (02 Table 2-2, Table 2-4). -/
def State.pgCtrl (s : State) (pg : Nat) (v : W32) : State × Bool :=
  if bit v 2 then (if s.quiesced pg then (s.softReset pg, true) else (s.err pg 1, false))
  else
    let was := s.quiescing pg
    let s1 := s.setReg (pg + 0x10) (v &&& 3)
    (if bit v 1 && !was then s1.quiesceOn pg else if !bit v 1 && was then s1.quiesceOff pg else s1, true)
/-- Unlock, or lock, a page (02 R35). -/
def State.setUnlock (s : State) (pg : Nat) (b : Bool) : State :=
  { s with ctl := { s.ctl with unlock := s.ctl.unlock.set (fun _ => false) pg b } }
/-- A write of the page header; false when it completes with KCP_NAK. A write of PG_CNT_SEL clears PG_CNT and is then an
acknowledged write like any other, so that one which selects event 0x04 counts itself (log entry 92). -/
def State.headWrite (s : State) (pg o : Nat) (v meet : W32) : State × Bool :=
  match o with
  | 0x0C => (if fld v 0 16 = 0xC3A5 then s.setUnlock pg true else (s.setUnlock pg false).err pg 0, true)
  | 0x10 => s.pgCtrl pg v
  | 0x18 => (s.errClear pg v meet, true)
  | 0x1C => (s.raise pg v.toNat, true)
  | 0x20 => (s.setRegN (pg + 0x20) (v.toNat &&& (match pageRow pg with | some p => p.err | none => 0)), true)
  | 0x28 => ((s.setRegN (pg + 0x28) (v.toNat % 256)).setRegN (pg + 0x2C) 0, true)
  | _ => (s, true)

/-! ### Register pairs, 02 R47 -/

/-- Writable register pairs, by low register. -/
def rwPairs : List Nat :=
  [0x201050, 0x20105C, 0xB00050, 0xB00064, 0xC00064, 0xD01050, 0xD01064, 0xE00060, 0xE00068, 0xE01070, 0xE01078,
    0xF0006C, 0xF00084, 0xF0008C, 0xF01054]
/-- Read-only register pairs, by low register. -/
def roPairs : List Nat :=
  [0x100078, 0x600040, 0x600048, 0xD00040, 0xD00048, 0xD00050, 0xD00058, 0xD0105C, 0xE01080, 0xF00064,
    0xF0104C]
/-- The low register of the pair that an address belongs to. -/
def lowOf (ps : List Nat) (a : Nat) : Option Nat :=
  if ps.contains (inst0 a) then some a else if ps.contains (inst0 (a - 4)) then some (a - 4) else none
/-- The low register as stored: the aligned bases of IDEN 1 and MLT 1 (15 R412, 16 Table 16-12). -/
def alignLow (lo : Nat) (v : W32) : W32 :=
  if [0x201050, 0x20105C, 0xD01064].contains (inst0 lo) then masked 0xFFFFFFF8 v else v

/-- A write of either register of a pair (02 R47). -/
def State.pairWrite (s : State) (lo a m : Nat) (v : W32) : State :=
  let s1 := s.unstage lo
  let p := s1.pair lo
  if a = lo then s1.setPair lo { p with stage := some (lo, v) }
  else
    let s2 := match p.stage with | some (_, x) => s1.setReg lo (alignLow lo x) | none => s1
    ((s2.setReg a (masked m v)).setPair lo { p with stage := none }).curtChange

/-! ### Registers as written -/

/-- A number lies in a range. -/
def within (lo hi x : Nat) : Bool := lo ≤ x && x ≤ hi
/-- Every page of QCN is QUIESCED (09 R234). -/
def State.qcnStill (s : State) : Bool :=
  s.quiesced 0xB00000 && s.quiesced 0xB01000 && s.quiesced 0xB02000
    && (List.range 16).all (fun p => s.quiesced (qcn3 p 0))
/-- A write that completes with KCP_ACK, changes nothing, and sets a bit of its page: `n` is the value of its field (15 R409,
R411, R412; 16 R425, R427, R428, R431, R434 to R436, R438; 09 Table 9-7). -/
def State.refuses (s : State) (a n : Nat) : Option Nat :=
  let bad (ok : Bool) (i : Nat) : Option Nat := if ok then none else some i
  let o := offOf a
  match inst0 (pageOf a) with
  | 0x100000 => if o = 0x5C then bad (within 4 7 n) 11 else none
  | 0x200000 =>
    if o < 0x4C || 0x80 ≤ o then
      (if s.iden.scan.isSome then some 10 else bad (o != 0x40 || n != 3) 11)
    else none
  | 0x201000 => if o < 0x68 then bad (s.iden.check = 0) 9 else none
  | 0x900000 => if o = 0x4C then bad (n != 0) 18 else none
  | 0xB00000 =>
    if !s.qcnStill then some 12
    else match o with
      | 0x60 => bad (within 1280 9216 n) 12
      | 0x64 => bad (n % 16 = 0) 12
      | 0x6C => bad (within 12 24 n) 12
      | _ => none
  | 0xB01000 =>
    match o with
    | 0x40 => bad (within (s.regN 0xB01044) (s.regN 0xB01048) n) 8
    | 0x44 => bad (within 4096 1048576 n) 8
    | 0x48 => bad (within (s.regN 0xB01044) (2 ^ 26) n) 8
    | 0x4C => bad (within 0 1048576 n) 8
    | 0x54 => bad (within 0 1000000 n) 8
    | _ => none
  | 0xC00000 =>
    match o with
    | 0x60 => bad (within 100 1000000 n) 15
    | 0x64 => bad (s.quiesced 0xC00000 && n % 32 = 0) 15
    | 0x68 => bad (s.quiesced 0xC00000) 15
    | 0x6C => bad (s.quiesced 0xC00000 && within 12 24 n) 15
    | _ => none
  | 0xD01000 => if o = 0x50 || o = 0x54 then bad (!s.inFlight (pageOf a)) 13 else none
  | 0xE00000 =>
    match o with
    | 0x44 | 0x48 | 0x4C => bad (!s.hbEn) 13
    | 0x50 => bad (within 1 7 n) 13
    | 0x54 => bad (within 1000 1000000 n) 13
    | 0x60 => bad (n % 4 = 0) 13
    | 0x68 => bad (n % 16 = 0) 13
    | _ => none
  | 0xE01000 => if o = 0x58 then bad (within 1 4096 n) 15 else none
  | 0xF00000 =>
    match o with
    | 0x54 => bad (within 0 496 n) 9
    | 0x58 | 0x5C => bad (within 1 496 n) 9
    | 0x74 => bad (within 1 60000 n) 9
    | 0x78 => bad (within 1 16 n) 9
    | 0x7C | 0x80 => bad (within 63 1000 n) 9
    | 0x94 => bad (within 1 16 n) 9
    | _ => none
  | _ => none
/-- The DATA registers of the windows of a page. -/
def dataRegs : List Nat :=
  [0x101044, 0x200054, 0x300048, 0x500048, 0x700048, 0x800048, 0x900048, 0xA00048, 0xC00048, 0xC00054, 0xD01048, 0xE01048,
    0xE01050]
/-- The DATA register, at instance 0, of the window that a SEL or OFF register belongs to. -/
def dataOf (a : Nat) : Option Nat :=
  dataRegs.find? (fun d => match winOf d with | some w => w.sel == inst0 a || w.off == inst0 a | none => false)
/-- A write of a window's SEL or OFF drops the halves that its window latched or staged (15 R403). -/
def State.unpair (s : State) (a : Nat) : State :=
  match dataOf a with
  | some d => s.setPair (d + instOf a * 2 ^ 16) ⟨none, none⟩
  | none => s
/-- The effect that a stored register has at once: PORT_MISSING (02 R56), a new watch (12 R315), a curtailment change (16
R438). -/
def State.afterReg (s : State) (a : Nat) : State :=
  if 0x002050 ≤ a && a < 0x002060 then (if s.someMissing then s.err 0x002000 8 else s)
  else if 0xE00080 ≤ a && a < 0xE000A0 then s.watchStart ((a - 0xE00080) / 4)
  else if a = 0xF0007C || a = 0xF00080 then s.curtChange
  else s.unpair a
/-- A write of a register that holds a value (00 R5). -/
def State.putReg (s : State) (a : Nat) (v : W32) : State :=
  match regRow a with
  | none => s
  | some r =>
    if r.acc != .rw && r.acc != .rws then s
    else
      match s.refuses a (masked r.mask v).toNat with
      | some i => s.err (pageOf a) i
      | none =>
        match lowOf rwPairs a with
        | some lo => s.pairWrite lo a r.mask v
        | none => (s.setReg a (masked r.mask v)).afterReg a
/-- The access code of a register. -/
def hasAcc (a : Nat) (k : Acc) : Bool := match regRow a with | some r => r.acc == k | none => false
/-- A write of a page-specific register; false when it completes with KCP_NAK. -/
def State.bodyWrite (s : State) (a : Nat) (v meet : W32) : State × Bool :=
  match winOf a with
  | some w => if hasAcc a .ro then (s, true) else s.writeWin a w v
  | none =>
    let i := instOf a
    match inst0 a with
    | 0x000044 => (s.attnClear v meet, true)
    | 0x000048 => (abortCmd v s, true)
    | 0x001040 => (ctlCmd v s, true)
    | 0x10004C => (timeCtrl v s, true)
    | 0x100064 => (timeHoldMax v s, true)
    | 0x201068 => (checkGo v s, true)
    | 0x30004C => ringDb v s
    | 0x300050 => (ctxReset v s, true)
    | 0xC00058 => tngDb v s
    | 0xC0005C => (s.queueReset (fld v 0 10), true)
    | 0xD01058 => (packGo i v s, true)
    | 0xE00040 => (gctrlWrite v s, true)
    | 0xE01054 => (if s.quiescing 0xE01000 then s else verdictForce v s, true)
    | 0xE0106C => (if s.quiescing 0xE01000 then s else parkCmd v s, true)
    | 0xF01040 => (wearCtrl v s, true)
    | 0xF01044 => (wearSel v s, true)
    | 0xF01048 => (wearData v s, true)
    | _ =>
      if 0x001060 ≤ a && a < 0x001080 then
        ({ s with ctl := { s.ctl with stage := s.ctl.stage.set zero32 ((a - 0x001060) / 4) v } }, true)
      else if 0xD00060 ≤ inst0 a && inst0 a < 0xD00074 then (maltRegWrite i (offOf a) v s, true)
      else (s.putReg a v, true)

/-! ### Transfers -/

/-- A write of a protected field (02 Table 2-4, 15 R407, 10 R268, 16 Table 16-14). -/
def State.isProtected (s : State) (a : Nat) (v : W32) : Bool :=
  offOf a == 0x1C
  || (a == 0x001040 && [1, 2, 5].contains (fld v 0 8))
  || a == 0xE01054
  || (a == 0xC00048 && (let w := s.regF 0xC00044 2 6; w == 5 || w == 6 || (w == 4 && bit v 8)))
/-- An event of an implemented page. -/
def State.countPg (s : State) (pg ev : Nat) : State := if (pageRow pg).isSome then s.countEv pg ev 1 else s
/-- A write that reaches the core: what it leaves, and KCP_ACK or KCP_NAK (02 Table 2-2, R35, R60; 15 Table 15-2). -/
def hostWrite (a0 : Nat) (v meet : W32) (s : State) : State × Bool :=
  let a := a0 / 4 * 4
  let pg := pageOf a
  let o := offOf a
  let open_ := s.ctl.unlock.get (fun _ => false) pg
  let s0 := if o = 0x0C then s else s.setUnlock pg false
  if !s.krdy && a != 0x000044 && a != 0x000048 then (s0.countPg pg 0, false)
  else
    let r : State × Bool :=
      if (pageRow a).isNone then (s0, true)
      else if s.isProtected a v && !open_ then (s0.err pg 0, false)
      else if o < 0x40 then s0.headWrite pg o v meet
      else s0.bodyWrite a v meet
    if r.2 then
      (((r.1.setRegN 0x00004C (r.1.regN 0x00004C + 1)).setRegN 0x000050 a).countPg pg 4, true)
    else (r.1.countPg pg 1, false)

/-- How many ports of a class are OPEN. -/
def State.openPorts (s : State) (cls : Nat) : Nat :=
  ((List.range (portsOf cls)).filter (fun i => s.xing cls i == .opened)).length
/-- QCN_PORT_STAT (16 Table 16-9). -/
def State.portStat (s : State) (p : Nat) : Nat :=
  let m := s.macPort p
  let x := s.xing 3 p == .opened
  b2n m.up + 2 * b2n m.link + 4 * b2n x + 8 * b2n (m.link && x && !m.up)
/-- UPD_KS_USED (16 Table 16-5): KS_LEN is word 8 of a KILN record. -/
def State.ksUsed (s : State) : Nat :=
  ((usedIds 48 s.updR).map (fun u =>
    if s.uUsed u && s.uRule u == 5 && s.cState (s.uCtx u) != stFree then s.uf u 8 0 18 else 0)).sum
/-- GRD_WATCH_STAT (16 Table 16-13). -/
def State.watchStat (s : State) : Nat :=
  ((List.range 8).map (fun i =>
    let alive := (s.watch i).isSome && s.grd.heard.get (fun _ => false) i
      && s.time.ktime < s.grd.seen.get (fun _ => 0) i + 8 * hbPeriod
    2 ^ i * b2n alive + 2 ^ (8 + i) * b2n (s.grd.declared.get (fun _ => false) i))).sum
/-- DMP_STATE (16 Table 16-15). -/
def State.dmpState (s : State) : Nat := if s.dmp.power != 0 then s.dmp.power else b2n (s.live.any s.cRunnable)
/-- A register as read, without what reading it does (chapters 15 and 16). -/
def State.peek (s : State) (a : Nat) : W32 :=
  let i := instOf a
  let n (x : Nat) : W32 := BitVec.ofNat 32 x
  let wide (k : Nat) : Nat := s.ctl.wide.get (fun _ => 0) k
  if offOf a = 0x14 then s.pgStat (pageOf a)
  else match inst0 a with
  | 0x000040 => n s.busyCause
  | 0x001084 => n (b2n (s.ctl.keys.get (fun _ => none) (s.regN 0x001080)).isSome)
  | 0x002044 =>
    let c := s.regF 0x002040 0 3
    let k := s.regF 0x002040 4 6
    n (if built c k then (s.xing c k).code else 1)
  | 0x002048 => n (s.openPorts 0 + s.openPorts 1 * 2 ^ 8 + s.openPorts 2 * 2 ^ 16 + s.openPorts 3 * 2 ^ 24)
  | 0x00204C => n (s.openPorts 4 + s.openPorts 5 * 2 ^ 8)
  | 0x10006C => n (if s.tState = tHoldover then (s.time.ktime + 2 ^ 64 - s.time.holdAt) % 2 ^ 64 / 2000000 else 0)
  | 0x100078 => n (wide 0x100078)
  | 0x10007C => n (wide 0x100078 / 2 ^ 32)
  | 0x30005C => n s.hop.yields.length

  | 0x400040 => match s.hop.owner with | some c => n (c + 2 ^ 31) | none => 0
  | 0x400054 => n s.claimed
  | 0x500054 => n s.tmp.events.length
  | 0x600040 => n (wide 0x600040)
  | 0x600044 => n (wide 0x600040 / 2 ^ 32)
  | 0x600048 => n (wide 0x600048)
  | 0x60004C => n (wide 0x600048 / 2 ^ 32)
  | 0xA00058 => n s.ksUsed
  | 0xB01050 => n s.qcn.flows.length
  | 0xB03040 => n (s.portStat i)
  | 0xD00040 => n (maltFix i 0)
  | 0xD00044 => n (maltFix i 0 / 2 ^ 32)
  | 0xD00048 => n (maltFix i 1)
  | 0xD0004C => n (maltFix i 1 / 2 ^ 32)
  | 0xD00050 => n (maltFix i 2)
  | 0xD00054 => n (maltFix i 2 / 2 ^ 32)
  | 0xD00058 => n (maltFix i 3)
  | 0xD0005C => n (maltFix i 3 / 2 ^ 32)
  | 0xD00074 => n (s.ceilB i)
  | 0xD00078 => n (s.rateSum i)
  | 0xE0007C => match s.incOf (s.regN 0xE00078) with | some k => n (k + 2 ^ 31) | none => 0
  | 0xE000A0 => n s.watchStat
  | 0xF00044 => n s.dmpState
  | 0xF00048 => s.dmp.tel
  | 0xF00050 => s.dmp.hist.getD (s.regN 0xF0004C) 0
  | 0xF00060 => n s.dmp.fill
  | 0xF00064 => n (wide 0xF00064)
  | 0xF00068 => n (wide 0xF00064 / 2 ^ 32)
  | 0xF00098 =>
    n (s.dmp.level + 2 ^ 16 * b2n s.dmp.kcurt + 2 ^ 17 * b2n (s.dmp.level < 1000)
      + 2 ^ 18 * b2n (s.dmp.pace.any (fun e => e.2.isSome)))
  | 0xF0009C => n s.vreq
  | 0xF0104C => n s.wearSum
  | 0xF01050 => n (s.wearSum / 2 ^ 32)
  | 0xF0105C => n (b2n s.wearSpent)
  | _ => s.reg a
/-- The oldest of a FIFO of events: its low word, the rest of the FIFO and the high word to latch. -/
def popEv : List W64 → Option (W32 × W32 × List W64)
  | [] => none
  | x :: xs => some (x.setWidth 32, (x >>> 32).setWidth 32, xs)
/-- A read of the register space (02 R30, R47; 00 R5; 15 Tables 15-7, 15-10, 15-14; 16 R439). -/
def hostRead (a0 : Nat) (s : State) : W32 × State :=
  let a := a0 / 4 * 4
  if (pageRow a).isNone then (0, s)
  else
    match winOf a with
    | some w => s.readWin a w
    | none =>
      match a with
      | 0xF01048 => s.wearRead
      | 0x100040 => (BitVec.ofNat 32 s.time.ktime, s.setRegN 0x100044 (s.time.ktime / 2 ^ 32))
      | 0x300054 =>
        match popEv s.hop.yields with
        | none => (0, s)
        | some (lo, hi, r) => (lo, { s.setReg 0x300058 hi with hop := { s.hop with yields := r } })
      | 0x50004C =>
        match popEv s.tmp.events with
        | none => (0, s)
        | some (lo, hi, r) => (lo, { s.setReg 0x500050 hi with tmp := { s.tmp with events := r } })
      | _ =>
        match lowOf (rwPairs ++ roPairs) a with
        | some lo =>
          let p := s.pair lo
          if a = lo then (s.peek a, s.setPair lo { p with latch := some (lo + 4, s.peek (lo + 4)) })
          else match p.latch with
            | some (_, v) => (v, s.setPair lo { p with latch := none })
            | none => (s.peek a, s)
        | none =>
          if hasAcc a .rc then (s.peek a, s.setReg a 0) else (s.peek a, s)
/-- One transfer in the core, and its response; KCP_PROTOCOL when the host dropped KCP_SEL (02 R30, R31). -/
def kcpDo (q : KcpReq) (s : State) : State :=
  let (ok, rd, s1) := if q.wr then
      (let r := hostWrite q.addr.toNat q.val q.meet s; (r.2, (0 : W32), r.1))
    else (let r := hostRead q.addr.toNat s; (true, r.1, r.2))
  if q.dropped then s1.err 0x000000 8 else s1.emit (.kcp ok rd)
/-- A transfer: it pends while the KCP crossing is not aligned (02 R29, R54). -/
def kcp (q : KcpReq) (s : State) : State :=
  if s.ctl.rstLow || !s.ctl.kcpAligned then
    (if s.ctl.kcpPend.isSome then s else { s with ctl := { s.ctl with kcpPend := some q } })
  else kcpDo q s
/-- KCP_ALIGNED: the KCP crossing is aligned, and the pending transfer completes (02 R54, R59). -/
def kcpAlign (s : State) : State :=
  if s.ctl.rstLow || s.ctl.kcpAligned then s
  else
    let s1 := krdyEdge s.krdy { s with ctl := { s.ctl with kcpAligned := true, kcpPend := none } }
    match s.ctl.kcpPend with | some q => kcpDo q s1 | none => s1
/-- KCP_RESET: KCP_RST_N low for so many cycles while a transfer may be outstanding (02 R58, R59, R442): the transfer is
forgotten, but a write that has reached the core takes effect. -/
def kcpReset (cycles : Nat) (req : Option KcpReq) (reached : Bool) (s : State) : State :=
  let (yes, s1) := s.pulse 4 cycles
  if yes then
    let s2 := match req with
      | some q =>
        if q.wr && reached && !s1.ctl.rstLow && s1.ctl.kcpAligned then (hostWrite q.addr.toNat q.val q.meet s1).1 else s1
      | none => s1
    krdyEdge s2.krdy { s2 with ctl := { s2.ctl with kcpAligned := false, kcpPend := none } }
  else match req with | some q => kcp q s1 | none => s1

/-! ### The commands of the host -/

/-- A write of a register. -/
def kcpWrite (a : Nat) (v : W32) (s : State) : State := kcp ⟨true, BitVec.ofNat 24 a, v, false, 0⟩ s
/-- A read of a register. -/
def kcpRead (a : Nat) (s : State) : State := kcp ⟨false, BitVec.ofNat 24 a, 0, false, 0⟩ s
/-- A register of a page. -/
def inPage (page : Page) (o : Nat) : Nat := page.toNat * 4096 + o

/-- REGISTER_WRITE (02 R30). -/
def execRegisterWrite (addr : Addr) (val : W32) (s : State) : Host.Outcome State Fault Refusal :=
  done (kcp ⟨true, addr, val, false, 0⟩ s)
/-- KCP_SEL_DROPPED (02 R31). -/
def execKcpSelDropped (wr : Bool) (addr : Addr) (val : W32) (s : State) : Host.Outcome State Fault Refusal :=
  done (kcp ⟨wr, addr, val, true, 0⟩ s)
/-- PG_KEY (02 R35). -/
def execPgKey (page : Page) (val : W32) (s : State) : Host.Outcome State Fault Refusal :=
  done (kcpWrite (inPage page 0x0C) val s)
/-- QUIESCE (02 R34). -/
def execQuiesce (page : Page) (s : State) : Host.Outcome State Fault Refusal :=
  done (kcpWrite (inPage page 0x10) (s.reg (inPage page 0x10) ||| 2) s)
/-- QUIESCE_CLEAR (02 R34). -/
def execQuiesceClear (page : Page) (s : State) : Host.Outcome State Fault Refusal :=
  done (kcpWrite (inPage page 0x10) (s.reg (inPage page 0x10) &&& 1) s)
/-- SOFT_RESET (15 R403). -/
def execSoftReset (page : Page) (s : State) : Host.Outcome State Fault Refusal :=
  done (kcpWrite (inPage page 0x10) (s.reg (inPage page 0x10) ||| 4) s)
/-- PG_ERR_CLEAR (02 R36). -/
def execPgErrClear (page : Page) (val meet : W32) (s : State) : Host.Outcome State Fault Refusal :=
  done (kcp ⟨true, BitVec.ofNat 24 (inPage page 0x18), val, false, meet⟩ s)
/-- PG_ERR_SET (02 R36). -/
def execPgErrSet (page : Page) (val : W32) (s : State) : Host.Outcome State Fault Refusal :=
  done (kcpWrite (inPage page 0x1C) val s)
/-- PG_CNT_SEL (02 R33). -/
def execPgCntSel (page : Page) (val : W32) (s : State) : Host.Outcome State Fault Refusal :=
  done (kcpWrite (inPage page 0x28) val s)
/-- CTL_ATTN (02 R39). -/
def execCtlAttn (val meet : W32) (s : State) : Host.Outcome State Fault Refusal :=
  done (kcp ⟨true, 0x000044, val, false, meet⟩ s)
/-- CTL_ABORT (02 R45). -/
def execCtlAbort (val : W32) (s : State) : Host.Outcome State Fault Refusal := done (kcpWrite 0x000048 val s)
/-- KEY_LOAD (02 R44). -/
def execKeyLoad (ph : CmdPhase) (s : State) : Host.Outcome State Fault Refusal :=
  done (match ph with | .doorbell => kcpWrite 0x001040 1 s | .ends => keyEnds 1 s)
/-- KEY_ERASE (02 R44). -/
def execKeyErase (ph : CmdPhase) (s : State) : Host.Outcome State Fault Refusal :=
  done (match ph with | .doorbell => kcpWrite 0x001040 2 s | .ends => keyEnds 2 s)
/-- PORT_ALIGN (02 R46). -/
def execPortAlign (s : State) : Host.Outcome State Fault Refusal := done (kcpWrite 0x001040 3 s)
/-- IDENT_SCAN (13 R374). -/
def execIdentScan (ph : CmdPhase) (s : State) : Host.Outcome State Fault Refusal :=
  done (match ph with | .doorbell => kcpWrite 0x001040 4 s | .ends => scanEnds s)
/-- POWER_STATE (13 R388). -/
def execPowerState (s : State) : Host.Outcome State Fault Refusal := done (kcpWrite 0x001040 5 s)
/-- BAD_OPCODE (02 R43). -/
def execBadOpcode (op : BitVec 8) (s : State) : Host.Outcome State Fault Refusal :=
  done (kcpWrite 0x001040 (BitVec.ofNat 32 op.toNat) s)
/-- CTL_PORT_EXPECT (02 R56). -/
def execCtlPortExpect (idx : BitVec 2) (val : W32) (s : State) : Host.Outcome State Fault Refusal :=
  done (kcpWrite (0x002050 + 4 * idx.toNat) val s)
/-- KCP_RESET (02 R58). -/
def execKcpReset (cycles : Nat) (req : Option KcpReq) (reached : Bool) (s : State) : Host.Outcome State Fault Refusal :=
  done (kcpReset cycles req reached s)
/-- KCP_ALIGNED (02 R54). -/
def execKcpAligned (s : State) : Host.Outcome State Fault Refusal := done (kcpAlign s)
/-- WINDOW_DATA_READ (15 R403). -/
def execWindowDataRead (addr : Addr) (s : State) : Host.Outcome State Fault Refusal := done (kcpRead addr.toNat s)
/-- WINDOW_DATA_WRITE (15 R403). -/
def execWindowDataWrite (addr : Addr) (val : W32) (s : State) : Host.Outcome State Fault Refusal :=
  done (kcpWrite addr.toNat val s)
/-- READ_CLEAR (00 R5). -/
def execReadClear (addr : Addr) (s : State) : Host.Outcome State Fault Refusal := done (kcpRead addr.toNat s)
/-- LOAD (15 R414): word 0 of a context record through HOP_WIN_DATA. -/
def execLoad (val : W32) (s : State) : Host.Outcome State Fault Refusal := done (kcpWrite 0x300048 val s)
/-- RING_DOORBELL (02 R49). -/
def execRingDoorbell (val : W32) (s : State) : Host.Outcome State Fault Refusal := done (kcpWrite 0x30004C val s)
/-- HOP_CTX_RESET (02 R52). -/
def execHopCtxReset (val : W32) (s : State) : Host.Outcome State Fault Refusal := done (kcpWrite 0x300050 val s)
/-- TNG_Q_DB (10 R280). -/
def execTngQDb (val : W32) (s : State) : Host.Outcome State Fault Refusal := done (kcpWrite 0xC00058 val s)
/-- TNG_Q_RESET (10 R280). -/
def execTngQReset (val : W32) (s : State) : Host.Outcome State Fault Refusal := done (kcpWrite 0xC0005C val s)
/-- KEY_HI (10 R268): word 6 of a domain record through TNG_DOM_DATA. -/
def execKeyHi (val : W32) (s : State) : Host.Outcome State Fault Refusal := done (kcpWrite 0xC00048 val s)
/-- KEY_CLR (10 R268): word 4 of a domain record. -/
def execKeyClr (val : W32) (s : State) : Host.Outcome State Fault Refusal := done (kcpWrite 0xC00048 val s)
/-- ARRIVAL_COUNT_CLEAR (16 R432): either half of an arrival count. -/
def execArrivalCountClear (val : W32) (s : State) : Host.Outcome State Fault Refusal := done (kcpWrite 0xC00048 val s)
/-- PARTITION_ENABLE (11 R291): word 0 of a partition record through MLT_PART_DATA. -/
def execPartitionEnable (inst : BitVec 4) (val : W32) (s : State) : Host.Outcome State Fault Refusal :=
  done (kcpWrite (mltReg inst.toNat 0x1048) val s)
/-- PARTITION_DISABLE (11 R311). -/
def execPartitionDisable (inst : BitVec 4) (val : W32) (s : State) : Host.Outcome State Fault Refusal :=
  done (kcpWrite (mltReg inst.toNat 0x1048) val s)
/-- MLT_PACK_GO (11 R302). -/
def execMltPackGo (inst : BitVec 4) (val : W32) (s : State) : Host.Outcome State Fault Refusal :=
  done (kcpWrite (mltReg inst.toNat 0x1058) val s)
/-- REGULATOR_WRITE (11 R309). -/
def execRegulatorWrite (addr : Addr) (val : W32) (s : State) : Host.Outcome State Fault Refusal :=
  done (kcpWrite addr.toNat val s)
/-- PARK (12 R353). -/
def execPark (val : W32) (s : State) : Host.Outcome State Fault Refusal := done (kcpWrite 0xE0106C val s)
/-- WAKE (12 R353). -/
def execWake (val : W32) (s : State) : Host.Outcome State Fault Refusal := done (kcpWrite 0xE0106C val s)
/-- GRD_VERDICT_FORCE (16 R437). -/
def execGrdVerdictForce (val : W32) (s : State) : Host.Outcome State Fault Refusal := done (kcpWrite 0xE01054 val s)
/-- SYNC_EN (13 R364). -/
def execSyncEn (val : W32) (s : State) : Host.Outcome State Fault Refusal := done (kcpWrite 0x10004C val s)
/-- TIME_HOLD_MAX (13 R367). -/
def execTimeHoldMax (val : W32) (s : State) : Host.Outcome State Fault Refusal := done (kcpWrite 0x100064 val s)
/-- IDEN_CHECK_GO (13 R380). -/
def execIdenCheckGo (val : W32) (s : State) : Host.Outcome State Fault Refusal := done (kcpWrite 0x201068 val s)
/-- DMP_WEAR_SEL (16 R439). -/
def execDmpWearSel (val : W32) (s : State) : Host.Outcome State Fault Refusal := done (kcpWrite 0xF01044 val s)
/-- DMP_WEAR_DATA (16 R439). -/
def execDmpWearData (val : W32) (s : State) : Host.Outcome State Fault Refusal := done (kcpWrite 0xF01048 val s)
/-- LOADED (13 R391). -/
def execLoaded (val : W32) (s : State) : Host.Outcome State Fault Refusal := done (kcpWrite 0xF01040 val s)
/-- HB_EN (12 R348). -/
def execHbEn (val : W32) (s : State) : Host.Outcome State Fault Refusal := done (kcpWrite 0xE00040 val s)

end Sys2Proof.Machine
end

