-- ==== Sys2Proof/Machine/Dispatch.lean ====
section
/-! DEFINITION. The dispatch of a command to its meaning: one arm for each constructor of Instr. -/
namespace Sys2Proof.Machine
open Sys2Proof

/-- The effect of a command on everything but the queue. -/
def exec (i : Instr) (s : State) : Host.Outcome State Fault Refusal :=
  match i with
  | .registerWrite a0 a1 => Sys2Proof.Machine.execRegisterWrite a0 a1 s
  | .kcpSelDropped a0 a1 a2 => Sys2Proof.Machine.execKcpSelDropped a0 a1 a2 s
  | .pgKey a0 a1 => Sys2Proof.Machine.execPgKey a0 a1 s
  | .quiesce a0 => Sys2Proof.Machine.execQuiesce a0 s
  | .quiesceClear a0 => Sys2Proof.Machine.execQuiesceClear a0 s
  | .quiesced a0 => Sys2Proof.Machine.execQuiesced a0 s
  | .softReset a0 => Sys2Proof.Machine.execSoftReset a0 s
  | .pgErrClear a0 a1 a2 => Sys2Proof.Machine.execPgErrClear a0 a1 a2 s
  | .pgErrSet a0 a1 => Sys2Proof.Machine.execPgErrSet a0 a1 s
  | .pgCntSel a0 a1 => Sys2Proof.Machine.execPgCntSel a0 a1 s
  | .ctlAttn a0 a1 => Sys2Proof.Machine.execCtlAttn a0 a1 s
  | .ctlAbort a0 => Sys2Proof.Machine.execCtlAbort a0 s
  | .keyLoad a0 => Sys2Proof.Machine.execKeyLoad a0 s
  | .keyErase a0 => Sys2Proof.Machine.execKeyErase a0 s
  | .portAlign => Sys2Proof.Machine.execPortAlign s
  | .identScan a0 => Sys2Proof.Machine.execIdentScan a0 s
  | .powerState => Sys2Proof.Machine.execPowerState s
  | .badOpcode a0 => Sys2Proof.Machine.execBadOpcode a0 s
  | .powerStateDone => Sys2Proof.Machine.execPowerStateDone s
  | .ctlPortExpect a0 a1 => Sys2Proof.Machine.execCtlPortExpect a0 a1 s
  | .kcpReset a0 a1 a2 => Sys2Proof.Machine.execKcpReset a0 a1 a2 s
  | .kcpAligned => Sys2Proof.Machine.execKcpAligned s
  | .coldReset => Sys2Proof.Machine.execColdReset s
  | .warmReset a0 => Sys2Proof.Machine.execWarmReset a0 s
  | .sramInitDone => Sys2Proof.Machine.execSramInitDone s
  | .alignPresence a0 => Sys2Proof.Machine.execAlignPresence a0 s
  | .alignFrequency a0 a1 a2 => Sys2Proof.Machine.execAlignFrequency a0 a1 a2 s
  | .alignFill a0 a1 a2 => Sys2Proof.Machine.execAlignFill a0 a1 a2 s
  | .alignLock a0 a1 a2 => Sys2Proof.Machine.execAlignLock a0 a1 a2 s
  | .windowDataRead a0 => Sys2Proof.Machine.execWindowDataRead a0 s
  | .windowDataWrite a0 a1 => Sys2Proof.Machine.execWindowDataWrite a0 a1 s
  | .readClear a0 => Sys2Proof.Machine.execReadClear a0 s
  | .load a0 => Sys2Proof.Machine.execLoad a0 s
  | .ringDoorbell a0 => Sys2Proof.Machine.execRingDoorbell a0 s
  | .contextReady a0 => Sys2Proof.Machine.execContextReady a0 s
  | .hopCtxReset a0 => Sys2Proof.Machine.execHopCtxReset a0 s
  | .contextReset a0 => Sys2Proof.Machine.execContextReset a0 s
  | .descriptorFetch a0 => Sys2Proof.Machine.execDescriptorFetch a0 s
  | .anvilGrant a0 => Sys2Proof.Machine.execAnvilGrant a0 s
  | .accountingWindowEnd a0 => Sys2Proof.Machine.execAccountingWindowEnd a0 s
  | .nop a0 => Sys2Proof.Machine.execNop a0 s
  | .step a0 => Sys2Proof.Machine.execStep a0 s
  | .stepEnd a0 => Sys2Proof.Machine.execStepEnd a0 s
  | .waitCnt a0 => Sys2Proof.Machine.execWaitCnt a0 s
  | .waitCntMet a0 => Sys2Proof.Machine.execWaitCntMet a0 s
  | .writeImm a0 => Sys2Proof.Machine.execWriteImm a0 s
  | .vop a0 a1 => Sys2Proof.Machine.execVop a0 a1 s
  | .vred a0 a1 => Sys2Proof.Machine.execVred a0 a1 s
  | .sort a0 => Sys2Proof.Machine.execSort a0 s
  | .sortDone a0 => Sys2Proof.Machine.execSortDone a0 s
  | .tload a0 a1 => Sys2Proof.Machine.execTload a0 a1 s
  | .tstore a0 a1 => Sys2Proof.Machine.execTstore a0 a1 s
  | .tbcast a0 a1 => Sys2Proof.Machine.execTbcast a0 a1 s
  | .mmt a0 a1 => Sys2Proof.Machine.execMmt a0 a1 s
  | .badOp a0 => Sys2Proof.Machine.execBadOp a0 s
  | .descriptorComplete a0 => Sys2Proof.Machine.execDescriptorComplete a0 s
  | .uApply a0 a1 => Sys2Proof.Machine.execUApply a0 a1 s
  | .uPublish a0 => Sys2Proof.Machine.execUPublish a0 s
  | .kDelta a0 a1 => Sys2Proof.Machine.execKDelta a0 a1 s
  | .uCaskOut a0 a1 => Sys2Proof.Machine.execUCaskOut a0 a1 s
  | .uCaskIn a0 a1 => Sys2Proof.Machine.execUCaskIn a0 a1 s
  | .leafTile a0 a1 => Sys2Proof.Machine.execLeafTile a0 a1 s
  | .groupDelivery a0 a1 => Sys2Proof.Machine.execGroupDelivery a0 a1 s
  | .leafStall => Sys2Proof.Machine.execLeafStall s
  | .patternSource a0 => Sys2Proof.Machine.execPatternSource a0 s
  | .quantiseBlock a0 a1 => Sys2Proof.Machine.execQuantiseBlock a0 a1 s
  | .originBlockSend a0 a1 => Sys2Proof.Machine.execOriginBlockSend a0 a1 s
  | .data => Sys2Proof.Machine.execData s
  | .blockEmit a0 a1 a2 => Sys2Proof.Machine.execBlockEmit a0 a1 a2 s
  | .ownerFront => Sys2Proof.Machine.execOwnerFront s
  | .release a0 => Sys2Proof.Machine.execRelease a0 s
  | .ack => Sys2Proof.Machine.execAck s
  | .credit => Sys2Proof.Machine.execCredit s
  | .egressGrant a0 => Sys2Proof.Machine.execEgressGrant a0 s
  | .retryTimeout => Sys2Proof.Machine.execRetryTimeout s
  | .lifetimeEnd => Sys2Proof.Machine.execLifetimeEnd s
  | .portDown a0 => Sys2Proof.Machine.execPortDown a0 s
  | .linkUp a0 => Sys2Proof.Machine.execLinkUp a0 s
  | .portUp a0 => Sys2Proof.Machine.execPortUp a0 s
  | .reassemblyTimeout => Sys2Proof.Machine.execReassemblyTimeout s
  | .coolingExpiry => Sys2Proof.Machine.execCoolingExpiry s
  | .genCoolingEnd => Sys2Proof.Machine.execGenCoolingEnd s
  | .kx1Frame a0 a1 => Sys2Proof.Machine.execKx1Frame a0 a1 s
  | .tngQDb a0 => Sys2Proof.Machine.execTngQDb a0 s
  | .tngQReset a0 => Sys2Proof.Machine.execTngQReset a0 s
  | .queueNop a0 => Sys2Proof.Machine.execQueueNop a0 s
  | .queueWrite a0 a1 => Sys2Proof.Machine.execQueueWrite a0 a1 s
  | .queueRead a0 => Sys2Proof.Machine.execQueueRead a0 s
  | .waitLcnt a0 => Sys2Proof.Machine.execWaitLcnt a0 s
  | .waitLcntMet a0 => Sys2Proof.Machine.execWaitLcntMet a0 s
  | .waitRcnt a0 => Sys2Proof.Machine.execWaitRcnt a0 s
  | .queuePoll a0 => Sys2Proof.Machine.execQueuePoll a0 s
  | .pubchk a0 => Sys2Proof.Machine.execPubchk a0 s
  | .tongsWrite => Sys2Proof.Machine.execTongsWrite s
  | .tongsWriteDone => Sys2Proof.Machine.execTongsWriteDone s
  | .tongsRead a0 => Sys2Proof.Machine.execTongsRead a0 s
  | .cntRead => Sys2Proof.Machine.execCntRead s
  | .rresp => Sys2Proof.Machine.execRresp s
  | .cntResp => Sys2Proof.Machine.execCntResp s
  | .nak => Sys2Proof.Machine.execNak s
  | .doneExpiry => Sys2Proof.Machine.execDoneExpiry s
  | .keyHi a0 => Sys2Proof.Machine.execKeyHi a0 s
  | .keyClr a0 => Sys2Proof.Machine.execKeyClr a0 s
  | .arrivalCountClear a0 => Sys2Proof.Machine.execArrivalCountClear a0 s
  | .partitionEnable a0 a1 => Sys2Proof.Machine.execPartitionEnable a0 a1 s
  | .partitionDisable a0 a1 => Sys2Proof.Machine.execPartitionDisable a0 a1 s
  | .initDone a0 a1 => Sys2Proof.Machine.execInitDone a0 a1 s
  | .mltPackGo a0 a1 => Sys2Proof.Machine.execMltPackGo a0 a1 s
  | .packPass1End a0 => Sys2Proof.Machine.execPackPass1End a0 s
  | .packEnd a0 => Sys2Proof.Machine.execPackEnd a0 s
  | .clientRead a0 a1 a2 a3 => Sys2Proof.Machine.execClientRead a0 a1 a2 a3 s
  | .clientWrite a0 a1 a2 => Sys2Proof.Machine.execClientWrite a0 a1 a2 s
  | .refill => Sys2Proof.Machine.execRefill s
  | .channelAdmit a0 a1 => Sys2Proof.Machine.execChannelAdmit a0 a1 s
  | .regulatorWrite a0 a1 => Sys2Proof.Machine.execRegulatorWrite a0 a1 s
  | .heartbeatPeriod => Sys2Proof.Machine.execHeartbeatPeriod s
  | .heartbeat => Sys2Proof.Machine.execHeartbeat s
  | .heartbeatTimeout => Sys2Proof.Machine.execHeartbeatTimeout s
  | .failrep => Sys2Proof.Machine.execFailrep s
  | .vupSend a0 => Sys2Proof.Machine.execVupSend a0 s
  | .vup => Sys2Proof.Machine.execVup s
  | .vdown => Sys2Proof.Machine.execVdown s
  | .scalesReady a0 => Sys2Proof.Machine.execScalesReady a0 s
  | .vwaitExpiry a0 => Sys2Proof.Machine.execVwaitExpiry a0 s
  | .vquery => Sys2Proof.Machine.execVquery s
  | .adopt => Sys2Proof.Machine.execAdopt s
  | .incarn => Sys2Proof.Machine.execIncarn s
  | .recoveryTransfer a0 a1 => Sys2Proof.Machine.execRecoveryTransfer a0 a1 s
  | .readySend => Sys2Proof.Machine.execReadySend s
  | .ready => Sys2Proof.Machine.execReady s
  | .resume => Sys2Proof.Machine.execResume s
  | .resync => Sys2Proof.Machine.execResync s
  | .join => Sys2Proof.Machine.execJoin s
  | .locksig => Sys2Proof.Machine.execLocksig s
  | .lslist => Sys2Proof.Machine.execLslist s
  | .park a0 => Sys2Proof.Machine.execPark a0 s
  | .wake a0 => Sys2Proof.Machine.execWake a0 s
  | .grdVerdictForce a0 => Sys2Proof.Machine.execGrdVerdictForce a0 s
  | .syncInterval a0 a1 => Sys2Proof.Machine.execSyncInterval a0 a1 s
  | .sync a0 a1 a2 a3 => Sys2Proof.Machine.execSync a0 a1 a2 a3 s
  | .followUp a0 a1 a2 a3 a4 => Sys2Proof.Machine.execFollowUp a0 a1 a2 a3 a4 s
  | .delayReq a0 a1 a2 a3 => Sys2Proof.Machine.execDelayReq a0 a1 a2 a3 s
  | .delayResp a0 a1 a2 a3 => Sys2Proof.Machine.execDelayResp a0 a1 a2 a3 s
  | .announce => Sys2Proof.Machine.execAnnounce s
  | .syncLoss a0 => Sys2Proof.Machine.execSyncLoss a0 s
  | .holdMaxReached => Sys2Proof.Machine.execHoldMaxReached s
  | .syncEn a0 => Sys2Proof.Machine.execSyncEn a0 s
  | .timeHoldMax a0 => Sys2Proof.Machine.execTimeHoldMax a0 s
  | .ktick => Sys2Proof.Machine.execKtick s
  | .scanDone a0 a1 => Sys2Proof.Machine.execScanDone a0 a1 s
  | .ksclStuck a0 => Sys2Proof.Machine.execKsclStuck a0 s
  | .ksdaStuck a0 => Sys2Proof.Machine.execKsdaStuck a0 s
  | .autoScan => Sys2Proof.Machine.execAutoScan s
  | .idenCheckGo a0 => Sys2Proof.Machine.execIdenCheckGo a0 s
  | .checkDone => Sys2Proof.Machine.execCheckDone s
  | .telemetrySample a0 a1 => Sys2Proof.Machine.execTelemetrySample a0 a1 s
  | .wearAdvance => Sys2Proof.Machine.execWearAdvance s
  | .kcurtChange a0 => Sys2Proof.Machine.execKcurtChange a0 s
  | .gridEvent => Sys2Proof.Machine.execGridEvent s
  | .dmpWearSel a0 => Sys2Proof.Machine.execDmpWearSel a0 s
  | .dmpWearData a0 => Sys2Proof.Machine.execDmpWearData a0 s
  | .loaded a0 => Sys2Proof.Machine.execLoaded a0 s
  | .segment a0 a1 => Sys2Proof.Machine.execSegment a0 a1 s
  | .hbEn a0 => Sys2Proof.Machine.execHbEn a0 s
  | .resetRelease => Sys2Proof.Machine.execResetRelease s
  | .localWriteAck => Sys2Proof.Machine.execLocalWriteAck s

end Sys2Proof.Machine
end

