-- ==== Sys2Proof/WellFormed.lean ====
section
/-! DEFINITION. Well-formed commands: the operands that the hardware can present. A register address is a word address (02
Table 2-1), a row that stands for one field's write carries that field, a crossing is built, and what a unit reads has its
size. The meanings are total: an ill-formed command is one that no host, port or module can send. -/
namespace Sys2Proof
open Sys2Proof.Machine

/-- A word address of the control port: bits [1:0] are zero (02 Table 2-1). -/
def addrWf (a : Addr) : Bool := a.toNat % 4 == 0
/-- A register with an access code. -/
def regHas (a : Nat) (k : Acc) : Bool := match regRow a with | some r => r.acc == k | none => false
/-- The DATA registers of the windows (02 R32). -/
def dataReg (a : Nat) : Bool :=
  (pageRow a).isSome && [0x300048, 0x101044, 0x200054, 0x500048, 0x700048, 0x800048, 0x900048, 0xA00048, 0xC00048,
    0xC00054, 0xD01048, 0xE01048, 0xE01050, 0xE0007C, 0xF01048].contains (inst0 a)
/-- A regulator register of a Malt instance (16 Table 16-11). -/
def regulatorReg (a : Nat) : Bool := [0xD00060, 0xD00064, 0xD00068, 0xD0006C, 0xD00070].contains (inst0 a)
/-- A counted crossing that is built: leaf, Tun, MAC or Malt (02 Table 2-8). -/
def countedPort (cls : BitVec 3) (idx : BitVec 6) : Bool :=
  cls.toNat == 1 || ((cls.toNat == 2 || cls.toNat == 3 || cls.toNat == 4) && idx.toNat < 16)
/-- One transfer. -/
def KcpReq.wf (q : KcpReq) : Bool := addrWf q.addr
/-- A PTP timestamp (13 Table 13-1). -/
def PtpTime.wf (t : PtpTime) : Bool := t.ns.toNat < 10 ^ 9
/-- The answers of one module (13 R374 to R376). -/
def Module.wf (m : Module) : Bool :=
  m.oui.length == 3 && m.part.length == 16 && m.serial.length == 16 && m.record.length == 128
/-- A telemetry word: its reserved bits are zero (13 R382). -/
def telemetryWf (w : W32) : Bool := (w.toNat >>> 26) % 32 == 0

/-- A command that the hardware can meet. -/
def Instr.wf : Instr → Bool
  | .registerWrite a _ => addrWf a
  | .kcpSelDropped _ a _ => addrWf a
  | .badOpcode op => op.toNat == 0 || 5 < op.toNat
  | .kcpReset _ q _ => match q with | some r => r.wf | none => true
  | .alignFrequency c i _ => countedPort c i
  | .alignFill c i ts => countedPort c i && ts.length == 8
  | .alignLock c i _ => countedPort c i
  | .windowDataRead a => addrWf a && dataReg a.toNat
  | .windowDataWrite a _ => addrWf a && dataReg a.toNat
  | .readClear a => addrWf a && regHas a.toNat .rc
  | .load v => v.getLsbD 3
  | .keyClr v => v.getLsbD 8
  | .partitionEnable _ v => v.getLsbD 0
  | .partitionDisable _ v => !v.getLsbD 0
  | .regulatorWrite a _ => addrWf a && regulatorReg a.toNat
  | .park v => !v.getLsbD 12
  | .wake v => v.getLsbD 12
  | .initDone _ p => p.toNat != 0
  | .leafTile _ bs => [544, 1056, 2080].contains bs.length
  | .clientRead _ _ n _ => n.toNat != 0
  | .clientWrite _ _ bs => bs != []
  | .scanDone ms _ => ms.all Module.wf
  | .followUp _ _ _ t _ => t.wf
  | .delayResp _ _ _ t => t.wf
  | .telemetrySample w _ => telemetryWf w
  | _ => true

end Sys2Proof
end

