-- ==== Sys2Proof/Safety.lean ====
section
/-! DEFINITION. What counts as a safe run, in the terms that statements use: the invariant of every state, the condition under
which the control port serves the host, and what an acknowledged or refused write adds. -/
namespace Sys2Proof.Machine
open Sys2Proof

/-- The invariant of every state: package memory is in its canonical form. -/
def State.Inv (s : State) : Prop := Memory.wf s.mem = true
/-- A step is safe where it answers a next state. -/
def Safe (s : State) : Prop := ∃ t, step s = .next t

/-- The control port serves a transfer at once: no reset, the KCP crossing aligned (02 R29, R54). -/
def State.kcpUp (s : State) : Bool := !s.ctl.rstLow && s.ctl.kcpAligned
/-- A write is not refused for KRDY = 0: KRDY is high (02 R37). -/
def State.hostUp (s : State) : Bool := s.ctl.kcpAligned && s.krdy

/-- What an acknowledged write of address `a` adds to its effect (02 R30, R60, 15 R405): CTL_WRCNT advances,
CTL_LASTWR holds the address, page event 0x04, KCP_ACK. -/
def State.acked (s : State) (a : Nat) : State :=
  (((s.setRegN 0x00004C (s.regN 0x00004C + 1)).setRegN 0x000050 a).countPg (pageOf a) 4).emit (.kcp true 0)
/-- What a write that completes with KCP_NAK adds: page event `ev` and KCP_NAK. -/
def State.naked (s : State) (a ev : Nat) : State := (s.countPg (pageOf a) ev).emit (.kcp false 0)
/-- Any write that reaches a page but one of PG_KEY locks the page again (02 R35). -/
def State.locked (s : State) (a : Nat) : State := s.setUnlock (pageOf a) false
/-- Registers whose write does something besides storing a value, at instance 0: commands, doorbells, resets, key staging,
regulators, CTL_PORT_EXPECT, GRD_WATCH and the curtailment levels. -/
def actingReg (a : Nat) : Bool :=
  [0x000044, 0x000048, 0x001040, 0x10004C, 0x100064, 0x201068, 0x30004C, 0x300050, 0xC00058, 0xC0005C, 0xD01058, 0xE00040,
    0xE01054, 0xE0106C, 0xF01040, 0xF01044, 0xF01048, 0xF0007C, 0xF00080].contains a
  || decide (0x001060 ≤ a ∧ a < 0x001080) || decide (0xD00060 ≤ a ∧ a < 0xD00074) || decide (0x002050 ≤ a ∧ a < 0x002060)
  || decide (0xE00080 ≤ a ∧ a < 0xE000A0)
/-- A register that only holds the value written (00 R5 RW, RWS): no window, no half of a pair, nothing that acts. -/
def plainReg (a : Nat) : Bool :=
  (winOf a).isNone && (hasAcc a .rw || hasAcc a .rws) && (lowOf rwPairs a).isNone && !actingReg (inst0 a)
    && (dataOf a).isNone

end Sys2Proof.Machine
end

