-- ==== Sys2Proof/Certificates/Slice0/Obligations.lean ====
section
/-! DEFINITION. The statements about the model, for the provers: one definition for each entry of OBLIGATIONS.json. -/
open Sys2Proof Sys2Proof.Machine

/-- A write of a register that only holds a value stores its listed bits and is acknowledged. REGISTER_WRITE and KCP_SEL_DROPPED
complete. (R30, R31, R60, R404, 00 R5) -/
def Obligations.HostWriteOfPlainRegister : Prop :=
  ∀ (s : State) (a : Addr) (v : W32) (r : RegRow), s.hostUp = true → a.toNat % 4 = 0 → regRow a.toNat = some r →
    plainReg a.toNat = true → s.refuses a.toNat (masked r.mask v).toNat = none →
    exec (.registerWrite a v) s = .next (((s.locked a.toNat).setReg a.toNat (masked r.mask v)).acked a.toNat)
    ∧ exec (.kcpSelDropped true a v) s = .next ((((((s.locked a.toNat).setReg a.toNat (masked r.mask v)).setRegN 0x00004C
        ((((s.locked a.toNat).setReg a.toNat (masked r.mask v)).regN 0x00004C) + 1)).setRegN 0x000050 a.toNat).countPg
          (pageOf a.toNat) 4).err 0x000000 8)

/-- A write while KRDY is low, and a protected write of a locked page, complete with KCP_NAK. The two NAK cases of Table 2-2 that
no page adds. (R30, R35, 02 Table 2-2, R404) -/
def Obligations.WritesRefused : Prop :=
  ∀ (s : State) (a : Addr) (v : W32), a.toNat % 4 = 0 → offOf a.toNat ≠ 0x0C →
    (s.kcpUp = true → s.krdy = false → a.toNat ≠ 0x000044 → a.toNat ≠ 0x000048 →
      exec (.registerWrite a v) s = .next ((s.locked a.toNat).naked a.toNat 0))
    ∧ (s.hostUp = true → (pageRow a.toNat).isSome = true → s.isProtected a.toNat v = true →
      s.ctl.unlock.get (fun _ => false) (pageOf a.toNat) = false →
      exec (.registerWrite a v) s = .next (((s.locked a.toNat).err (pageOf a.toNat) 0).naked a.toNat 1))

/-- PG_KEY unlocks or locks a page, PG_ERR_SET raises error bits, PG_CNT_SEL selects and clears the event counter. PG_KEY,
PG_ERR_SET and PG_CNT_SEL complete. (R33, R35, R36, 02 Table 2-4) -/
def Obligations.PageKeyErrorSetAndCounterSelect : Prop :=
  ∀ (s : State) (page : Page) (v : W32), s.hostUp = true → (pageRow (page.toNat * 4096)).isSome = true →
    let pg := page.toNat * 4096
    exec (.pgKey page v) s = .next ((if fld v 0 16 = 0xC3A5 then s.setUnlock pg true
      else (s.setUnlock pg false).err pg 0).acked (pg + 0x0C))
    ∧ (s.ctl.unlock.get (fun _ => false) pg = true →
      exec (.pgErrSet page v) s = .next (((s.setUnlock pg false).raise pg v.toNat).acked (pg + 0x1C)))
    ∧ exec (.pgCntSel page v) s =
      .next ((((s.setUnlock pg false).setRegN (pg + 0x28) (v.toNat % 256)).setRegN (pg + 0x2C) 0).acked (pg + 0x28))

/-- QUIESCE, its end, and the clearing of QUIESCE, on every page. QUIESCE, QUIESCE_CLEAR and QUIESCED complete. The codes of
PG_STAT are the reading of log entry 22. (R34, 02 Table 2-4, 15 Table 15-1, 16 Table 16-1) -/
def Obligations.QuiesceAndItsEnd : Prop :=
  ∀ (s : State) (page : Page),
    let pg := page.toNat * 4096
    let u := s.setUnlock pg false
    (s.hostUp = true → (pageRow pg).isSome = true → s.quiescing pg = false → bit (s.reg (pg + 0x10)) 2 = false →
      exec (.quiesce page) s = .next (((u.setReg (pg + 0x10) ((s.reg (pg + 0x10) ||| 2) &&& 3)).setRegN (pg + 0x14)
        (if atOnce pg then 0x52 else 0x40)).acked (pg + 0x10)))
    ∧ (s.hostUp = true → (pageRow pg).isSome = true → s.quiescing pg = true →
      exec (.quiesceClear page) s = .next (((u.setReg (pg + 0x10) ((s.reg (pg + 0x10) &&& 1) &&& 3)).quiesceOff pg).acked
        (pg + 0x10)))
    ∧ (pg ≠ 0x101000 → pg ≠ 0x200000 → pg ≠ 0x201000 → s.quiesceOff pg = s.setRegN (pg + 0x14) 0x20)
    ∧ (s.quiescing pg = true → fld (s.reg (pg + 0x14)) 4 4 = 4 → s.inFlight pg = false →
      exec (.quiesced page) s = .next (s.setRegN (pg + 0x14) 0x52))

/-- SOFT_RESET resets a quiesced page's registers but not the kept ones, and is refused on any other page. SOFT_RESET completes.
(R34, R35, R403, 02 Table 2-4, 02 Table 2-2) -/
def Obligations.SoftResetOfAPage : Prop :=
  ∀ (s : State) (page : Page), s.hostUp = true → (pageRow (page.toNat * 4096)).isSome = true →
    let pg := page.toNat * 4096
    (s.quiesced pg = true → ∃ t, exec (.softReset page) s = .next t
      ∧ (∀ a, pageOf a = pg → a ≠ 0x00004C → a ≠ 0x000050 → offOf a ≠ 0x2C →
        t.reg a = if keepReg a then s.reg a else regReset a)
      ∧ (∀ a, pageOf a ≠ pg → a ≠ 0x00004C → a ≠ 0x000050 → a ≠ 0x00002C → t.reg a = s.reg a)
      ∧ t.ctl.unlock.get (fun _ => false) pg = false ∧ t.mem = s.mem ∧ t.ctxR = s.ctxR ∧ t.polR = s.polR ∧ t.updR = s.updR
      ∧ t.domR = s.domR ∧ t.tqR = s.tqR ∧ t.partR = s.partR ∧ t.grdR = s.grdR)
    ∧ (s.quiesced pg = false →
      exec (.softReset page) s = .next (((s.setUnlock pg false).err pg 1).naked (pg + 0x10) 1))

/-- While KRDY is 0 only CTL_ATTN and CTL_ABORT are written; every other write completes with KCP_NAK. (R40) -/
def Obligations.OnlyAttentionAndAbortWhileBusy : Prop :=
  ∀ (s : State) (a : Addr) (v : W32), a.toNat % 4 = 0 → s.kcpUp = true → s.krdy = false → ∃ t, exec (.registerWrite a v) s = .next t
    ∧ (a.toNat = 0x000044 ∨ a.toNat = 0x000048 → t.out.head? = some (.kcp true 0)
      ∧ t.reg 0x00004C = BitVec.ofNat 32 (s.regN 0x00004C + 1))
    ∧ (a.toNat ≠ 0x000044 → a.toNat ≠ 0x000048 → t.out.head? = some (.kcp false 0)
      ∧ (∀ x, x ≠ pageOf a.toNat + 0x2C → t.reg x = s.reg x) ∧ t.mem = s.mem ∧ t.ctxR = s.ctxR ∧ t.ptR = s.ptR ∧ t.polR = s.polR
      ∧ t.bslR = s.bslR ∧ t.pckR = s.pckR ∧ t.mshR = s.mshR ∧ t.updR = s.updR ∧ t.domR = s.domR ∧ t.tqR = s.tqR
      ∧ t.partR = s.partR ∧ t.grdR = s.grdR ∧ t.ctl.keys = s.ctl.keys)

/-- PG_ERR_CLEAR clears the bits written, a bit that an event sets in the same hc stays, and PG_ERR_FIRST clears with the last
bit. PG_ERR_CLEAR completes. (R36, R39, 02 Table 2-4) -/
def Obligations.ErrorBitsClear : Prop :=
  ∀ (s : State) (page : Page) (val meet : W32) (p : PageRow), s.hostUp = true → pageRow (page.toNat * 4096) = some p →
    s.regN (page.toNat * 4096 + 0x18) ≠ 0 →
    let pg := page.toNat * 4096
    let old := s.regN (pg + 0x18)
    let new := (old &&& (2 ^ 32 - 1 - val.toNat)) ||| (meet.toNat &&& p.err)
    ∃ t, exec (.pgErrClear page val meet) s = .next t ∧ t.regN (pg + 0x18) = new
      ∧ (new = 0 → t.regN (pg + 0x24) = 0) ∧ (new ≠ 0 → t.reg (pg + 0x24) = s.reg (pg + 0x24))
      ∧ (∀ a, a ≠ pg + 0x18 → a ≠ pg + 0x24 → a ≠ pg + 0x2C → a ∉ [0x2C, 0x44, 0x4C, 0x50, 0x400050, 0x500058, 0x800050,
          0xC00074, 0xE01060] → t.reg a = s.reg a)
      ∧ t.mem = s.mem ∧ t.ctxR = s.ctxR ∧ t.polR = s.polR ∧ t.updR = s.updR ∧ t.domR = s.domR ∧ t.tqR = s.tqR
      ∧ t.partR = s.partR ∧ t.grdR = s.grdR

/-- PG_ERR_FIRST records the first error of a page, and a routed error that rises sets the attention bit of its subsystem.
CTL_ATTN completes. (R39) -/
def Obligations.AttentionRisesWithARoutedError : Prop :=
  (∀ (s : State) (pg bits : Nat) (p : PageRow), pageRow pg = some p → pg % 4096 = 0 → pg < 2 ^ 24 → 
    let m := bits &&& p.err
    let old := s.regN (pg + 0x18)
    (s.raise pg bits).regN (pg + 0x18) = old ||| m
    ∧ (s.raise pg bits).regN (pg + 0x24) =
      (if old = 0 ∧ m ≠ 0 then 2 ^ 31 + lowBit m * 2 ^ 24 + nfld s.time.ktime 10 24 else s.regN (pg + 0x24))
    ∧ (s.raise pg bits).regN 0x000044 =
      (if m &&& (old ^^^ 0xFFFFFFFF) &&& s.regN (pg + 0x20) ≠ 0 then s.regN 0x000044 ||| 2 ^ subOf pg else s.regN 0x000044))
  ∧ (∀ (s : State) (val meet : W32), s.kcpUp = true → ∃ t, exec (.ctlAttn val meet) s = .next t
      ∧ t.regN 0x000044 = (s.regN 0x000044 &&& (2 ^ 32 - 1 - val.toNat)) ||| meet.toNat % 2 ^ 16
      ∧ t.out.head? = some (.kcp true 0) ∧ (∀ a, a ∉ [0x2C, 0x44, 0x4C, 0x50] → t.reg a = s.reg a) ∧ t.mem = s.mem)

/-- A write of CTL_CMD starts the command it names, or ends it at once where it can do nothing. KEY_LOAD, KEY_ERASE, PORT_ALIGN,
IDENT_SCAN, POWER_STATE and BAD_OPCODE complete at their doorbell; `cmdStart`, `cmdEnd`, `alignCmd` and `powerCmd` are
described by the statements that follow. (R43, R44, R46, R388, 02 Table 2-6) -/
def Obligations.ControlCommandsStart : Prop :=
  ∀ (s : State) (op : BitVec 8), s.hostUp = true → bit (s.reg 0x001010) 1 = false →
    let u := s.setUnlock 0x001000 false
    let unlocked := s.ctl.unlock.get (fun _ => false) 0x001000 = true
    let a := s.reg 0x001044
    (unlocked → exec (.keyLoad .doorbell) s = .next ((if s.slotInUse (fld a 0 12) then (u.cmdStart 1).cmdEnd 4
      else u.cmdStart 1).acked 0x001040))
    ∧ (unlocked → exec (.keyErase .doorbell) s = .next ((if s.slotInUse (fld a 0 12) then (u.cmdStart 2).cmdEnd 4
      else u.cmdStart 2).acked 0x001040))
    ∧ exec .portAlign s = .next (((u.cmdStart 3).alignCmd (fld a 0 3) (fld a 4 6)).acked 0x001040)
    ∧ exec (.identScan .doorbell) s = .next ((u.cmdStart 4).acked 0x001040)
    ∧ (unlocked → exec .powerState s = .next (((u.cmdStart 5).powerCmd (fld a 0 2)).acked 0x001040))
    ∧ (op.toNat = 0 ∨ 5 < op.toNat → exec (.badOpcode op) s = .next (((u.cmdStart op.toNat).cmdEnd 2).acked 0x001040))

/-- KEY_LOAD and KEY_ERASE change exactly the slot they name when they end, and no slot that a context or a partition has come to
use meanwhile; IDENT_SCAN starts its scan when it ends. KEY_LOAD, KEY_ERASE and IDENT_SCAN complete at their end. (R43, R44, 02 Table 2-6) -/
def Obligations.ControlCommandsEnd : Prop :=
  ∀ (s : State),
    let d := s.regF 0x001044 0 12
    (∀ op k, (op = 1 ∧ k = some s.stagedKey) ∨ (op = 2 ∧ k = none) → s.ctl.cmd = some op → s.slotInUse d = false → ∃ t,
      exec (if op = 1 then .keyLoad .ends else .keyErase .ends) s = .next t
      ∧ t.ctl.keys.get (fun _ => none) d = k
      ∧ (∀ e, e ≠ d → t.ctl.keys.get (fun _ => none) e = s.ctl.keys.get (fun _ => none) e)
      ∧ t.regN 0x001054 = op * 2 ^ 8 ∧ t.ctl.cmd = none ∧ t.ctl.stage = [] ∧ t.mem = s.mem ∧ t.ctxR = s.ctxR ∧ t.polR = s.polR
      ∧ t.updR = s.updR ∧ t.domR = s.domR ∧ t.tqR = s.tqR ∧ t.partR = s.partR ∧ t.grdR = s.grdR ∧ t.time = s.time
      ∧ (∀ a, a ≠ 0x001054 → a ≠ 0x00002C → t.reg a = s.reg a))
    ∧ (s.slotInUse d = true → (s.ctl.cmd = some 1 → exec (.keyLoad .ends) s = .next (s.cmdEnd 4))
      ∧ (s.ctl.cmd = some 2 → exec (.keyErase .ends) s = .next (s.cmdEnd 4)) ∧ (s.cmdEnd 4).ctl.keys = s.ctl.keys)
    ∧ (s.ctl.cmd = some 4 → exec (.identScan .ends) s = .next ((s.scanReq (bit (s.reg 0x001044) 0) false).cmdEnd 0))

/-- CTL_ABORT ends KEY_LOAD, KEY_ERASE and PORT_ALIGN as ABORTED; any other command, and none, it leaves alone. CTL_ABORT
completes. (R45) -/
def Obligations.AbortOfAControlCommand : Prop :=
  ∀ (s : State) (v : W32), s.kcpUp = true → bit v 0 = true → (∀ c, s.ctl.cmd = some c → 1 ≤ c ∧ c ≤ 5) →
    let u := s.setUnlock 0 false
    let c := s.regF 0x001044 0 3
    let i := s.regF 0x001044 4 6
    let f := if c = 0 then (u.settle c i .failed).settle 5 0 .failed else u.settle c i .failed
    (s.ctl.cmd = some 1 ∨ s.ctl.cmd = some 2 → exec (.ctlAbort v) s = .next ((u.cmdEnd 1).acked 0x000048)
      ∧ ((u.cmdEnd 1).acked 0x000048).ctl.keys = s.ctl.keys)
    ∧ (s.ctl.cmd = some 3 → exec (.ctlAbort v) s = .next (((f.countEv 0x002000 0x10 1).cmdEnd 1).acked 0x000048)
      ∧ (((f.countEv 0x002000 0x10 1).cmdEnd 1).acked 0x000048).xing c i = .failed)
    ∧ (s.ctl.cmd = some 4 ∨ s.ctl.cmd = some 5 ∨ s.ctl.cmd = none → exec (.ctlAbort v) s = .next (u.acked 0x000048))

/-- What PORT_ALIGN and POWER_STATE do when they start, and what the end of POWER_STATE does. POWER_STATE_DONE completes;
PORT_ALIGN and POWER_STATE have these effects. (R43, R46, R53, R388, 02 Table 2-6) -/
def Obligations.PortAlignAndPower : Prop :=
  ∀ (s : State) (cls idx k : Nat),
    (5 < cls ∨ portsOf cls ≤ idx → s.alignCmd cls idx = s.cmdEnd 3)
    ∧ (cls ≤ 5 → idx < portsOf cls → s.alignFree cls = false → s.alignCmd cls idx = s.cmdEnd 5)
    ∧ (s.alignCmd 0 0 = s.setXing 0 .presence)
    ∧ (cls = 1 ∨ cls = 2 ∨ cls = 4 → idx < portsOf cls → s.alignFree cls = true → s.xing 0 0 = .opened →
      s.alignCmd cls idx = s.setXing (xKey cls idx) .frequency)
    ∧ (cls = 3 → idx < 16 → s.xing 0 0 = .opened → s.alignCmd 3 idx = (s.setXing (xKey 3 idx) .frequency).portBad idx)
    ∧ (cls = 3 → idx < 16 → s.xing 0 0 ≠ .opened →
      s.alignCmd 3 idx = (((s.setXing (xKey 3 idx) .frequency).portBad idx).settle 3 idx .absent).alignDone 3 idx)
    ∧ (cls = 1 ∨ cls = 2 ∨ cls = 4 → idx < portsOf cls → s.alignFree cls = true → s.xing 0 0 ≠ .opened →
      s.alignCmd cls idx = ((s.setXing (xKey cls idx) .frequency).settle cls idx .absent).alignDone cls idx)
    ∧ s.alignCmd 5 0 = (s.settle 5 0 (s.xing 0 0)).alignDone 5 0
    ∧ (1 < k → s.powerCmd k = s.cmdEnd 3)
    ∧ (s.dmp.power = 0 → s.powerCmd 0 = s.cmdEnd 0) ∧ (s.dmp.power = 2 → s.powerCmd 1 = s.cmdEnd 0)
    ∧ (s.dmp.power ≠ 0 → s.powerCmd 0 = s.leavePark ∧ s.leavePark.dmp.power = 4 ∧ s.leavePark.ctl.sramInit = true
      ∧ s.leavePark.ctxR = [] ∧ s.leavePark.polR = [] ∧ s.leavePark.mem = s.mem ∧ s.leavePark.ctl.keys = s.ctl.keys)
    ∧ (s.dmp.power ≠ 2 → s.mayPark = false → s.powerCmd 1 = s.cmdEnd 5)
    ∧ (s.dmp.power ≠ 2 → s.mayPark = true → s.powerCmd 1 = s.setPower 3)
    ∧ (s.ctl.cmd = some 5 → s.dmp.power = 3 → exec .powerStateDone s = .next (s.enterPark.cmdEnd 0)
      ∧ s.enterPark.ctl.keys = [] ∧ s.enterPark.ctxR = [] ∧ s.enterPark.partR = [] ∧ s.enterPark.domR = []
      ∧ s.enterPark.dmp.power = 2 ∧ s.enterPark.mem = s.mem)
    ∧ (s.ctl.cmd = some 5 → s.dmp.power = 4 → s.ctl.sramInit = false →
      (∀ x ∈ xAll, (s.ctl.xing.get xing0 x).final = true) →
      exec .powerStateDone s = .next (((s.setPower 0).timeWakes).cmdEnd 0))

/-- What a cold and a full warm reset leave. COLD_RESET and WARM_RESET complete. That a reset leaves the outputs' history and
package memory is the model's reading of Table 2-7 (log entry 4). (R50, 02 Table 2-7) -/
def Obligations.ColdAndWarmReset : Prop :=
  ∀ (s : State) (n : Nat), s.ctl.rstLow = false → 100 ≤ n → ∀ i, i = .coldReset ∨ i = .warmReset n → ∃ t, exec i s = .next t
    ∧ (∀ a, a ≠ 0x100048 → t.reg a = regReset a)
    ∧ t.regN 0x100048 = (if i = .coldReset then (s.regN 0x100048 + 1) % 2 ^ 32 else s.regN 0x100048)
    ∧ t.time.ktime = (if i = .coldReset then 0 else s.time.ktime)
    ∧ t.ctxR = [] ∧ t.ptR = [] ∧ t.polR = [] ∧ t.bslR = [] ∧ t.pckR = [] ∧ t.mshR = [] ∧ t.updR = [] ∧ t.domR = []
    ∧ t.tqR = [] ∧ t.partR = [] ∧ t.grdR = [] ∧ t.ctl = State.reset.ctl ∧ t.qcn = State.reset.qcn ∧ t.tng = State.reset.tng
    ∧ t.mlt = State.reset.mlt ∧ t.grd = State.reset.grd ∧ t.hop = State.reset.hop ∧ t.mem = s.mem ∧ t.pending = s.pending

/-- A reset pulse shorter than its minimum length resets in full or not at all, and which of the two is not specified. (R442) -/
def Obligations.ShortResetPulses : Prop :=
  ∀ (s : State) (n : Nat) (req : Option KcpReq) (reached : Bool),
    let full := Config.shortPulseResets s.fresh
    let u := { s with fresh := s.fresh + 1 }
    let w := match req with
      | some q => if q.wr && reached && !s.ctl.rstLow && s.ctl.kcpAligned then (hostWrite q.addr.toNat q.val q.meet u).1 else u
      | none => u
    (s.ctl.rstLow = false → n < 100 → (full = true → exec (.warmReset n) s = .next (u.blockReset s.epoch { State.reset.time with
          ktime := s.time.ktime, frac := s.time.frac, tick := s.time.tick, tickHigh := s.time.tickHigh }))
      ∧ (full = false → exec (.warmReset n) s = .next (if s.krdy then
          ((u.emit (.krdy false)).countEv 0x000000 0x10 1).emit (.krdy true) else u)))
    ∧ (n < 4 → (full = true → exec (.kcpReset n req reached) s =
          .next (krdyEdge w.krdy { w with ctl := { w.ctl with kcpAligned := false, kcpPend := none } }))
      ∧ (full = false → exec (.kcpReset n req reached) s = .next (match req with | some q => kcp q u | none => u)))

/-- Release of KX2_RST_N, SRAM initialisation, alignment and reset of the control port. RESET_RELEASE, SRAM_INIT_DONE,
KCP_ALIGNED, KCP_RESET and CTL_PORT_EXPECT complete. (R37, R51, R54, R56, R58, R59) -/
def Obligations.StartUpSequence : Prop :=
  ∀ (s : State) (n : Nat) (req : Option KcpReq) (reached : Bool) (idx : BitVec 2) (v : W32) (r : RegRow),
    let al := { s with ctl := { s.ctl with kcpAligned := true, kcpPend := none } }
    let w := match req with
      | some q => if q.wr && reached && !s.ctl.rstLow && s.ctl.kcpAligned then (hostWrite q.addr.toNat q.val q.meet s).1 else s
      | none => s
    let e := 0x002050 + 4 * idx.toNat
    let x := (s.setUnlock 0x002000 false).setReg e (masked r.mask v)
    (s.ctl.rstLow = true → exec .resetRelease s = .next { s with ctl := { s.ctl with rstLow := false, sramInit := true } })
    ∧ (s.ctl.rstLow = false →
      exec .sramInitDone s = .next (krdyEdge s.krdy { s with ctl := { s.ctl with sramInit := false } }))
    ∧ (s.ctl.rstLow = false → s.ctl.kcpAligned = false → exec .kcpAligned s = .next (match s.ctl.kcpPend with
      | some q => kcpDo q (krdyEdge s.krdy al) | none => krdyEdge s.krdy al))
    ∧ (4 ≤ n → exec (.kcpReset n req reached) s =
      .next (krdyEdge w.krdy { w with ctl := { w.ctl with kcpAligned := false, kcpPend := none } }))
    ∧ (s.hostUp = true → regRow e = some r →
      exec (.ctlPortExpect idx v) s = .next ((if x.someMissing then x.err 0x002000 8 else x).acked e))

/-- The phases of a crossing follow one another with the checks of R53 and end in a final status. ALIGN_PRESENCE,
ALIGN_FREQUENCY, ALIGN_FILL and ALIGN_LOCK complete. (R53, R55, R46, 02 Table 2-8) -/
def Obligations.CrossingsAlign : Prop :=
  ∀ (s : State) (cls : BitVec 3) (idx : BitVec 6), s.ctl.rstLow = false →
    let c := cls.toNat
    let i := idx.toNat
    let ends (x : Xing) := if s.aligning c i then (s.settle c i x).alignDone c i else krdyEdge s.krdy (s.settle c i x)
    (countedPort cls idx = true →
      (∀ n, s.xing c i = .frequency → exec (.alignFrequency cls idx n) s = .next (
        if n = 0 then ends .absent
        else if (accepted c).1 ≤ n ∧ n ≤ (accepted c).2 then s.setXing (xKey c i) .fill else ends .badFreq))
      ∧ (∀ ts, s.xing c i = .fill → exec (.alignFill cls idx ts) s = .next (
        if ts = fillTokens then s.setXing (xKey c i) .lock else ends .failed))
      ∧ (∀ ok, s.xing c i = .lock → exec (.alignLock cls idx ok) s = .next (ends (if ok then .opened else .failed))))
    ∧ (∀ edge, s.xing 0 0 = .presence → s.aligning 0 0 = false → ∃ t, exec (.alignPresence edge) s = .next t
      ∧ t.xing 0 0 = (if edge then .opened else .absent) ∧ t.xing 5 0 = (if edge then .opened else .absent)
      ∧ ∀ k j, 1 ≤ k → k ≤ 4 → j < portsOf k → t.xing k j =
        if s.xing k j = .presence then (if edge then .frequency else .absent) else s.xing k j)

/-- A window transfers the record word that its SEL and word index name, and the index advances. WINDOW_DATA_READ,
WINDOW_DATA_WRITE and READ_CLEAR complete. Which words pair is log entry 21. (R47, R403, R30, 00 R5, R432) -/
def Obligations.WindowDataTransfers : Prop :=
  ∀ (s : State) (a : Addr) (v : W32) (x : Win), a.toNat % 4 = 0 → (pageRow a.toNat).isSome = true →
    let n := a.toNat
    let u := s.locked n
    let sel := s.winSel x
    let w := s.winWord x
    let lows := if inst0 n = 0xC00048 then [0, 2, 5] else winLows n sel
    let p := s.pair n
    (winOf n = some x → s.kcpUp = true →
      exec (.windowDataRead a) s = .next ((s.readWin n x).2.emit (.kcp true (s.readWin n x).1))
      ∧ (p.latch = none → (s.readWin n x).1 = s.winRead n sel w)
      ∧ (p.latch = none → lows = winLows n sel → w ∈ lows →
        (s.readWin n x).2 = (s.setPair n { p with latch := some (w + 1, s.winRead n sel (w + 1)) }).winNext n x))
    ∧ (winOf n = some x → hasAcc n .ro = false → s.hostUp = true →
      (s.isProtected n v = false ∨ s.ctl.unlock.get (fun _ => false) (pageOf n) = true) → w < winWrap n sel →
      u.winRefuse n sel w v = none →
      (w ∈ lows → exec (.windowDataWrite a v) s = .next ((((u.unstage n).setPair n { p with stage := some (w, v) }).winNext n x).acked n))
      ∧ (w ∉ lows → (w = 0 ∨ w - 1 ∉ lows) → exec (.windowDataWrite a v) s =
        .next (((((u.unstage n).setPair n { p with stage := none }).winPut n sel w none v).winNext n x).acked n))
      ∧ (∀ y, w ∉ lows → 0 < w → w - 1 ∈ lows → p.stage = some (w - 1, y) → exec (.windowDataWrite a v) s =
        .next (((((u.unstage n).setPair n { p with stage := none }).winPut n sel w (some y) v).winNext n x).acked n)))
    ∧ (∀ k, pageOf k = pageOf n → k ≠ n → ((u.unstage n).pair k).stage = none)
    ∧ (hasAcc n .rc = true → n ≠ 0x300054 → n ≠ 0x50004C → s.kcpUp = true →
      exec (.readClear a) s = .next ((s.setReg n 0).emit (.kcp true (s.peek n))))

/-- LOAD, KEY_HI, KEY_CLR, ARRIVAL_COUNT_CLEAR, PARTITION_ENABLE and PARTITION_DISABLE through their windows. LOAD, KEY_HI,
KEY_CLR, ARRIVAL_COUNT_CLEAR, PARTITION_ENABLE and PARTITION_DISABLE complete. (R414, R268, R432, R291, R311, R48, R403) -/
def Obligations.RecordsThroughTheirWindows : Prop :=
  ∀ (s : State) (v y : W32) (inst : BitVec 4), s.hostUp = true →
    let m := mltReg inst.toNat 0x1048
    let u (a : Nat) := ((s.locked a).unstage a).setPair a { s.pair a with stage := none }
    let d := s.regN 0xC00040
    let withKey (t : State) (k : Option (BitVec 64)) : State :=
      { t with tng := { t.tng with keys := t.tng.keys.set (fun _ => none) d k } }
    (∀ x, winOf 0x300048 = some x → s.winWord x = 0 → s.cState (s.winSel x) = stFree → bit v 3 = true →
      exec (.load v) s =
        .next (((loadCtx (s.winSel x) v ((u 0x300048).recheck (s.winSel x))).winNext 0x300048 x).acked 0x300048))
    ∧ (∀ x, winOf 0xC00048 = some x → 
      (s.ctl.unlock.get (fun _ => false) 0xC00000 = true → s.winWord x = 6 → (s.pair 0xC00048).stage = some (5, y) →
        exec (.keyHi v) s = .next (((withKey (u 0xC00048) (some (BitVec.ofNat 64 (y.toNat + v.toNat * 2 ^ 32)))).winNext
          0xC00048 x).acked 0xC00048))
      ∧ (s.ctl.unlock.get (fun _ => false) 0xC00000 = true → s.winWord x = 4 → bit v 8 = true → s.domActive d = true →
        exec (.keyClr v) s = .next (((withKey (u 0xC00048) none).winNext 0xC00048 x).acked 0xC00048))
      ∧ (16 ≤ s.winWord x → s.winWord x < 48 → s.domActive d = false →
        exec (.arrivalCountClear 0) s =
          .next ((((u 0xC00048).setArrival d ((s.winWord x - 16) / 2) 0).winNext 0xC00048 x).acked 0xC00048)))
    ∧ (∀ x, winOf m = some x → s.winWord x = 0 → s.winSel x % 8 ≠ 0 →
      (bit v 0 = true → s.pEn inst.toNat (s.winSel x % 8) = false → exec (.partitionEnable inst v) s = .next
        ((((u m).partEnable inst.toNat (s.winSel x % 8) (v &&& 0x0FFF077F)).winNext m x).acked m))
      ∧ (bit v 0 = false → s.pEn inst.toNat (s.winSel x % 8) = true → exec (.partitionDisable inst v) s = .next
        ((((u m).partDisable inst.toNat (s.winSel x % 8) (v &&& 0x0FFF077F)).winNext m x).acked m)))

/-- What LOAD leaves of a context, and what enabling and disabling leave of a partition. (R19, R190, R414, R291, R299, R311) -/
def Obligations.WhatLoadingAndEnablingLeave : Prop :=
  ∀ (s : State) (c i p : Nat) (v : W32),
    let f := (s.setCf c 0 16 12 (fld v 16 12)).setCf c 0 28 2 (fld v 28 2)
    (s.dmp.power = 0 → s.cState c = stFree →
      ((256 < f.shareSum + f.cShare c ∨ f.claimed &&& f.cHearth c ≠ 0) →
        (loadCtx c v s).cState c = stFree ∧ ((loadCtx c v s).hx c).loadRefused = true)
      ∧ (¬ (256 < f.shareSum + f.cShare c ∨ f.claimed &&& f.cHearth c ≠ 0) →
        (loadCtx c v s).cState c = stLoaded ∧ (loadCtx c v s).hx c = hopCtx0 c ∧ (loadCtx c v s).gx c = gctx0 c
        ∧ (loadCtx c v s).cCmplCnt c = 0 ∧ (loadCtx c v s).cHead c = 0 ∧ (loadCtx c v s).cTail c = 0)
      ∧ (loadCtx c v s).mem = s.mem)
    ∧ (s.dmp.power ≠ 0 → loadCtx c v s = s)
    ∧ (s.cState c ≠ stFree → (s.ctxFree c).cState c = stFree ∧ (s.ctxFree c).gx c = gctx0 c ∧ (s.ctxFree c).ctl.stage = []
      ∧ (s.ctxFree c).regN 0x300060 = (s.ctxFree c).shareSum % 2 ^ 32)
    ∧ (s.partOk i p v = true → bit v 0 = true → p < 8 → (s.partEnable i p v).pState i p = (if (msetOf v).mode = 2 then 4 else 1)
      ∧ (s.partEnable i p v).pEn i p = true ∧ (s.partEnable i p v).mem = s.mem)
    ∧ (s.partOk i p v = false → (s.partEnable i p v).pEn i p = false
      ∧ (s.partEnable i p v).mem = s.mem)
    ∧ (bit v 0 = false → p < 8 → (s.partDisable i p v).pState i p = 0 ∧ (s.partDisable i p v).pEn i p = false
      ∧ (s.partDisable i p v).mlt.ents.all (fun e => !(e.inst == i && e.part == p)) = true)

/-- Ring and queue doorbells move their tail, a bad one is refused, and the reset registers act. RING_DOORBELL, TNG_Q_DB,
TNG_Q_RESET, HOP_CTX_RESET and CONTEXT_RESET complete. Which doorbells of a Tongs queue are refused with DB_BAD is the
model's reading (log entry 21). (R49, R52, R280, R421) -/
def Obligations.DoorbellsAndQueueResets : Prop :=
  ∀ (s : State) (v : W32), s.hostUp = true →
    let c := fld v 0 12
    let t := fld v 16 16
    let q := fld v 0 10
    let u := s.locked 0x300000
    let r := s.locked 0xC00000
    (s.cState c ≠ stFree → t < s.cRing c → s.below c (s.cHead c) ≤ (t + s.cRing c - s.cHead c) % s.cRing c →
      exec (.ringDoorbell v) s = .next (((u.setCf c 30 16 16 t).touch c).acked 0x30004C))
    ∧ (s.cState c = stFree ∨ s.cRing c ≤ t →
      exec (.ringDoorbell v) s = .next ((u.err 0x300000 8).naked 0x30004C 1))
    ∧ (s.cState (s.qCtx q) ≠ stFree → s.qState q = 0 → s.queueOk q = true → s.qCyclic q = false → t < s.qRing q →
      (s.qTail q + s.qRing q - s.qHead q) % s.qRing q ≤ (t + s.qRing q - s.qHead q) % s.qRing q →
      exec (.tngQDb v) s = .next (((r.setQw q 8 (s.qHead q + t * 2 ^ 16)).setQw q 9 1).acked 0xC00058))
    ∧ (s.cState (s.qCtx q) ≠ stFree → s.qState q = 0 → s.queueOk q = true → s.qCyclic q = true →
      exec (.tngQDb v) s = .next ((r.setQw q 9 1).acked 0xC00058))
    ∧ exec (.tngQReset v) s = .next ((r.queueReset q).acked 0xC0005C)
    ∧ (s.cRunnable c = false → exec (.hopCtxReset v) s = .next ((u.ctxFree c).acked 0x300050))
    ∧ (s.cRunnable c = true → exec (.hopCtxReset v) s =
      .next ((u.setHx c { s.hx c with resetReq := true }).acked 0x300050))
    ∧ (∀ x : Ctx, (s.hx x.toNat).resetReq = true → exec (.contextReset x) s = .next (s.ctxFree x.toNat))

/-- MLT_PACK_GO starts a pack or ends it BAD_ARG, and a regulator takes only values in its range. MLT_PACK_GO and REGULATOR_WRITE
complete. That a BAD_ARG pack leaves an enabled VR partition EMPTY is the model's reading (log entry 88). (R302, R308, R309,
R433) -/
def Obligations.MaltPackAndRegulators : Prop :=
  ∀ (s : State) (inst : BitVec 4) (v : W32), s.hostUp = true →
    let i := inst.toNat
    let m := mltReg i 0x1058
    let u := s.locked m
    let p := fld v 0 3
    let src := s.reg64 (mltReg i 0x1050)
    let n := s.pAddr i p 3
    let arg := p = 0 ∨ s.pEn i p = false ∨ (s.mset i p).mode ≠ 2 ∨ src % 4096 ≠ 0 ∨ src < maltFix i 2
      ∨ maltFix i 2 + maltFix i 3 < src + n ∨ s.inFootprint src n = true
    (((s.reg (mltReg i 0x1010)).getLsbD 1 = false →
      (s.mlt.walks.any (fun x => x.inst == i && x.pass != 0) = true →
        exec (.mltPackGo inst v) s = .next ((u.err (mltReg i 0x1000) 13).acked m))
      ∧ (s.mlt.walks.any (fun x => x.inst == i && x.pass != 0) = false → arg →
        exec (.mltPackGo inst v) s = .next
          (((if p ≠ 0 ∧ s.pEn i p = true ∧ (s.mset i p).mode = 2 then u.setPw i p 16 4 else u).packStat i 4 0 true).acked m))
      ∧ (s.mlt.walks.any (fun x => x.inst == i && x.pass != 0) = false → ¬ arg → ∃ t,
        exec (.mltPackGo inst v) s = .next t ∧ t.pState i p = 3
        ∧ t.mlt.walks = s.mlt.walks ++ [⟨i, p, 1, 0, s.indexLen i p / 64, false, s.mlt.order⟩]
        ∧ t.regN (mltReg i 0x105C) = 1 ∧ t.regN (mltReg i 0x1060) = 0 ∧ t.mem = s.mem)))
    ∧ (∀ a : Addr, regulatorReg a.toNat = true → a.toNat % 4 = 0 → instOf a.toNat = i → 
      let f := v.toNat % 2 ^ (match offOf a.toNat with | 0x60 => 12 | 0x64 => 10 | 0x68 => 25 | 0x6C => 20 | _ => 24)
      let ok : Bool := match offOf a.toNat with
        | 0x60 => decide (1 ≤ f ∧ s.rateSum i ≤ f * s.regN (mltReg i 0x64) / 10)
        | 0x64 => decide (1 ≤ f ∧ f ≤ 1000 ∧ s.rateSum i ≤ s.regN (mltReg i 0x60) * f / 10)
        | 0x68 => decide (4096 ≤ f ∧ f ≤ 2 ^ 24)
        | 0x6C => decide (f + s.partRates i ≤ s.ceilB i)
        | _ => decide (4096 ≤ f)
      exec (.regulatorWrite a v) s = .next ((if ok then (s.locked a.toNat).setRegN a.toNat f
        else (s.locked a.toNat).err (mltReg i 0) 8).acked a.toNat))

/-- A park is accepted and pends; a wake cancels a park that pends, or resumes one that was agreed. PARK and WAKE complete.
(R353, R437, R404) -/
def Obligations.ParkAndWake : Prop :=
  ∀ (s : State) (v : W32) (k p : Nat), s.hostUp = true → s.quiescing 0xE01000 = false → s.atRoot (fld v 0 12) = true →
    let c := fld v 0 12
    let g := s.gx c
    let u := s.locked 0xE01000
    let step := s.reg64 0xE01070 % 2 ^ 48
    let next := (max g.given g.pseq + 1) % 2 ^ 32
    (bit v 12 = false → g.asked = none → g.agreed = false → s.cStep c ≤ step → (s.verdictOf c step).isSome = false →
      (∀ d ∈ g.vlog ++ g.decided.toList, d.step ≠ step) →
      exec (.park v) s = .next (((u.setGx c { g with asked := some (step, next) }).parkStat 8 next).acked 0xE0106C))
    ∧ (bit v 12 = true → g.asked = some (k, p) →
      exec (.wake v) s = .next (((u.setGx c { g with asked := none }).parkStat 1 p).acked 0xE0106C))
    ∧ (bit v 12 = true → g.asked = none → g.agreed = true →
      exec (.wake v) s = .next (((u.rootResume c (s.reg64 0xE01078) []).parkStat 0 next).acked 0xE0106C))

/-- A forced verdict is taken where a context waits without one, and HB_EN starts and stops Guard's membership. GRD_VERDICT_FORCE
and HB_EN complete. (R330, R437, R315, R348, 16 Table 16-13) -/
def Obligations.VerdictForceAndHeartbeatEnable : Prop :=
  ∀ (s : State) (v : W32), s.hostUp = true →
    let c := fld v 0 12
    let u := s.locked 0xE01000
    let w := (s.locked 0xE00000).setReg 0xE00040 (v &&& 3)
    let x := (List.range 8).foldl (fun s i => s.watchStart i) w
    (s.ctl.unlock.get (fun _ => false) 0xE01000 = true → s.quiescing 0xE01000 = false →
      ((s.regN 0xE01018).testBit 9 = true → s.cActive c = true → (s.hx c).opened ≠ 0 → s.noVerdict c = true → fld v 16 2 ≠ 3 →
        exec (.grdVerdictForce v) s =
          .next ((u.takeVd c ⟨s.cStep c, fld v 16 2, b2n (bit v 18), 0, manDig [], 0, [], [], [], [], none, 0⟩).acked 0xE01054))
      ∧ ((s.regN 0xE01018).testBit 9 = false →
        exec (.grdVerdictForce v) s = .next ((u.err 0xE01000 13).acked 0xE01054)))
    ∧ (bit v 0 = false →
      exec (.hbEn v) s = .next (({ w with grd := { w.grd with periodAt := none } } : State).acked 0xE00040))
    ∧ (bit v 0 = true → s.hbEn = true → exec (.hbEn v) s = .next (w.acked 0xE00040))
    ∧ (bit v 0 = true → s.hbEn = false → s.regN 0xE0004C = 1 → exec (.hbEn v) s = .next (x.acked 0xE00040))
    ∧ (bit v 0 = true → s.hbEn = false → s.regN 0xE0004C ≠ 1 → exec (.hbEn v) s =
      .next ((((x.jobCtxs.map x.rootId).eraseDups).foldl (fun s n =>
        if n = s.node then s.join n else s.guardSend n 0 0 0 0 11 0 0 []) x).acked 0xE00040))

/-- SYNC_EN moves TIME_STATE, and TIME_HOLD_MAX is compared at once. SYNC_EN and TIME_HOLD_MAX complete. (R364, R365, R367, 13
Table 13-2, 15 Table 15-7) -/
def Obligations.TimeRegisters : Prop :=
  ∀ (s : State) (v : W32), s.hostUp = true →
    let u := s.locked 0x100000
    let w := u.setReg 0x10004C (v &&& 3)
    (bit v 0 = false → s.syncEn = true →
      exec (.syncEn v) s = .next (w.syncOff.acked 0x10004C)
      ∧ (w.syncOff.acked 0x10004C).tState = tFree ∧ (w.syncOff.acked 0x10004C).time.exch = none
      ∧ (w.syncOff.acked 0x10004C).time.ktime = s.time.ktime)
    ∧ (bit v 0 = true → s.syncEn = false →
      exec (.syncEn v) s = .next (w.syncOn.acked 0x10004C)
      ∧ (w.syncOn.acked 0x10004C).tState = (if s.regN 0x100054 = s.node ∧ (s.grd.adopted = none ∨ s.regN 0x100058 = s.node)
          then tRoot else if s.live.any s.cActive then tSlewing else tAcquiring)
      ∧ (w.syncOn.acked 0x10004C).time.ktime = s.time.ktime)
    ∧ (bit v 0 = s.syncEn → exec (.syncEn v) s = .next (w.tickHold.acked 0x10004C))
    ∧ (let n := v.toNat % 256
      (1 ≤ n → n ≤ 200 → exec (.timeHoldMax v) s = .next ((holdMax (u.setRegN 0x100064 n)).acked 0x100064))
      ∧ (n = 0 ∨ 200 < n → exec (.timeHoldMax v) s = .next ((u.err 0x100000 11).acked 0x100064)))

/-- IDEN_CHECK_GO, DMP_WEAR_SEL, DMP_WEAR_DATA and LOADED act as their registers say. IDEN_CHECK_GO, DMP_WEAR_SEL, DMP_WEAR_DATA
and LOADED complete. That a bin number above 1,439 and a count above 6,000,000 are refused is the model's reading (log entry
24). (R380, R412, R421, R391, R439) -/
def Obligations.CheckAndWearRegisters : Prop :=
  ∀ (s : State) (v : W32), s.hostUp = true →
    let u := s.locked 0x201000
    let w := s.locked 0xF01000
    let n := v.toNat % 2 ^ 23
    let i := s.regN 0xF01044
    (s.iden.check = 0 → bit v 0 = true → exec (.idenCheckGo v) s =
      .next (((({ u with iden := { u.iden with check := if s.quiescing 0x201000 then 3 else 1 } } : State).setRegN 0x20106C 1).idenKick).acked
        0x201068))
    ∧ (s.iden.check ≠ 0 → exec (.idenCheckGo v) s = .next ((u.err 0x201000 9).acked 0x201068))
    ∧ (v.toNat % 2048 < 1440 → exec (.dmpWearSel v) s =
      .next ((({ w with dmp := { w.dmp with snap := s.dmp.bins } } : State).setRegN 0xF01044 (v.toNat % 2048)).acked 0xF01044))
    ∧ (s.wearLoaded = false → n ≤ 6000000 → exec (.dmpWearData v) s =
      .next (((({ w with dmp := { w.dmp with
        bins := setAt (s.dmp.bins ++ List.replicate (i + 1 - s.dmp.bins.length) 0) i n } } : State).wearCheck).setRegN 0xF01044
          ((i + 1) % 1440)).acked 0xF01048))
    ∧ (s.wearLoaded = false → exec (.loaded v) s = .next ((w.setReg 0xF01040 (v &&& 1)).acked 0xF01040))
    ∧ (s.wearLoaded = true → exec (.dmpWearData v) s = .next ((w.err 0xF01000 9).acked 0xF01048)
      ∧ exec (.loaded v) s = .next ((w.err 0xF01000 9).acked 0xF01040))

/-- A step with a command at the front of the queue is exec of that command with the queue's rest. The queue of waiting commands
is the model's own state (log entry 1). (95 What each step holds) -/
def Obligations.StepRunsTheFrontCommand : Prop :=
  ∀ (c : Instr) (cs : List Instr) (s : State), step { s with pending := c :: cs } = exec c { s with pending := cs }
    ∧ ∀ t, exec c { s with pending := cs } = .next t → t.pending = cs

/-- A step on an empty queue is one rising edge of KREF, which advances KTIME at its corrected rate. That an empty queue is where
KREF ticks is the model's choice (log entry 23); what an edge does is R359's. (R359, R371) -/
def Obligations.EmptyQueueTicksKref : Prop :=
  ∀ s : State, s.pending = [] → ∃ t, step s = .next t
    ∧ t = { s with time := { s.time with ktime := t.time.ktime, frac := t.time.frac, tickHigh := s.time.tickHigh - 1 },
                   out := if s.time.tickHigh = 1 then .ktick false :: s.out else s.out }
    ∧ (s.time.frac < 2 ^ 40 → -(2 ^ 40 : Int) < s.rate →
      t.time.frac < 2 ^ 40 ∧ ∃ k : Nat, t.time.ktime = (s.time.ktime + k) % 2 ^ 64
        ∧ ((k * 2 ^ 40 + t.time.frac : Nat) : Int) = s.time.frac + 20 * (2 ^ 40 + s.rate)
        ∧ (s.rate = 0 → k = 20)
        ∧ (-(175921859 : Int) ≤ s.rate → s.rate ≤ 175921859 → 19 ≤ k ∧ k ≤ 21))

/-- Every step keeps the invariant: package memory stays in its one canonical form. What an unlisted byte of package memory reads
as is log entry 4. (R177) -/
def Obligations.StepsKeepMemoryCanonical : Prop :=
  ∀ s t : State, s.Inv → step s = .next t → t.Inv ∧ t.pending = s.pending.tail

/-- What the block has driven is never taken back, and no free value is used twice. The history of outputs and the counter of
free values are the model's own state (log entries 2 and 3). (95 What each step holds, R442) -/
def Obligations.StepsOnlyAddHistory : Prop :=
  ∀ s t : State, step s = .next t → s.out <:+ t.out ∧ s.fresh ≤ t.fresh

/-- Every well-formed command answers a next state in every state; the only fault is an alignment of a crossing that is not
built. (02 Table 2-8, R53, 95 What each step holds) -/
def Obligations.WellFormedCommandsComplete : Prop :=
  (∀ (c : Instr) (s : State), c.wf = true → ∃ t, exec c s = .next t)
  ∧ (∀ (s : State) (cls : BitVec 3) (idx : BitVec 6) (n : Nat) (ts : List W32) (ok : Bool), built cls.toNat idx.toNat = false →
      exec (.alignFrequency cls idx n) s = .fault .noSuchCrossing ∧ exec (.alignFill cls idx ts) s = .fault .noSuchCrossing
      ∧ exec (.alignLock cls idx ok) s = .fault .noSuchCrossing)
  ∧ (∀ (c : Instr) (s : State) (r : Refusal), exec c s ≠ .refused r)

/-- KTIME steps only where a first valid exchange acquires it or a cold reset starts it; no other command moves it. (R359, R365,
R360, R50) -/
def Obligations.KtimeSteps : Prop :=
  ∀ (c : Instr) (s t : State), exec c s = .next t →
    (c ≠ .coldReset → (∀ src dom seq t4, c ≠ .delayResp src dom seq t4) → t.time.ktime = s.time.ktime)
    ∧ (t.time.ktime ≠ s.time.ktime → c ≠ .coldReset → s.tState = tAcquiring ∧ t.tState = tLocked
      ∧ t.regN 0x100074 = satAdd 32 (s.regN 0x100074) 1 ∧ (t.regN 0x100018).testBit 8 = true)

/-- A sealed key changes only by KEY_LOAD or KEY_ERASE of its domain, by deep park and by a reset of the block. (R44, R50, R388) -/
def Obligations.SealedKeysChange : Prop :=
  ∀ (c : Instr) (s t : State), exec c s = .next t →
    let key (x : State) (d : Nat) : Option (BitVec 256) := x.ctl.keys.get (fun _ => none) d
    (c ≠ .keyLoad .ends → c ≠ .keyErase .ends → c ≠ .powerStateDone → c ≠ .coldReset → (∀ n, c ≠ .warmReset n) →
      t.ctl.keys = s.ctl.keys)
    ∧ (c = .keyLoad .ends ∨ c = .keyErase .ends → ∀ d, d ≠ s.regF 0x001044 0 12 → key t d = key s d)
    ∧ (c = .powerStateDone ∨ c = .coldReset ∨ (∃ n, c = .warmReset n) →
      (∀ d, key t d = key s d) ∨ (∀ d, key t d = none))

/-- State.reset is the block right after a cold reset's registers, with KX2_RST_N low. That KX2_RST_N is low and that package
memory lists nothing at the start are the model's choices (log entries 4 and 5). (02 Table 2-7, R360, R403) -/
def Obligations.ResetState : Prop :=
  State.reset.Inv ∧ (∀ a, a ≠ 0x100048 → State.reset.reg a = regReset a) ∧ State.reset.regN 0x100048 = 1
    ∧ State.reset.time.ktime = 0 ∧ State.reset.pending = [] ∧ State.reset.ctl.keys = [] ∧ State.reset.krdy = false
    ∧ (∀ k, State.reset.ctl.xing.get xing0 k = .presence) ∧ (∀ c, State.reset.cState c = stFree)
    ∧ State.reset.hostUp = false

/-- Prefetch copies the window, the Anvil goes to the context that no candidate precedes, and an accounting window restarts.
DESCRIPTOR_FETCH, ANVIL_GRANT and ACCOUNTING_WINDOW_END complete. What of a running descriptor counts in a window is log
entry 11. (R198, R200, R18, R170, R171, R172) -/
def Obligations.HopperFetchesAndGrants : Prop :=
  ∀ (s : State) (x : Ctx) (hc run : Nat),
    let c := x.toNat
    let h := s.hx c
    let base := s.cRingBase c
    let new := (s.window c).filter (fun p => !(h.copies.any (fun cp => cp.pos == p))
      && !(s.unacked.any (fun r => overlaps r.1 r.2 (base + 64 * p) 64)))
    (s.cRunnable c = true → s.quiescing 0x300000 = false → s.tunOpen = true → exec (.descriptorFetch x) s =
      .next ((s.setHx c { h with copies := h.copies ++ new.map (fun p => ⟨p, s.bytes (base + 64 * p) 64, false⟩) }).touch c))
    ∧ (s.quiescing 0x300000 = false → ∀ t, ((s.hop.owner = none ∧ t = s)
          ∨ ∃ o, s.hop.owner = some o ∧ s.sliceOver o hc = true ∧ t = s.endSlice o) →
        (t.cands = [] → exec (.anvilGrant hc) s = .next t)
        ∧ (t.cands ≠ [] → ∃ d, d ∈ t.cands ∧ (∀ e ∈ t.cands, t.goesFirst e d = false)
          ∧ exec (.anvilGrant hc) s = .next (t.grant d)
          ∧ (t.grant d).hop.owner = some d ∧ (t.grant d).cState d = stRunning))
    ∧ (∀ o, s.hop.owner = some o → s.sliceOver o hc = false → exec (.anvilGrant hc) s = .next s)
    ∧ (∃ t, exec (.accountingWindowEnd run) s = .next t ∧ t.hop.winW = [] ∧ t.hop.owner = s.hop.owner ∧ t.mem = s.mem
      ∧ ∀ d ∈ s.live, t.cWinHc d = if s.hop.owner = some d then s.switchLeft run % 2 ^ 32 else 0)

/-- A LOADED context with a doorbell passes the checks and becomes READY, or stays LOADED with the failures recorded.
CONTEXT_READY completes. (R415, R348, 01 Table 1-2, 15 Table 15-12) -/
def Obligations.ContextBecomesReady : Prop :=
  ∀ (s : State) (x : Ctx),
    let c := x.toNat
    let f := s.applyHeld c
    let bad := f.failedChecks c
    let u := bad.foldl (fun s e => s.err e.1 e.2) s
    let cool (t : State) : State := if t.genCooling c then t.err 0xB00000 10 else t
    let g := cool f
    let pt : State := { g with time := { g.time with
      pt := g.time.pt.setList zero32 (4 * c) (g.ptR.getList zero32 (4 * c) 4) } }
    s.dmp.power = 0 → s.cState c = stLoaded → s.cHead c ≠ s.cTail c → (s.hx c).checkFailed = false →
      (bad = [] → f.ctxStatus c % 128 = 0 → exec (.contextReady x) s =
        .next (((if (s.hx c).opened = 0 then pt else g).setCState c stReady).joinCheck))
      ∧ (bad = [] → f.ctxStatus c % 128 ≠ 0 → exec (.contextReady x) s = .next (cool s))
      ∧ (bad ≠ [] → exec (.contextReady x) s =
        .next ((cool u).setHx c { (cool u).hx c with checkFailed := true }))

/-- A descriptor that ends moves HEAD on, joins the ended descriptors and leaves its context to the next. (R175, R176, R178) -/
def Obligations.EndOfADescriptor : Prop :=
  ∀ (s : State) (c : Nat) (w : Waiting) (f : Fin), f.status = 0 → s.cRing c ≤ 2 ^ 16 →
    let t := s.endDesc c w f
    let e : Ended := { pos := w.pos, op := dOp w.d, tag := dTag w.d, status := 0, cmpl := dCmpl w.d, cnt := dCnt w.d, nf := f.nf,
                       big := f.big, refetch := w.refetch, result := f.result, hc := f.hc, seq := (s.hx c).seq, writes := f.writes,
                       upd := f.upd }
    t.cHead c = (w.pos + 1) % s.cRing c ∧ (t.hx c).ended = (s.hx c).ended ++ [e] ∧ (t.hx c).waiting = none
      ∧ (t.hx c).seq = (s.hx c).seq + 1 ∧ t.mem = s.mem
      ∧ ∀ d, d ≠ c → t.cHead d = s.cHead d ∧ (t.hx d).ended = (s.hx d).ended ∧ (t.hx d).waiting = (s.hx d).waiting

/-- Each control descriptor that starts has its effect, and one that decoding refuses ends with the status of the lowest failing
check. NOP, STEP, WAIT_CNT, WRITE_IMM and BAD_OP complete; what `endDesc` leaves is the statement EndOfADescriptor. The order
among failing checks is log entry 10. (R176, R180, R181, R182, R183, R211) -/
def Obligations.ControlDescriptorsRun : Prop :=
  ∀ (s : State) (x : Ctx) (w : Waiting),
    let c := x.toNat
    let runs (i : Instr) (op : Nat) (k : Nat → Dec) (t : State) : Prop := dOp w.d = op →
      (s.decode c w (k w.d) = 0 → exec i s = .next t)
      ∧ (s.decode c w (k w.d) ≠ 0 → exec i s = .next (s.endDesc c w (Fin.plain (s.decode c w (k w.d)))))
    let waits := s.latch c w
    let ws := immRuns (dq w.d 1 0 48) (dq w.d 1 48 8) (dq w.d 2 0 64)
    s.ready c = some w →
      runs (.nop x) 0x00 decNop (s.endDesc c w (Fin.plain 0))
      ∧ runs (.step x) 0x01 (decStep (s.cStep c)) (waits.parkCheck c)
      ∧ runs (.waitCnt x) 0x02 decWaitCnt waits
      ∧ runs (.writeImm x) 0x03 decWriteImm ((waits.oneWrite ws).endDesc c w { Fin.plain 0 with writes := ranges ws })
      ∧ (knownOp (dOp w.d) = false → exec (.badOp x) s = .next (s.endDesc c w (Fin.plain 2)))
      ∧ (waits.hx c).waiting = some w ∧ waits.mem = s.mem ∧ (∀ cp ∈ (waits.hx c).copies, cp ∈ (s.hx c).copies ∨
        cp.bytes = s.bytes (s.cRingBase c + 64 * cp.pos) 64)

/-- A waiting descriptor ends where its condition holds; a sort stores its sorted pairs; a completed descriptor is recorded.
WAIT_CNT_MET, STEP_END, SORT, SORT_DONE and DESCRIPTOR_COMPLETE complete. (R175, R178, R179, R181, R182, R188, R109) -/
def Obligations.WaitingDescriptorsEnd : Prop :=
  ∀ (s : State) (x : Ctx) (w : Waiting) (free : Nat) (e : Ended) (es : List Ended) (xs : List W64),
    let c := x.toNat
    let cw := (s.setHx c { s.hx c with ended := es }).writeCmpl c e
    let cc := if e.cnt = true ∧ e.status = 0 then cw.advCmpl c else cw
    let cu := match e.upd with
      | some k => if e.cnt = true ∧ e.status = 0 then cc.phEnd c k phUpdate else cc
      | none => cc
    let wt := s.latch c w
    let ys := sortPairs (dq w.d 3 17 2) (w.d.testBit (64 * 3 + 19)) xs
    let bs := (ys.map (fun y => leBytes 8 y.toNat)).flatten
    (s.waitingOp c 0x02 = some w → dq w.d 2 0 48 ≤ s.cCmplCnt (dq w.d 1 0 12) →
      exec (.waitCntMet x) s = .next (s.endDesc c w (Fin.plain 0)))
    ∧ (s.waitingOp c 0x01 = some w → s.stepFree c w = some free →
      ((s.gx c).launch.isSome ∨ ∀ l, s.paceAt c = some l → l ≤ s.time.ktime) →
      exec (.stepEnd x) s = .next (s.openStep c w free))
    ∧ (s.ready c = some w → dOp w.d = 0x0A → s.quiescing 0x700000 = false → s.decode c w (decSort w.d) = 0 →
      exec (.sort x) s = .next ((if s.hop.sort.isSome then { wt with hop := { wt.hop with sortQ := wt.hop.sortQ ++ [c] } }
        else wt.sortLoad c w.d)))
    ∧ (s.hop.sort = some (c, xs) → s.waitingOp c 0x0A = some w → exec (.sortDone ⟨x, none⟩) s =
      .next (((((s.busWrite (dq w.d 2 0 48) bs).bump 0x700054 1).countEv 0x700000 0x11 xs.length).sortNext).endDesc c w
        { Fin.plain 0 with writes := [(dq w.d 2 0 48, bs.length)] }))
    ∧ (∀ n, s.hop.sort = some (c, xs) → s.waitingOp c 0x0A = some w → exec (.sortDone ⟨x, some n⟩) s =
      .next (((s.issue (takeWrites n [(dq w.d 2 0 48, bs)])).sortNext).endDesc c w
        { Fin.plain 7 with writes := ranges (takeWrites n [(dq w.d 2 0 48, bs)]) }))
    ∧ ((s.hx c).ended = e :: es → exec (.descriptorComplete x) s = .next (cu.touch c))

/-- Each Anvil descriptor of the context that holds the Anvil runs to its end: its writes in order, its effects, its completion.
VOP, VRED, TLOAD, TSTORE, TBCAST and MMT complete; what `endDesc` leaves is the statement EndOfADescriptor. (R169, R176,
R184, R186, R192, R193, R194, R195) -/
def Obligations.AnvilDescriptorsRun : Prop :=
  ∀ (s : State) (x : Ctx) (run : Run) (w : Waiting),
    let c := x.toNat
    let runs (i : Instr) (op : Nat) (k : Nat → State → Dec) (act : Nat → State → Work) : Prop := dOp w.d = op →
      let kd := k w.d s
      let u := ((s.latch c w).account c kd.w run.hc).corr run.corr
      let r := act w.d u
      (s.decode c w kd ≠ 0 → exec i s = .next (s.endDesc c w (Fin.plain (s.decode c w kd))))
      ∧ (s.decode c w kd = 0 → s.hop.owner = some c → s.cState c = stRunning → s.quiescing 0x400000 = false →
        (run.ecc = none → exec i s = .next (((r.st.issue r.writes).noteNf r.nf).endDesc c w
          ⟨0, r.nf, r.big, r.result, run.hc, ranges r.writes, none⟩))
        ∧ (∀ n loc, run.ecc = some (n, loc) → exec i s = .next ((((u.issue (takeWrites n r.writes)).eccLoc loc).noteNf
          (nfWithin n r.marks)).endDesc c w ⟨7, nfWithin n r.marks, false, 0, run.hc, ranges (takeWrites n r.writes), none⟩)))
    s.ready c = some w →
      runs (.vop x run) 0x08 decVop vopWork ∧ runs (.vred x run) 0x09 decVred vredWork
      ∧ runs (.tload x run) 0x10 (decTload c) tloadWork ∧ runs (.tstore x run) 0x11 (decTstore c) tstoreWork
      ∧ runs (.tbcast x run) 0x12 (decTbcast c) tbcastWork ∧ runs (.mmt x run) 0x13 (decMmt c) mmtWork

/-- Each update descriptor of the context that holds the Anvil runs to its end, and a publication writes its word. U_APPLY,
K_DELTA, U_CASK_OUT, U_CASK_IN and U_PUBLISH complete; what `endDesc` leaves is the statement EndOfADescriptor. (R213, R214,
R215, R226, R227, R230, R231) -/
def Obligations.UpdateDescriptorsRun : Prop :=
  ∀ (s : State) (x : Ctx) (run : Run) (w : Waiting) (v : Nat),
    let c := x.toNat
    let runs (i : Instr) (op : Nat) (k : Nat → State → Dec) (act : Nat → State → Work) : Prop := dOp w.d = op →
      let kd := k w.d s
      let r := act w.d (((s.latch c w).account c kd.w run.hc).corr run.corr)
      s.decode c w kd = 0 → s.hop.owner = some c → s.cState c = stRunning → s.quiescing 0x400000 = false →
        s.applyFree c w.d = true → run.ecc = none →
        exec i s = .next (((r.st.issue r.writes).noteNf r.nf).endDesc c w
          ⟨0, r.nf, r.big, r.result, run.hc, ranges r.writes, none⟩)
    let step := dq w.d 1 0 48
    let a := dq w.d 2 0 48
    let word := step + (if v = 0 then 0 else 2 ^ 48) + (if (c, step) ∈ s.upd.heldIn then 2 ^ 49 else 0)
    s.ready c = some w → s.quiescing 0xA00000 = false →
      runs (.uApply x run) 0x40 (decApply c) (applyWork c) ∧ runs (.kDelta x run) 0x48 (decKDelta c) kDeltaWork
      ∧ runs (.uCaskOut x run) 0x50 (decCaskOut c) caskOutWork ∧ runs (.uCaskIn x run) 0x51 (decCaskIn c) caskInWork
      ∧ (dOp w.d = 0x41 → s.decode c w (decPublish w.d) = 0 → s.verdictOf c step = some v →
        exec (.uPublish x) s =
          .next (((s.latch c w).busWrite a (leBytes 8 word)).endDesc c w
            { Fin.plain 0 with writes := [(a, 8)], upd := if v = 0 then some step else none }))

/-- A leaf tile is discarded for the first reason that applies, is a duplicate, or is held; a complete group passes the adder
tree, unless a block of its slot waits in the codec or the context has taken up PATTERN. LEAF_TILE, GROUP_DELIVERY and LEAF_STALL
complete. How much the codec takes in before it holds is log entry 97. (R138, R139, R140, R141, R142, R143, R160, R399) -/
def Obligations.CollectorTakesTilesAndGroups : Prop :=
  ∀ (s : State) (l : Leaf) (tile : Bytes) (sl : W16) (el : BitVec 40),
    let leaf := l.toNat
    let t := tileOf tile
    let reason : Option Nat :=
      if s.cRunnable t.ctx = false then some 0
      else if s.cPattern t.ctx = true then some 6
      else if s.used t.slot = false ∨ s.slotCtx t.slot ≠ t.ctx then some 1
      else if (s.leafMask t.slot).testBit leaf = false then some 2
      else if t.elem % 256 ≠ 0 ∨ s.lenPad t.slot ≤ t.elem then some 3
      else if t.step ≠ s.cStep t.ctx ∧ t.step ≠ s.cStep t.ctx + 1 then some 4 else none
    let held := s.msh.tiles.any (fun x => x.leaf == leaf && x.slot == t.slot && x.elem == t.elem && x.step == t.step)
    let discard (r b : Nat) : State :=
      ((s.bump 0x900050 1).setRegN 0x900054 (leaf + t.slot * 2 ^ 6 + r * 2 ^ 28 + 2 ^ 31)).err 0x900000 b
    let x : Tile := ⟨leaf, t.ctx, t.slot, t.elem, t.step, tileVals (s.srcFmt t.slot) t.body, s.time.ktime⟩
    let slot := sl.toNat
    let c := s.slotCtx slot
    let step := s.cStep c
    let ts := s.groupTiles slot el.toNat step
    let sum (i : Nat) : Nat := collect (fadd (if s.srcFmt slot = 3 then f64 else f32))
      ((List.range 64).map (fun l => (ts.find? (fun y => y.leaf == l)).map (fun y => y.vals.getD i 0)))
    let free (y : Tile) : Bool := !(y.slot == slot && y.elem == el.toNat && y.step == step)
    (s.xing 1 leaf = .opened → s.quiescing 0x900000 = false → (s.msh.tiles.filter (fun y => y.leaf == leaf)).length < 32 →
      (∀ r, reason = some r → exec (.leafTile l tile) s = .next (discard r 8))
      ∧ (reason = none → held = true → exec (.leafTile l tile) s = .next (discard 5 9))
      ∧ (reason = none → held = false → exec (.leafTile l tile) s =
        .next (({ s with msh := { s.msh with tiles := s.msh.tiles ++ [x] } } : State).phStart t.ctx t.step phQuant)))
    ∧ (s.cPattern c = true ∨ s.codecHolds slot step (el.toNat / 4096) = true → exec (.groupDelivery sl el) s = .next s)
    ∧ (s.quantOk c step = true → s.groupDone slot el.toNat step = true → s.leafMask slot ≠ 0 → s.cPattern c = false →
      s.codecHolds slot step (el.toNat / 4096) = false →
      exec (.groupDelivery sl el) s = .next (({ s with
        msh := { s.msh with tiles := s.msh.tiles.filter free,
                            stalled := s.msh.stalled.filter (fun k => k != (slot, el.toNat, step)) },
        pck := { s.pck with front := s.pck.front ++ [⟨c, slot, step, el.toNat, false, (List.range 256).map sum⟩] } } : State).countEv
          0x900000 0x10 1))
    ∧ (∃ u, exec .leafStall s = .next u ∧ u.msh.stalled = s.msh.stalled ++ s.stalls ∧ u.msh.tiles = s.msh.tiles
      ∧ u.mem = s.mem ∧ (s.stalls ≠ [] → (u.regN 0x900018).testBit 10 = true))

/-- The boundary puts a new step's scales in force, and the codec and the pattern source take the next block, while no block of
the slot waits. SCALES_READY, PATTERN_SOURCE and QUANTISE_BLOCK complete. That VERDICT ends at SCALES_READY is log entry 95.
(R86, R92, R106, R160, R334, R355, R400, R401) -/
def Obligations.StepBoundaryAndCodec : Prop :=
  ∀ (s : State) (x : Ctx) (sl : W16) (bk : BitVec 28) (b : Bound) (p : Pat) (vals : List Nat) (pat : Bool),
    let c := x.toNat
    let t := sl.toNat
    let blk := bk.toNat
    let d := s.slotCtx t
    let step := s.cStep d
    let e := s.eff t
    let u := s.takeFront t step blk
    let waits := s.policy d = 1 ∧ e.resid = true ∧ s.qcn.msgs.any (carryWaits t blk step) = true
    let f := if s.fmt p.slot = 4 then f64 else f32
    let v (i : Nat) : Nat := patValue f (s.seed p.slot p.step) (fld (s.pckW p.slot 3) 8 2) (sgn 8 (fld (s.pckW p.slot 3) 0 8))
      (s.len p.slot) (p.elem + i)
    let nx : Option Pat := if p.elem + 256 < s.lenPad p.slot then some { p with elem := p.elem + 256 }
      else (nextSlot (s.slotsOf c) p.slot).map (fun t => ⟨p.step, t, 0⟩)
    let z := (((s.runBoundary c b).applyUpd c).applyGrd c).phEnd c b.step phVerdict
    (s.tmp.bound.get (fun _ => none) c = some b → s.quiescing 0x500000 = false → ∃ w, exec (.scalesReady x) s = .next w
      ∧ w = (if b.verdict = 0 then z.phStart c b.step phUpdate else z).touch c
      ∧ w.tmp.bound.get (fun _ => none) c = none ∧ w.tmp.closed.get (fun _ => none) c = some b.step)
    ∧ (s.msh.pat.get (fun _ => none) c = some p → s.quantOk c p.step = true → s.quiescing 0x900000 = false →
      s.codecHolds p.slot p.step (p.elem / 4096) = false → exec (.patternSource x) s = .next (({ s with
        msh := { s.msh with pat := s.msh.pat.set (fun _ => none) c nx },
        pck := { s.pck with front := s.pck.front ++ [⟨c, p.slot, p.step, p.elem, true, (List.range 256).map v⟩] } } : State).phStart
          c p.step phQuant))
    ∧ (s.quiescing 0x800000 = false → (e.rot = true → s.quiescing 0x600000 = false) →
      (e.topk = true → s.quiescing 0x700000 = false) → s.used t = true → s.quantOk d step = true →
      s.codecHolds t step blk = false → s.frontOf t step blk = some (vals, pat) →
      (¬ waits → exec (.quantiseBlock sl bk) s = .next (if s.resBlocked t blk e = true then s.faultCtx d
        else if isCoded e.fmt = true then u.codeBlock t blk step e vals pat
        else if e.fmt = 4 then u.windowBlock t blk step vals pat else u.rawBlock t blk step e vals pat))
      ∧ (waits → s.qcn.msgs.any (fun m => carryWaits t blk step m && !m.waited) = true → exec (.quantiseBlock sl bk) s =
        .next (({ s with qcn := { s.qcn with
          msgs := s.qcn.msgs.map (fun m => if carryWaits t blk step m then { m with waited := true } else m) } } : State).yieldEv
            d 5 4)))

/-- A package's own block is sent to its parent, added to its open block, or folded; complete sums reach the owner's banks.
ORIGIN_BLOCK_SEND, OWNER_FRONT and RELEASE complete. Emitted blocks go first. That an own block under a FINAL record is dropped
is log entry 14. (R148, R160, R162, R209, R210, R332, R333, R350) -/
def Obligations.OwnPartOfABlock : Prop :=
  ∀ (s : State) (x : Ctx) (bs : W16) (o : Own) (r : Route) (h : Hand) (hs : List Hand) (t : State),
    let c := x.toNat
    let b := bs.toNat
    let n := s.msh.ownNext.get (fun _ => 0) (bKey c b)
    let step := s.cStep c
    let w : State := { s with msh := { s.msh with hands := hs } }
    let us := s.recsOf h.slot
    let gs := s.ownerG h
    let und := (indexed 0 (s.ownerZ h)).any (fun p => p.2.2 && us.any (fun u => s.owns u h.rot (4096 * h.tblk + p.1)))
    let w1 := if und then w.svFlag h.slot 0x200 else w
    let w2 := if h.kind = 0 && h.rot then w1.bumpWide 0x600048 (s.ownedGroups h) else w1
    let rs := (s.routes c).filter (fun r => s.receives r && !r.final)
    let rel := rs.foldl (fun s r => (List.range r.nblk).foldl (fun s j => s.releaseBlock c r (r.first + j)) s) s
    (s.cActive c = true → (s.hx c).opened ≠ 0 →
      s.pck.own.find? (fun o => o.ctx == c && o.bslot == b && o.blk == n && o.step == step) = some o →
      s.routeFor c b n = some r →
      (r.final = true → exec (.originBlockSend x bs) s = .next ((s.ownTaken o).markVerdict c))
      ∧ (r.final = false → r.children = [] → r.parent ≠ s.node →
        (s.carriedIn c (s.billetId b) n = true → exec (.originBlockSend x bs) s =
          .next ((((s.ownTaken o).uncounted o.slot step o.g.block).foldOwn c step o.slot (s.qOf o.slot) o.g (s.billetId b)
            n).markVerdict c))
        ∧ (s.carriedIn c (s.billetId b) n = false → s.msh.opens.any s.emitReady = true →
          exec (.originBlockSend x bs) s = .next s)
        ∧ (s.carriedIn c (s.billetId b) n = false → s.msh.opens.any s.emitReady = false →
          s.trySend c b n r.parent r.pgrp false (some (o.slot, s.qOf o.slot, o.g)) o.g = some t →
          exec (.originBlockSend x bs) s = .next (((t.ownTaken o).phStart c step phPack).phEnd c step phPack)))
      ∧ (r.final = false → r.children ≠ [] ∨ r.parent = s.node →
        exec (.originBlockSend x bs) s = .next ((s.addOwn r o).markVerdict c)))
    ∧ (s.msh.hands = h :: hs → h.kind = 0 → h.rot = true → s.quiescing 0x600000 = true → exec .ownerFront s = .next s)
    ∧ (s.msh.hands = h :: hs → h.kind ≠ 0 ∨ h.rot = false ∨ s.quiescing 0x600000 = false → exec .ownerFront s =
      .next ((((us.foldl (fun s u => s.toBank h gs u) w2).hashHand h).markVerdict h.ctx).touch h.ctx))
    ∧ (s.releaseDue c = true → exec (.release x) s =
      .next ((rel.setGx c { rel.gx c with released := true }).countEv 0xE01000 0x12 1))

/-- A received block passes the tests in order and is taken, answered or refused; a complete block goes on and leaves. DATA and
BLOCK_EMIT complete. (R247, R117, R444, R148, R149, R151, R248) -/
def Obligations.ReceivedBlocksAndEmission : Prop :=
  ∀ (s : State) (x : Ctx) (bs : W16) (bk : BitVec 20) (m : Rx) (b i : Nat) (r : Route) (ns : List Nat),
    let u := s.rxDrop m
    let c := m.key.ctx
    let n := m.key.blk
    let o := u.openOf c b n
    let d := u.dOf c r
    let win := u.winFor c r m.src
    let closed : Prop := (u.closeOf c m.key.gen m.key.step).isSome = true
    let e := s.openOf x.toNat bs.toNat bk.toNat
    let z := s.sendTodo r e ns
    (s.quiescing 0x900000 = false → s.rxFind (fun r => r.key.kind == 0) = some m → u.cRunnable c = true →
      u.cGen c = m.key.gen → m.key.step = u.cStep c →
      (u.billetSlot c m.key.billet = none → exec .data s = .next (u.bump 0xB02048 1))
      ∧ (u.billetSlot c m.key.billet = some b → u.routeFor c b n = some r →
        (r.childPos m.src = none → exec .data s = .next (u.bump 0xB02048 1))
        ∧ (r.childPos m.src = some i →
          (closed ∨ n ∈ u.emitted c b → exec .data s = .next ((if u.cooled m = true then u.ansLate m r.first d win
            else u.ansDup m r.first d win).setAdv c r i d win))
          ∧ (¬ closed → n ∉ u.emitted c b → i ∈ o.marked → exec .data s = .next ((u.ansDup m r.first d win).setAdv c r i d win))
          ∧ (¬ closed → n ∉ u.emitted c b → i ∉ o.marked → o.released = true ∨ u.listed c m.key.billet n m.src = true →
            exec .data s = .next ((u.ansLate m r.first d win).setAdv c r i d win))
          ∧ (¬ closed → n ∉ u.emitted c b → i ∉ o.marked → o.released = false → u.listed c m.key.billet n m.src = false →
            (∀ g, u.checkBlock c b n m.bytes = .inl g → exec .data s = .next (u.operand m r i g))
            ∧ (∀ k, u.checkBlock c b n m.bytes = .inr k → exec .data s = .next (u.integrity c k m.src))))))
    ∧ (s.routeFor x.toNat bs.toNat bk.toNat = some r → s.cActive x.toNat = true → (s.hx x.toNat).opened ≠ 0 →
      s.receives r = true → bk.toNat ∉ s.emitted x.toNat bs.toNat → s.isComplete r e = true → e.todo = some ns →
      (z.2 = [] → exec (.blockEmit x bs bk) s = .next (z.1.endEmit r e))
      ∧ (z.2 ≠ [] → exec (.blockEmit x bs bk) s = .next (z.1.putOpen { e with todo := some z.2 })))
    ∧ (s.routeFor x.toNat bs.toNat bk.toNat = some r → s.cActive x.toNat = true → (s.hx x.toNat).opened ≠ 0 →
      s.receives r = true → bk.toNat ∉ s.emitted x.toNat bs.toNat → s.isComplete r e = true → e.todo = none →
      let v := s.startEmit r e
      ((v.openOf x.toNat bs.toNat bk.toNat).todo = none → exec (.blockEmit x bs bk) s = .next v)
      ∧ ((v.openOf x.toNat bs.toNat bk.toNat).todo = some ns →
        let q := v.sendTodo r (v.openOf x.toNat bs.toNat bk.toNat) ns
        exec (.blockEmit x bs bk) s = .next (if q.2 = [] then q.1.endEmit r (v.openOf x.toNat bs.toNat bk.toNat)
          else q.1.putOpen { v.openOf x.toNat bs.toNat bk.toNat with todo := some q.2 })))

/-- A frame is taken out of its encapsulation and tested in the order of Table 9-6 before its segment is stored; a complete Tongs
request of a reserved TOP is discarded, once. SEGMENT and KX1_FRAME complete. That a package's own SRC fences it right after
test 1 is the model's reading (log entry 25). (R236, R237, R240, R247, R252, R262, R265, R275, R288, 09 Table 9-6) -/
def Obligations.FramesPassTheReceiveTests : Prop :=
  ∀ (s : State) (pt : Port) (frame bs : Bytes) (out : Option Nat),
    let p := pt.toNat
    let h := hdrOf bs
    let ce := (out.getD h.ecn) == 3
    let seg := (bs.drop 48).take h.slen
    let count (ce : Bool) : State := if ce then (s.bump (qcn3 p 0x4C) 1).bump (qcn3 p 0x50) 1 else s.bump (qcn3 p 0x4C) 1
    let u := count ce
    let age := (u.time.ktime / 256 + 2 ^ 40 - h.tsend) % 2 ^ 40
    let inc := match u.incOf h.src with
      | some i => h.incarn == i
      | none => h.kind == 3 && h.incarn == 0
    let top := nfld h.spec 0 3
    let late := (h.kind = 1 ∨ h.kind = 2 ∨ (h.kind = 4 ∧ 3 ≤ top ∧ top ≤ 5)) ∧ u.wasRetired h.ctx h.gen = true
    let kept := u.rxStore p h ce seg
    (s.macPort p).link = true → s.xing 3 p = .opened → ∀ i, i = .segment pt frame ∨ i = .kx1Frame pt frame →
      (s.decap frame = none → exec i s = .next (s.bump 0xB02040 1))
      ∧ (s.decap frame = some (bs, out) → nfld (ofLe (bs.take 1)) 0 4 = 1 →
        (kx1Ok bs = false → exec i s = .next (s.bump 0xB02040 1))
        ∧ (kx1Ok bs = true → exec i s =
          .next ((count (out == some 3)).kx1Tests p (out == some 3) (kx1Of bs) ((bs.take (bs.length - 4)).drop 32))))
      ∧ (s.decap frame = some (bs, out) → nfld (ofLe (bs.take 1)) 0 4 ≠ 1 →
        (s.hdrOk bs = false → exec i s = .next (s.bump 0xB02040 1))
        ∧ (s.hdrOk bs = true → s.e2eOk bs = false → exec i s = .next (s.bump 0xB02044 1))
        ∧ (s.hdrOk bs = true → s.e2eOk bs = true → s.frameLen bs = true → exec i s = .next (
          if h.src = u.node then u.fence
          else if h.dst ≠ u.node then u.bump 0xB02048 1
          else if inc = false then u.bump 0xB0204C 1
          else if 195313 < age then u.bump 0xB02050 1
          else if u.genOk h = false then (if late then u.bump 0xB02064 1 else u.bump 0xB02054 1)
          else match kept.rxFind (fun r => r.key.kind == 4 && decide (6 ≤ r.top)) with
            | some x => (kept.rxDrop x).bump 0xC00078 1
            | none => kept)))

/-- An ACK ends the message whose key it matches, in whatever state, unless that is a Tongs read or of a reset context; any other
is stray; credit for the current or next step is held and answered. ACK and CREDIT complete. A CREDIT that names no Billet of
the context is acknowledged without effect (log entry 25). (R241, R245, R246, R262, R273, 09 Table 9-6) -/
def Obligations.AnswersEndMessages : Prop :=
  ∀ (s : State) (r : Rx) (m : Msg) (b : Nat),
    let u := s.rxDrop r
    let k : MKey := { r.key with dst := r.src, kind := nfld r.spec 82 4 }
    let mine (m : Msg) : Bool := m.key == k && !m.gone && !(m.key.kind == 4 && nfld m.spec 0 3 != 0)
    let c := r.key.ctx
    let cr : Credit := ⟨r.src, c, r.key.step, b, nfld r.spec 0 20, nfld r.spec 56 20, nfld r.spec 20 20, nfld r.spec 40 16⟩
    (s.rxFind (fun r => r.key.kind == 1) = some r →
      (u.qcn.msgs.find? mine = some m → exec .ack s =
        .next ((u.answered m (nfld r.spec 56 20) (if r.spec.testBit 77 then 1 else 0)).afterAck r m))
      ∧ (u.qcn.msgs.find? mine = none → exec .ack s = .next u.stray))
    ∧ (s.rxFind (fun r => r.key.kind == 2) = some r → u.cRunnable c = true → u.cGen c = r.key.gen →
      (r.key.step = u.cStep c ∨ r.key.step = u.cStep c + 1 →
        (u.billetSlot c r.key.billet = some b → exec .credit s = .next ((u.putCredit cr).ack r 0 0 0 false false))
        ∧ (u.billetSlot c r.key.billet = none → exec .credit s = .next (u.ack r 0 0 0 false false)))
      ∧ (r.key.step ≠ u.cStep c → r.key.step ≠ u.cStep c + 1 → exec .credit s = .next u))

/-- The egress arbiter grants the first non-empty class, a timed-out attempt is retried, and a message ends UNKNOWN 25 ms after
TSEND. EGRESS_GRANT, RETRY_TIMEOUT and LIFETIME_END complete. What counts as handed over without an up port is log entry 107.
(R237, R242, R243, R254, R260) -/
def Obligations.EgressAndRetries : Prop :=
  ∀ (s : State) (pt : Port) (q : Shot) (m : Msg),
    let p := pt.toNat
    let t := s.portless
    let w := t.onFlow m (fun f => { f with cwnd := max (t.regN 0xB01044) (f.cwnd / 2) })
    ((s.macPort p).up = true →
      (s.nextGrant p = none → exec (.egressGrant pt) s = .next s)
      ∧ (s.nextGrant p = some (.shot q) → exec (.egressGrant pt) s = .next (s.grantShot p q)
        ∧ (s.grantShot p q).out = (if q.key.kind = 7 then s.kx1Frame p q.key q.spec q.payload
            else s.frameOf p q.key q.attempt q.spec q.done (q.tsend.getD s.time.ktime) q.payload) :: s.out
        ∧ (q.done + 1 = (if q.key.kind = 7 then 1 else s.segCount q.payload) → ∀ z ∈ (s.grantShot p q).qcn.shots,
          z.order ≠ q.order))
      ∧ (s.nextGrant p = some (.msg m) → exec (.egressGrant pt) s = .next (s.grantMsg p m)))
    ∧ (t.qcn.msgs.filter t.timedOut = [] → exec .retryTimeout s = .next t)
    ∧ (t.qcn.msgs.filter t.timedOut = [m] →
      (m.attempt = 12 → exec .retryTimeout s = .next (((w.bump 0xB02070 1).err 0xB00000 8).endUnknown m))
      ∧ (m.attempt < 12 → w.upPorts m.group ≠ [] → exec .retryTimeout s = .next
        (w.putMsg { m with attempt := m.attempt + 1, active := true, done := 0, port := none, withdrawn := false }))
      ∧ (m.attempt < 12 → w.upPorts m.group = [] → exec .retryTimeout s = .next
        (w.putMsg { m with attempt := m.attempt + 1, sentAt := m.sentAt + timeoutOf m.attempt * usec })))
    ∧ (exec .lifetimeEnd s = .next ((s.qcn.msgs.filter (fun m => m.phase != .queued
        && decide (m.tsend + 25000 * usec ≤ s.time.ktime))).foldl (fun s m => s.endUnknown m) s))

/-- A port is up after its hold interval and goes down with its link; its attempts are withdrawn and go on another up port of
their group. LINK_UP, PORT_UP and PORT_DOWN complete. (R256, R257, R258, R259, R381, 16 Table 16-9) -/
def Obligations.MacPortsComeAndGo : Prop :=
  ∀ (s : State) (pt : Port) (t0 : Nat),
    let p := pt.toNat
    let x := s.macPort p
    let on := s.setPort p { x with link := true }
    let off := (s.setPort p { x with link := false }).setPort p ⟨false, false, none⟩
    let lost := (s.qcn.msgs.filter (fun m => m.active && m.port == some p)).length
    (s.xing 3 p = .opened → x.since = none → exec (.linkUp pt) s = .next (on.setPort p { x with link := true, since := some s.time.ktime }))
    ∧ (s.xing 3 p ≠ .opened ∨ x.since ≠ none → exec (.linkUp pt) s = .next on)
    ∧ (x.link = true → s.xing 3 p = .opened → x.since = some t0 → t0 + s.regN 0xB01054 * usec ≤ s.time.ktime →
      exec (.portUp pt) s = .next ((s.setPort p { x with up := true }).portBack p).timePort)
    ∧ (x.up = false → exec (.portDown pt) s = .next off)
    ∧ (x.up = true → exec (.portDown pt) s = .next (((({ off with
        qcn := { off.qcn with
          msgs := s.qcn.msgs.map (fun m => if m.active = true ∧ m.port = some p then
            { m with withdrawn := true, port := hashPort (hashOf m.key m.spec) (off.upPorts m.group), done := 0 } else m),
          shots := s.qcn.shots.map (fun q => if q.cls ≠ 1 ∧ q.port = some p then
            { q with moved := true, port := hashPort (hashOf q.key q.spec) (off.upPorts 0), done := 0 } else q) },
        iden := { off.iden with down := off.iden.down ++ [p] } } : State).bump (qcn3 p 0x44) 1).bump (qcn3 p 0x54) lost).err
          (qcn3 p 0) 8).portless.timePort)

/-- Incomplete messages, closed steps and retired generations are forgotten after their times, and no earlier.
REASSEMBLY_TIMEOUT, COOLING_EXPIRY and GEN_COOLING_END complete. (R248, R249, R250, R252) -/
def Obligations.QuiconForgetsInTime : Prop :=
  ∀ (s : State),
    let dead (r : Rx) : Bool := !r.full && decide (r.last + 3200 * usec ≤ s.time.ktime)
    let old (x : Close) : Bool := decide (x.at_ + 32000 * usec ≤ s.time.ktime)
    let u : State := { s with qcn := { s.qcn with
      closes := s.qcn.closes.filter (fun x => !old x),
      cool := s.qcn.cool.filter (fun e => !(s.qcn.closes.filter old).any (fun x => x.ctx == e.ctx && x.gen == e.gen
        && x.step == e.step)) } }
    ((∃ r ∈ s.qcn.rx, dead r = true) → exec .reassemblyTimeout s =
      .next (({ s with qcn := { s.qcn with rx := s.qcn.rx.filter (fun r => !dead r) } } : State).bump 0xB0206C
        (s.qcn.rx.filter dead).length))
    ∧ ((∀ c ∈ s.live, (s.gx c).toHold = none) → exec .coolingExpiry s = .next u)
    ∧ (∀ c v, s.live = [c] → (s.gx c).toHold = some v → exec .coolingExpiry s = .next (u.verdictEnd c v))
    ∧ exec .genCoolingEnd s = .next { s with qcn := { s.qcn with
      retired := s.qcn.retired.filter (fun r => decide (s.time.ktime < r.at_ + 32000 * usec)) } }

/-- The next posted entry of a queue starts as its opcode says; a bad entry completes BAD_ENTRY; a wait ends at its count; a poll
is sent again. QUEUE_NOP, QUEUE_WRITE, QUEUE_READ, WAIT_LCNT, WAIT_RCNT, PUBCHK, WAIT_LCNT_MET and QUEUE_POLL complete. In
each case `qBegin` takes the entry into the queue's started entries and moves the queue past it. (R281, R282, R283, R285,
R286, 10 Table 10-8) -/
def Obligations.QueueEntriesStart : Prop :=
  ∀ (s : State) (q : BitVec 10) (ecc : Bool),
    let n := q.toNat
    let x := s.qx n
    let w := s.entWord n x.next
    let e : QEnt := ⟨x.next, w, none, none, none, false⟩
    let t := s.setQx n { x with
      next := if s.qCyclic n then x.next + 1 else (x.next + 1) % s.qRing n, ents := x.ents ++ [e] }
    (s.qPosted n = true → x.skip = false → s.qMay n (eOp w) = true →
      (s.badEntry n w = false →
        (eOp w = 0 → exec (.queueNop q) s = .next (t.tngDone n x.next 0))
        ∧ (eOp w = 1 → s.inFootprint (eLocal w) (eLen w) = false →
          exec (.queueWrite q ecc) s = .next (
            if ecc = true then t.tngDone n x.next 5
            else if w.testBit 9 = true then (t.mapEnt n x.next (fun y => { y with held := true })).flagOne n x.next
            else t.tngIssue n e))
        ∧ (eOp w = 2 → exec (.queueRead q) s = .next (t.tngIssue n e))
        ∧ (eOp w = 3 → exec (.waitLcnt q) s = .next t)
        ∧ (eOp w = 4 → exec (.waitRcnt q) s = .next (t.tngIssue n e))
        ∧ (eOp w = 5 → exec (.pubchk q) s = .next (t.tngIssue n e)))
      ∧ (s.badEntry n w = true → ∀ i, i = .queueNop q ∨ i = .queueWrite q ecc ∨ i = .queueRead q ∨ i = .waitLcnt q
          ∨ i = .waitRcnt q ∨ i = .pubchk q → exec i s = .next (t.tngDone n x.next 8)))
    ∧ (∀ y, x.ents.find? (fun e => eOp e.w == 3 && e.status.isNone) = some y →
      (s.eValue n y.w ≤ s.localCount n y.w → exec (.waitLcntMet q) s = .next (s.tngDone n y.pos 0))
      ∧ (s.localCount n y.w < s.eValue n y.w → exec (.waitLcntMet q) s = .next s))
    ∧ (∀ y, x.ents.find? (pollDue s.time.ktime) = some y →
      exec (.queuePoll q) s = .next (s.tngIssue n y))

/-- The target decides on a request by the first test of Table 10-5, performs a passed one, and acknowledges a write after the
fabric. TONGS_WRITE, TONGS_READ, CNT_READ, TONGS_WRITE_DONE and DONE_EXPIRY complete. The readings of log entry 7 (sealing),
of log entry 44 (the done list in memory) and of log entry 109 (no answer without a key) are the model's. (R273, R275, R276,
R278, 10 Table 10-5) -/
def Obligations.TongsTargetTests : Prop :=
  ∀ (s u : State) (r : Rx) (pt : Bytes) (poison : Bool),
    let c := r.key.ctx
    let a := u.dAddr (u.cPdom c) 0 + nfld r.spec 11 48
    let len := nfld r.spec 59 17
    let code := u.tngCode r pt
    let put := ((u.busWrite a (pt.drop 8)).addDone r none).countEv 0xC00000 0x10 1
    (s.tngTake r = .inr (u, pt) →
      (s.tngRx 0 = some r →
        (∀ e, u.tng.dones.find? (fun e => e.isOf r) = some e → exec .tongsWrite s = .next (
          match e.answer with
          | none => u.bump 0xC00080 1
          | some 0 => (u.bump 0xC00080 1).ack r 0 0 0 true false
          | some k => (u.bump 0xC00080 1).tngNak r k))
        ∧ (u.tng.dones.find? (fun e => e.isOf r) = none →
          (2 ^ u.regF 0xC0006C 0 5 ≤ u.tng.dones.length →
            exec .tongsWrite s = .next ((u.bump 0xC00088 1).err 0xC00000 11))
          ∧ (u.tng.dones.length < 2 ^ u.regF 0xC0006C 0 5 →
            (code ≠ 0 → exec .tongsWrite s = .next ((u.addDone r (some code)).tngNak r code))
            ∧ (code = 0 → u.inFootprint a len = false → exec .tongsWrite s = .next ({ put with tng := { put.tng with
              perf := put.tng.perf ++ [⟨{ r with segs := [] },
                if r.spec.testBit 5 = true then some (16 * u.cPdom c + nfld r.spec 6 4) else none, (a, len)⟩] } })))))
      ∧ (s.tngRx 1 = some r →
        (code ≠ 0 → exec (.tongsRead poison) s = .next (u.tngNak r code))
        ∧ (code = 0 → u.inFootprint a len = false →
          (poison = true → exec (.tongsRead poison) s = .next (u.tngNak r 5))
          ∧ (poison = false →
            let spec := tngSpec 3 false (u.cEnc c) false 0 0 0 len 0
            (u.tngSeal c spec (u.bytes a len) = none → exec (.tongsRead poison) s = .next u)
            ∧ (∀ bs v, u.tngSeal c spec (u.bytes a len) = some (bs, v) →
              exec (.tongsRead poison) s = .next ((v.countEv 0xC00000 0x10 1).tngAnswer r spec bs)))))
      ∧ (s.tngRx 2 = some r →
        (code ≠ 0 → exec .cntRead s = .next (u.tngNak r code))
        ∧ (code = 0 → exec .cntRead s = .next ((u.countEv 0xC00000 0x10 1).tngAnswer r
          (tngSpec 4 false false false 0 0
            (if r.spec.testBit 10 then u.arrival (u.cPdom c) (nfld r.spec 6 4) else u.cCmplCnt c) 0 0) []))))
    ∧ (∀ p ps, s.tng.perf = p :: ps →
      let z := ({ s with tng := { s.tng with perf := ps } } : State).setDone p.rx
      exec .tongsWriteDone s = .next ((match p.adv with
        | none => z
        | some i => z.setArrival (i / 16) (i % 16) ((s.arrival (i / 16) (i % 16) + 1) % 2 ^ 48)).ack p.rx 0 0 0 false false)
      ∧ z.tng.dones = s.tng.dones.map (fun e => if e.isOf p.rx = true then { e with answer := some 0 } else e)
      ∧ z.domR = s.domR)
    ∧ (∃ t, exec .doneExpiry s = .next t ∧ t = { s with tng := { s.tng with dones := t.tng.dones } }
      ∧ ∀ e, e ∈ t.tng.dones ↔ e ∈ s.tng.dones ∧ s.time.ktime < e.at_ + 32000 * usec)

/-- An answer that matches a held request ends it and completes its entry; one that matches none is stray. RRESP,
LOCAL_WRITE_ACK, CNT_RESP and NAK complete. (R274, R282, R284, R285, 10 Table 10-8) -/
def Obligations.TongsAnswersEndEntries : Prop :=
  ∀ (s : State) (r : Rx) (m : Msg) (e : QEnt) (pt : Bytes),
    let u := s.rxDrop r
    let c := r.key.ctx
    let q := r.key.billet
    let v := u.answered m (nfld r.ce 0 20) 0
    let code := nfld r.spec 76 4
    (u.tngHeld r = none →
      (s.tngRx 3 = some r → exec .rresp s = .next u.stray) ∧ (s.tngRx 4 = some r → exec .cntResp s = .next u.stray)
        ∧ (s.tngRx 5 = some r → exec .nak s = .next u.stray))
    ∧ (u.tngHeld r = some (m, some e) →
      (s.tngRx 3 = some r → nfld m.spec 0 3 = 1 → u.tngOpen c r.spec r.bytes = some pt → pt.length = nfld m.spec 59 17 →
        nfld r.spec 59 17 = nfld m.spec 59 17 → r.spec.testBit 4 = u.cEnc c →
        (eOp e.w = 5 →
          let w := v.setQx q { v.qx q with skip := (ofLe pt).testBit 48 }
          exec .rresp s = .next (skipRun q (w.qRing q) (w.tngDone q e.pos 0)))
        ∧ (eOp e.w ≠ 5 →
          let w := (v.ctxWrite c (eLocal e.w) pt).mapEnt q e.pos (fun y => { y with key := none })
          exec .rresp s = .next { w with tng := { w.tng with
            locals := w.tng.locals ++ [⟨q, e.pos, eLocal e.w, pt.length⟩] } }))
      ∧ (s.tngRx 4 = some r → nfld m.spec 0 3 = 2 →
        (v.eValue q e.w ≤ nfld r.spec 11 48 → exec .cntResp s = .next (v.tngDone q e.pos 0))
        ∧ (nfld r.spec 11 48 < v.eValue q e.w → exec .cntResp s = .next (v.mapEnt q e.pos (fun y =>
          { y with key := none, pollAt := some (s.time.ktime + 2 * s.regN 0xC00060) }))))
      ∧ (s.tngRx 5 = some r →
        (1 ≤ code ∧ code ≤ 5 → exec .nak s = .next (v.tngDone q e.pos code))
        ∧ (code = 0 ∨ 5 < code → exec .nak s = .next u)))
    ∧ (∀ l ls, s.tng.locals = l :: ls →
      exec .localWriteAck s = .next ({ s with tng := { s.tng with locals := ls } }.tngDone l.queue l.pos 0))

/-- Tokens refill and are charged at admission; a client access is served by its partition's state, or refused and counted.
REFILL, CHANNEL_ADMIT, CLIENT_READ and CLIENT_WRITE complete. The channel 0 request that the controller presents is the
command's operand, and it waits its turn; that INIT places a block at each CHANNEL_ADMIT is log entry 119. (R293, R297, R298,
R303, R306, R308, R311) -/
def Obligations.MaltClientsAndRegulator : Prop :=
  ∀ (s t : State) (inst : BitVec 4) (addr : BitVec 48) (len : BitVec 13) (poison : Bool) (data : Bytes) (tun : Option Nat)
    (p n : Nat) (r : MReq) (x : MWalk),
    let i := inst.toNat
    let a := addr.toNat
    let z := (initOne i s).present i tun
    let waits := (z.waits i).find? (fun w => z.admits i w.ch)
    let after (v : State) : State := (encodeWhole i v.mlt.ents v).retryHeld i
    let ends := s.pAddr i p 1 + s.pAddr i p 3
    (∃ u, exec .refill s = .next u ∧ ∀ k c, k < 16 → c < 8 →
      u.tok k c = min ((s.chRate k c).2 : Int) (s.tok k c + (s.chRate k c).1)
      ∧ u.tok k 8 = min (s.regN (mltReg k 0x68) : Int) (s.tok k 8 + s.ceilB k))
    ∧ (tun = none → z = initOne i s)
    ∧ (tun = some n → z = ((initOne i s).maltReq i 0 n .tun).emit (.tunReady i false))
    ∧ (waits = some (.req r) → exec (.channelAdmit inst tun) s = .next (after ((z.chargeTok i r.ch r.bytes).perform r)))
    ∧ (waits = some (.walk x) → exec (.channelAdmit inst tun) s = .next (after (z.walkOne x)))
    ∧ (waits = none → exec (.channelAdmit inst tun) s = .next (after z))
    ∧ (r.kind = .tun → (s.perform r).out = .tunReady r.inst true :: s.out)
    ∧ (s.partAt i a = none → exec (.clientRead inst addr len poison) s = .next (s.emit (.client i a 1 []))
      ∧ exec (.clientWrite inst addr data) s = .next (s.emit (.client i a 1 [])))
    ∧ (s.partAt i a = some p →
      (s.pState i p ≠ 2 ∨ s.sliceOpen i = false → exec (.clientRead inst addr len poison) s =
        .next ((s.bumpPw i p 22 1).emit (.client i a 1 [])))
      ∧ (s.pState i p = 2 → s.sliceOpen i = true → 0 < len.toNat → a + len.toNat ≤ ends →
        exec (.clientRead inst addr len poison) s =
          .next ((s.pieces i p a len.toNat).foldl (fun s x => s.readPiece i p poison x) s))
      ∧ ((s.mset i p).mode = 2 → exec (.clientWrite inst addr data) s =
        .next ((s.bumpPw i p 23 1).emit (.client i a 1 [])))
      ∧ ((s.mset i p).mode ≠ 2 →
        (s.pState i p ≠ 2 ∨ s.sliceOpen i = false → exec (.clientWrite inst addr data) s =
          .next ((s.bumpPw i p 22 1).emit (.client i a 1 [])))
        ∧ (s.pState i p = 2 → s.sliceOpen i = true → data ≠ [] → a + data.length ≤ ends →
          writePieces i p data a (s.pieces i p a data.length) s = some t →
          exec (.clientWrite inst addr data) s = .next (t.emit (.client i a 0 [])))))

/-- INIT ends in READY; pass 1 of a pack ends FULL or starts pass 2; pass 2 ends DONE or CHANGED, with MLT_PACK_STAT and its
copy; none of them while its blocks still lie in the smoothing queue. INIT_DONE, PACK_PASS1_END and PACK_END complete. A running
pack also ends BAD_ARG when its partition is disabled (log entry 60). (R299, R301, R302, R306) -/
def Obligations.InitAndPacksEnd : Prop :=
  ∀ (s : State) (inst : BitVec 4) (part : BitVec 3) (x : MWalk),
    let i := inst.toNat
    let p := part.toNat
    let rest := { s with mlt := { s.mlt with walks := s.mlt.walks.filter (fun y => !(y.inst == x.inst && y.part == x.part)) } }
    let ends (result st : Nat) : State := (rest.setPw x.inst x.part 16 st).packStat x.inst result x.off true
    (s.walkOf i p = some x → x.pass = 0 → s.walking x = false → s.draining i p = false →
      exec (.initDone inst part) s = .next (rest.setPw i p 16 2))
    ∧ (s.walkOf i p = some x → s.walking x = true ∨ s.draining i p = true → exec (.initDone inst part) s = .next s)
    ∧ (s.mlt.walks.find? (fun y => y.inst == i && y.pass == 1) = some x → s.walking x = false →
      (s.pAddr i x.part 7 < 64 * x.off → exec (.packPass1End inst) s = .next (ends 2 4))
      ∧ (64 * x.off ≤ s.pAddr i x.part 7 → exec (.packPass1End inst) s = .next { s with mlt := { s.mlt with
        walks := s.mlt.walks.map (fun z => if z == x then { x with pass := 2, next := 0 } else z) } }))
    ∧ (s.mlt.walks.find? (fun y => y.inst == i && y.pass == 2) = some x → s.walking x = false →
      (s.draining i x.part = true → exec (.packEnd inst) s = .next s)
      ∧ (s.draining i x.part = false → x.changed = false → exec (.packEnd inst) s = .next (ends 0 2))
      ∧ (s.draining i x.part = false → x.changed = true → exec (.packEnd inst) s = .next (ends 3 4)))

/-- A GUARD message is acknowledged and handed on once: a wrong GEN is counted, a fenced package only acknowledges, a copy is
answered DUP. The readings of parts and of copies are the model's (log entries 18 to 20). (R317, R318, R319, R358, 12 Table
12-2) -/
def Obligations.GuardMessagesAreTakenOnce : Prop :=
  ∀ (s t : State) (r : Rx),
    let u := s.rxDrop r
    let c := r.key.ctx
    let g := s.gx c
    let took (i : Instr) (gop : Nat) (had : Bool) : Prop :=
      s.rxFind (fun r => r.key.kind == 3 && r.gop == gop) = some r →
        (jobOp gop = false → u.guardCtxOk c r.key.gen = false → exec i s = .next (u.bump 0xB02054 1))
        ∧ (jobOp gop = true ∨ u.guardCtxOk c r.key.gen = true →
          (u.grd.fenced = true → exec i s = .next (u.ack r 0 0 0 false false))
          ∧ (u.grd.fenced = false →
            (had = true → exec i s = .next ((u.ack r 0 0 0 true false).bump 0xB0205C 1))
            ∧ (had = false → (u.ack r 0 0 0 false false).guardPart r = (none, t) → exec i s = .next t)))
    took .vup 1 (g.vups.any (fun v => v.src == r.src && v.step == r.key.step))
    ∧ took .vdown 2 ((s.verdictOf c r.key.step).isSome || g.vlog.any (fun v => v.step == r.key.step)
        || (match g.later with | some v => v.step == r.key.step | none => false)
        || (match g.decided with | some v => v.step == r.key.step | none => false))
    ∧ took .vquery 3 false ∧ took .failrep 4 false ∧ took .adopt 5 false ∧ took .incarn 6 false
    ∧ took .resume 7 ((g.member && nfld r.spec 28 32 ≤ g.pseq)
        || g.ops.any (fun o => o.pseq == nfld r.spec 28 32 && o.resume))
    ∧ took .resync 8 false
    ∧ took .locksig 9 (match s.billetSlot c r.key.billet with
        | some b => g.peer.any (fun p => p.1 == r.key.step && p.2.1 == b) | none => false)
    ∧ took .lslist 10 false ∧ took .join 11 false ∧ took .ready 12 false

/-- A VUP goes up once a package's part is done, a VDOWN is forwarded and held, a VQUERY gets the held VDOWN, and signatures are
compared. VUP_SEND, VUP, VDOWN, VWAIT_EXPIRY, VQUERY, LOCKSIG and LSLIST complete. The order in which the root acts is the
model's reading (log entries 10, 18 to 20 and 64). (R320, R321, R322, R323, R326, R328, R330, R351) -/
def Obligations.VerdictMessagesAct : Prop :=
  ∀ (s t m1 : State) (r : Rx) (bs : Bytes) (x : Ctx) (m : Vup) (a b i : Nat) (hs : List W64) (had : Bool),
    let u := s.rxDrop r
    let d := r.key.ctx
    let c := x.toNat
    let taken (gop : Nat) : Prop := s.rxFind (fun r => r.key.kind == 3 && r.gop == gop) = some r
      ∧ (u.guardCtxOk d r.key.gen = true) ∧ u.grd.fenced = false ∧ had = false
      ∧ (u.ack r 0 0 0 false false).guardPart r = (some bs, t)
    (s.cActive c = true → (s.hx c).opened ≠ 0 → (s.gx c).sent = false → (s.gx c).decided = none → s.noVerdict c = true →
      s.partDone c = true → s.lsDone c = true → s.ssqBlocked c (s.cStep c) = false → (∀ n ∈ s.vchildren c, (s.childVup c n).isSome ∨ s.absent c n = true) →
      (s.markVerdict c).merged c = (m1, m) → exec (.vupSend x) s = .next (
        if s.atRoot c then (m1.setGx c { m1.gx c with sent := true }).rootDecide c (some m)
        else (m1.setGx c { m1.gx c with sent := true, vqAt := some (s.time.ktime + s.vwait c), vqN := 0 }).guardSend
          (s.vparent c) c (s.cGen c) (s.cStep c) (s.closingId c) 1 0 0 (vupBytes m)))
    ∧ (taken 1 → had = (s.gx d).vups.any (fun v => v.src == r.src && v.step == r.key.step) →
      (t.cStep d < r.key.step ∨ (t.cStep d = r.key.step ∧ (t.gx d).sent = false ∧ (t.gx d).decided = none
        ∧ t.noVerdict d = true) → (t.vchildren d).contains r.src = true →
        exec .vup s = .next (t.setGx d { t.gx d with vups := (t.gx d).vups ++ [t.vupOf d r.src r.key.step bs] }))
      ∧ (r.key.step < t.cStep d → exec .vup s = .next t))
    ∧ (taken 2 → had = ((s.verdictOf d r.key.step).isSome || (s.gx d).vlog.any (fun v => v.step == r.key.step)
        || (match (s.gx d).later with | some v => v.step == r.key.step | none => false)
        || (match (s.gx d).decided with | some v => v.step == r.key.step | none => false)) →
      let v := t.vdOf d r.key.step (nfld r.spec 28 32) bs
      let w := t.vdTo d (t.vchildren d) v
      (t.stepOpen d v.step = true → exec .vdown s = .next (w.holdVd d v))
      ∧ (t.stepOpen d v.step = false → t.cStep d < v.step →
        exec .vdown s = .next (w.setGx d { w.gx d with later := some v })))
    ∧ ((s.gx c).vqAt = some a → a ≤ s.time.ktime → s.noVerdict c = true → (s.grd.confirmed.contains (s.rootId c)
        || (s.gx c).lostTo.contains (s.rootId c)) = false →
      let n := if (s.gx c).vqN % 2 = 0 then s.rootId c else s.standbyId c
      let s1 := s.setGx c { s.gx c with vqAt := some (s.time.ktime + s.vwait c), vqN := (s.gx c).vqN + 1 }
      let s2 := if (s.gx c).vqN = 0 then s1.yieldEv c 5 3 else s1
      exec (.vwaitExpiry x) s = .next (if n = s.node then s2
        else (s2.countEv 0xE01000 0x11 1).guardSend n c (s.cGen c) (s.cStep c) (s.closingId c) 3 0 0 []))
    ∧ (taken 3 → (∀ v, (t.gx d).vlog.find? (fun v => v.step == r.key.step) = some v → t.noVerdict d = false →
        exec .vquery s = .next (t.vdTo d [r.src] v)))
    ∧ (taken 9 → t.billetSlot d r.key.billet = some b → had = (match s.billetSlot d r.key.billet with
        | some b => (s.gx d).peer.any (fun p => p.1 == r.key.step && p.2.1 == b) | none => false) →
      t.cStep d ≤ r.key.step → r.src = fld (t.gw d 4) 0 18 →
      let w := t.setGx d { t.gx d with peer := (t.gx d).peer ++ [(r.key.step, b, BitVec.ofNat 64 (ofLe (bs.take 8)))] }
      exec .locksig s = .next (if r.key.step = t.cStep d then w.compareSigs d b else w))
    ∧ (taken 10 → t.billetSlot d r.key.billet = some b → r.key.step = t.cStep d → r.src = fld (t.gw d 4) 0 18 →
      (t.reg 0xE01060).getLsbD 31 = false → t.billetHashes d b = some hs →
      firstDiff (hs.map (·.toNat)) (numsOf 8 (bs.length / 8) bs) 0 = some i →
      exec .lslist s = .next ((((t.setRegN 0xE0105C r.key.step).setRegN 0xE01060
        (nfld r.key.step 32 16 + d * 2 ^ 16 + 2 ^ 31)).setRegN 0xE01064 r.key.billet).setRegN 0xE01068
        ((t.comparedBlocks d b).getD i 0)))

/-- Heartbeats are sent and watched, a peer that is silent for 40 ms is declared failed and reported to the root and the standby,
members join, and a failed package's part moves to a spare. HEARTBEAT_PERIOD, HEARTBEAT, HEARTBEAT_TIMEOUT, FAILREP, JOIN, INCARN, ADOPT, RESYNC, RECOVERY_TRANSFER, READY_SEND, READY
and RESUME complete. The readings are those of log entries 17, 20, 65, 66, 67, 68, 115, 116 and 118. (R315, R316, R340, R341,
R342, R347, R348, R354, 12 Table 12-2) -/
def Obligations.JobMessagesAct : Prop :=
  ∀ (s t : State) (r : Rx) (bs : Bytes) (p n v : Nat) (urec : W16) (had : Bool),
    let u := s.rxDrop r
    let d := r.key.ctx
    let x := r.key.billet % 2 ^ 18
    let taken (gop : Nat) : Prop := s.rxFind (fun r => r.key.kind == 3 && r.gop == gop) = some r
      ∧ (jobOp gop = true ∨ u.guardCtxOk d r.key.gen = true) ∧ u.grd.fenced = false ∧ had = false
      ∧ (u.ack r 0 0 0 false false).guardPart r = (some bs, t)
    let k := s.grd.period
    let s1 := { s with grd := { s.grd with
      period := k + 1, periodAt := some s.time.ktime,
      conf := s.regs.filter (fun e => decide (0xE00050 ≤ e.1 ∧ e.1 < 0xE000A0)) } }
    let late (i : Nat) : Prop := s.grd.declared.get (fun _ => false) i = false
      ∧ s.grd.seen.get (fun _ => 0) i + 40000 * usec ≤ s.time.ktime
    (s.dmp.power ≠ 0 → exec .heartbeatPeriod s = .next s ∧ exec .heartbeatTimeout s = .next s)
    ∧ (s.dmp.power = 0 → s.hbEn = true → s.grd.fenced = false → (∀ a, s.grd.periodAt = some a → a + 5000 * usec ≤ s.time.ktime) →
      (s.upPorts 0 = [] → exec .heartbeatPeriod s = .next (s1.countEv 0xE00000 0x13 1))
      ∧ ((s.upPorts 0)[k % (s.upPorts 0).length]? = some p → exec .heartbeatPeriod s = .next (
        ((List.range 8).filterMap s1.watch).foldl (fun s n =>
          (s.sendShot 2 (some p) ⟨n, 0, 0, k % 2 ^ 48, 0, 0, 3⟩ 0 (guardSpec 0 0 0 1) []).countEv 0xE00000 0x10 1) s1)))
    ∧ (s.rxFind (fun r => r.key.kind == 3 && r.gop == 0) = some r → ∃ w, exec .heartbeat s = .next w
      ∧ w = { u.countEv 0xE00000 0x11 1 with grd := { u.grd with seen := w.grd.seen, heard := w.grd.heard } }
      ∧ ∀ i, i < 8 → (s.watch i = some r.src → w.grd.seen.get (fun _ => 0) i = s.time.ktime)
        ∧ (s.watch i ≠ some r.src → w.grd.seen.get (fun _ => 0) i = s.grd.seen.get (fun _ => 0) i))
    ∧ ((∀ i, i < 8 → s.watch i = none ∨ ¬ late i) → exec .heartbeatTimeout s = .next s)
    ∧ (s.dmp.power = 0 → s.hbEn = true → exec .heartbeatTimeout s = .next ((List.range 8).foldl (fun y i =>
        match y.watch i with
        | some n => if y.grd.declared.get (fun _ => false) i = false ∧
              y.grd.seen.get (fun _ => 0) i + 40000 * usec ≤ y.time.ktime then
            ({ y with grd := { y.grd with declared := y.grd.declared.set (fun _ => false) i true } } : State).sendFailrep
              n false else y
        | none => y) s))
    ∧ (∀ i, i < 8 → s.dmp.power = 0 → s.hbEn = true → s.watch i = some n → late i →
      (∀ j, j < 8 → j ≠ i → s.watch j = none ∨ ¬ late j) → (∀ c ∈ s.jobCtxs, s.atRoot c = false ∧ s.atStandby c = false) →
      exec .heartbeatTimeout s = .next (s.failTargets.foldl (fun s t =>
          (s.countEv 0xE00000 0x12 1).guardSend t 0 0 0 n 4 0 0 (leBytes 8 0))
        { s with grd := { s.grd with declared := s.grd.declared.set (fun _ => false) i true } }))
    ∧ (taken 4 → exec .failrep s = .next (t.report r.key.billet r.src ((ofLe (bs.take 1)).testBit 0)))
    ∧ (taken 11 → exec .join s = .next (t.join r.src))
    ∧ (taken 6 → ∃ w, exec .incarn s = .next w ∧ w = (
      let s1 := t.setInc x (nfld r.spec 4 6)
      let s2 := { s1 with grd := { s1.grd with
        newIncs := if s1.grd.newIncs.contains x then s1.grd.newIncs else s1.grd.newIncs ++ [x] } }
      s2.jobCtxs.foldl (fun s c => s.resyncTry c) s2))
    ∧ (taken 5 → (t.regN 0xE0004C = 1 ∨ x = t.node → exec .adopt s = .next (t.takeAdopt x (nfld r.spec 4 6)))
      ∧ (t.regN 0xE0004C ≠ 1 → x ≠ t.node → exec .adopt s = .next t))
    ∧ (taken 8 → (bs.length = 136 * (t.slotsOf d).length + 2 * (t.billetsOf d).length →
        exec .resync s = .next (t.adoptImage d bs))
      ∧ (bs.length ≠ 136 * (t.slotsOf d).length + 2 * (t.billetsOf d).length → exec .resync s = .next t))
    ∧ (s.uUsed urec.toNat = true → (s.gx (s.uCtx urec.toNat)).needResume = true →
      let half := (s.gw (s.uCtx urec.toNat) 21).toNat * 2048
      let a := s.gAddr (s.uCtx urec.toNat) 19 + s.grd.transferred.length % 2 * half
      (s.caskOut urec.toNat).length ≤ half → exec (.recoveryTransfer urec none) s =
        .next { s.ctxWrite (s.uCtx urec.toNat) a (s.caskOut urec.toNat) with
          grd := { s.grd with transferred := s.grd.transferred ++ [urec.toNat] } })
    ∧ (s.grd.adopted = some (n, v) → s.grd.readySent = false → (s.reg 0xE00040).getLsbD 1 = true →
      (∀ u ∈ s.jobRecs, s.grd.transferred.contains u = true) →
      let z := s.jobCtxs.foldl (fun s c => s.zeroCtx c) { s with grd := { s.grd with readySent := true } }
      let to_ := (z.jobCtxs.map (fun c => if z.rootId c = n then z.standbyId c else z.rootId c)).eraseDups
      exec .readySend s = .next (if z.grd.adoptions.any (fun a => a.node == n) then z.readyFrom n
        else (to_.filter (fun y => y != n)).foldl (fun s y => s.guardSend y 0 0 0 n 12 0 0 []) z))
    ∧ (taken 12 → exec .ready s = .next (t.readyFrom x))
    ∧ (taken 7 → had = (((s.gx d).member && nfld r.spec 28 32 ≤ (s.gx d).pseq)
        || (s.gx d).ops.any (fun o => o.pseq == nfld r.spec 28 32 && o.resume)) →
      let o : ParkOp := ⟨nfld r.spec 28 32, true, r.key.step, ofLe (bs.take 8), (chunks 4 (bs.drop 8)).map ofLe⟩
      exec .resume s = .next ((t.resumeTo d (t.vchildren d) o).addOp d o))

/-- A time exchange starts with Sync and ends with Delay_Resp; its offset steps KTIME in ACQUIRING and steers the rate elsewhere.
SYNC_INTERVAL, SYNC, FOLLOW_UP, DELAY_REQ, DELAY_RESP, ANNOUNCE, SYNC_LOSS and HOLD_MAX_REACHED complete. The four stamps,
the sources and the rounding of the offset are the model's reading of R363 and R364 (log entries 70, 71 and 72); rf is a free
value (log entry 3). (R362, R363, R364, R365, R367, R368, 13 Table 13-1, 13 Table 13-2) -/
def Obligations.TimeExchangesSteerTheClock : Prop :=
  ∀ (s : State) (src : Node) (dom : BitVec 7) (seq : W16) (pt : PtpTime) (cycles : BitVec 4) (alt : Bool) (x : Exch)
    (t1 t3 : Nat),
    let q := s.time.syncSeq
    let d := s.regN 0x100060
    let k := s.stamp cycles.toNat
    let gap := s.regN 0x100064 * 2000000000
    let offset : Int := (((x.t2 : Int) - t1) - ((ofPtp pt : Int) - t3)) / 2
    let mine := x.src = src.toNat ∧ x.dom = dom.toNat ∧ x.seq = seq.toNat
    (s.serves = true → (∀ a, s.time.syncAt.get (fun _ => none) src.toNat = some a →
        a + 2000000000 / 2 ^ s.regN 0x10005C ≤ s.time.ktime) → exec (.syncInterval src cycles) s = .next (
      let s1 := { s with time := { s.time with
        syncSeq := (q + 1) % 65536, syncAt := s.time.syncAt.set (fun _ => none) src.toNat (some s.time.ktime) } }
      (s1.sendPtp src.toNat 0 q d 0).sendPtp src.toNat 1 q d k))
    ∧ (s.syncEn = true → s.timeHeld = false → s.tState ≠ tFree → s.tState ≠ tRoot → src.toNat ≠ s.node →
      s.takesFrom src.toNat = true → dom.toNat = d → s.ptpPort.isSome = true → exec (.sync src dom seq cycles) s = .next
        { s.exchLost with time := { s.time with
          exch := some ⟨src.toNat, seq.toNat, dom.toNat, s.regN 0x10005C, k, none, none⟩ } })
    ∧ (s.time.exch = some x → mine →
      (x.t1 = none → s.ptpPort.isSome = true → exec (.followUp src dom seq pt cycles) s = .next
        ({ s with time := { s.time with exch := some { x with t1 := some (ofPtp pt), t3 := some k } } }.sendPtp
          src.toNat 2 seq.toNat dom.toNat k))
      ∧ (x.t1 = some t1 → x.t3 = some t3 → s.ptpPort.isSome = true →
        (t3 + 2000000000 / 2 ^ x.log2 < s.time.ktime → exec (.delayResp src dom seq pt) s = .next
          ({ s with time := { s.time with exch := none } }.countEv 0x100000 0x11 1))
        ∧ (s.time.ktime ≤ t3 + 2000000000 / 2 ^ x.log2 → ∃ t, exec (.delayResp src dom seq pt) s = .next t
          ∧ t.time.exch = none
          ∧ (s.tState = tAcquiring → t.time.ktime = (((s.time.ktime : Int) - offset) % 2 ^ 64).toNat ∧ t.tState = tLocked)
          ∧ (s.tState ≠ tAcquiring → t.time.ktime = s.time.ktime))))
    ∧ (s.serves = true → dom.toNat = d → exec (.delayReq src dom seq cycles) s = .next
      (s.sendPtp src.toNat 3 seq.toNat dom.toNat k))
    ∧ exec .announce s = .next s
    ∧ (s.tState = tLocked ∨ s.tState = tSlewing → s.time.parentOk + 200000000 ≤ s.time.ktime →
      (s.regN 0x100058 = s.node → exec (.syncLoss alt) s = .next (s.exchLost.setTime tRoot))
      ∧ (s.regN 0x100058 ≠ s.node → alt = true → s.time.onAlt = false → exec (.syncLoss alt) s = .next
        ({ s.exchLost with time := { s.exchLost.time with onAlt := true, lastOk := s.time.ktime } }.countEv 0x100000 0x12 1))
      ∧ (s.regN 0x100058 ≠ s.node → alt = false ∨ s.time.onAlt = true → s.time.lastOk + 200000000 ≤ s.time.ktime →
        exec (.syncLoss alt) s = .next (s.exchLost.setTime tHoldover)))
    ∧ (s.tState = tAcquiring ∨ s.tState = tUnfit → s.time.parentOk + 200000000 ≤ s.time.ktime → alt = true →
      s.time.onAlt = false → s.regN 0x100058 ≠ s.node → exec (.syncLoss alt) s = .next
        ({ s.exchLost with time := { s.exchLost.time with onAlt := true, lastOk := s.time.ktime } }.countEv 0x100000 0x12 1))
    ∧ (s.tState = tHoldover → s.time.holdAt + gap ≤ s.time.ktime →
      let u := (s.setTime tUnfit).err 0x100000 9
      exec .holdMaxReached s = .next (if s.inJob then (u.sendFailrep u.node true).fence else u))
    ∧ (s.tState = tHoldover → s.time.ktime < s.time.holdAt + gap → exec .holdMaxReached s = .next s)

/-- Curtailment levels change, KTICK rises, telemetry is latched and bounds fill, and the wear ring advances. KCURT_CHANGE,
GRID_EVENT, KTICK, TELEMETRY_SAMPLE and WEAR_ADVANCE complete. When a change withdraws what waits, and the samples of a
launch lead, are the model's readings (log entries 24, 76 and 118). (R371, R382, R383, R384, R386, R389, 13 Table 13-6) -/
def Obligations.DamperCommandsAct : Prop :=
  ∀ (s : State) (level : Bool) (word : W32) (hc : W16),
    let due := s.dmp.ticks + s.regN 0xF00094 + (if s.time.tickHigh = 50 then 0 else 1)
    let pend (inForce want : Nat) (l : List (Nat × Nat)) : List (Nat × Nat) :=
      if want = (match l.getLast? with | some x => x.1 | none => inForce) then l else l ++ [(want, due)]
    let grid := if s.reg64 0xF00084 ≤ s.time.ktime ∧ s.time.ktime < s.reg64 0xF0008C then s.regN 0xF00080 else 1000
    let moved (kcurt : Bool) : State :=
      let want := if kcurt = true then s.regN 0xF0007C else 1000
      let l := if want = 1000 then (s.dmp.changes.reverse.dropWhile (fun x => x.1 != 1000)).reverse else s.dmp.changes
      { s with dmp := { s.dmp with
        kcurt := kcurt, changes := pend s.dmp.kLev want l, gchanges := pend s.dmp.gLev grid s.dmp.gchanges } }
    let k := s.time.ktime / 2 ^ 21
    (s.krefLive = true → exec (.kcurtChange level) s = .next (moved level))
    ∧ (s.krefLive = false → exec (.kcurtChange level) s = .next s ∧ exec (.telemetrySample word hc) s = .next s)
    ∧ exec .gridEvent s = .next (moved s.dmp.kcurt)
    ∧ (k = s.time.tick → exec .ktick s = .next s)
    ∧ (k ≠ s.time.tick → s.tickDriven = false → exec .ktick s = .next { s with time := { s.time with tick := k } })
    ∧ (k ≠ s.time.tick → s.tickDriven = true → ∃ t, exec .ktick s = .next t ∧ t.out = .ktick true :: s.out
      ∧ t.time.tick = k ∧ t.time.tickHigh = 50 ∧ t.dmp.ticks = s.dmp.ticks + 1
      ∧ t.ctl.wide.get (fun _ => 0) 0x100078 = (s.ctl.wide.get (fun _ => 0) 0x100078 + 1) % 2 ^ 48)
    ∧ (s.krefLive = true → ∃ t, exec (.telemetrySample word hc) s = .next t
      ∧ t.dmp.hist = (word :: s.dmp.hist).take 256 ∧ t.dmp.tel = word
      ∧ t.ctl.wide.get (fun _ => 0) 0xF00064 =
        (s.ctl.wide.get (fun _ => 0) 0xF00064 + if s.dmp.filled = true then hc.toNat else 0) % 2 ^ 48
      ∧ t.dmp.samples = s.dmp.samples + 1
      ∧ (bit word 31 = true → t.dmp.bad = 0 ∧ t.dmp.fill ≤ s.fillLimit)
      ∧ (bit word 31 = false → t.dmp.bad = s.dmp.bad + 1 ∧ (s.dmp.bad < 9 → t.dmp.fill = s.dmp.fill)
        ∧ (9 ≤ s.dmp.bad → t.dmp.fill = 0)))
    ∧ (s.dmp.samples < 6000000 → exec .wearAdvance s = .next s)
    ∧ (6000000 ≤ s.dmp.samples → ∃ t, exec .wearAdvance s = .next t ∧ t.dmp.samples = s.dmp.samples - 6000000
      ∧ t.dmp.bins = (0 :: s.dmp.bins).take 1440)

/-- Scans merge and fill the position table while the identity crossing is OPEN, a bus fault marks its port, and the topology
check ends with its first failing item. AUTO_SCAN, KSCL_STUCK, KSDA_STUCK, SCAN_DONE and CHECK_DONE complete. What the modules answer is an operand of SCAN_DONE, and
a pending scan starts before a waiting check (model's readings, log entry 78). (R22, R374, R376, R377, R380, R381, 13 Table 13-5) -/
def Obligations.IdentityCommandsAct : Prop :=
  ∀ (s : State) (port : Port) (mods : List Module) (noSwitch : BitVec 2) (x : Scan) (i v : Nat),
    let p := port.toNat
    let stuck := (({ s with iden := { s.iden with stuck := s.iden.stuck ++ [p] } }).countEv 0x200000 0x11 1).err 0x200000 9
    let free := { s with iden := { s.iden with check := 0 } }
    (s.iden.due = [] → exec .autoScan s = .next s)
    ∧ (s.iden.due ≠ [] → exec .autoScan s = .next ({ s with iden := { s.iden with due := [] } }.scanReq false true))
    ∧ (s.idenOpen = false → exec (.ksclStuck port) s = .next s ∧ exec (.ksdaStuck port) s = .next s
      ∧ exec (.scanDone mods noSwitch) s = .next s)
    ∧ (s.idenOpen = true → s.iden.scan = some x → exec (.ksclStuck port) s = .next stuck ∧ exec (.ksdaStuck port) s = .next stuck)
    ∧ (s.idenOpen = true → s.iden.scan = none → exec (.ksclStuck port) s = .next s
      ∧ exec (.ksdaStuck port) s = .next ((s.countEv 0x200000 0x11 1).err 0x200000 9))
    ∧ (s.idenOpen = true → s.iden.scan = some x → x.auto = false → ∃ u : State, exec (.scanDone mods noSwitch) s = .next u.idenKick
      ∧ u.iden.scan = none ∧ u.iden.stuck = []
      ∧ (∀ k, k < 16 → u.iden.pos.get (fun _ => zeros 64) k = s.scanPort x.full mods noSwitch.toNat k)
      ∧ u.regN 0x20004C = (1 + 4 * b2n x.full + (((List.range 16).filter (s.busErr noSwitch.toNat)).map
          (fun k => 2 ^ (16 + k))).sum) % 2 ^ 32)
    ∧ (s.iden.scan = none → exec (.scanDone mods noSwitch) s = .next s)
    ∧ (s.iden.check = 2 →
      (s.topoFail = none → exec .checkDone s = .next ((free.setRegN 0x20106C 0).idenKick))
      ∧ (s.topoFail = some (i, v) → exec .checkDone s = .next
        ((((free.setRegN 0x20106C (8 + i + v % 2 ^ 24 * 2 ^ 8)).countEv 0x201000 0x10 1).err 0x201000 8).idenKick)))
    ∧ (s.iden.check ≠ 2 → exec .checkDone s = .next s)
end

