-- ==== Sys2Proof/Laws/Maps.lean ====
section
/-! SUPPORT. The laws of sparse stores: every operation keeps the canonical form, a read after a write gives the value written,
and a write leaves every other key alone. -/
namespace Sys2Proof.Machine
open Sys2Proof
variable {α : Type}

theorem SMap.wfFrom_cons [DecidableEq α] (d : Nat → α) (lo k : Nat) (v : α) (m : SMap α) :
    SMap.wfFrom d lo ((k, v) :: m) = true ↔ lo ≤ k ∧ v ≠ d k ∧ SMap.wfFrom d (k + 1) m = true := by
  simp [SMap.wfFrom, and_assoc]

theorem SMap.wfFrom_le [DecidableEq α] {d : Nat → α} {lo lo' : Nat} {m : SMap α} (h : lo' ≤ lo)
    (w : SMap.wfFrom d lo m = true) : SMap.wfFrom d lo' m = true := by
  cases m with
  | nil => rfl
  | cons e m =>
    obtain ⟨k, v⟩ := e
    rw [SMap.wfFrom_cons] at w ⊢
    exact ⟨Nat.le_trans h w.1, w.2⟩

theorem SMap.get_below [DecidableEq α] {d : Nat → α} {lo j : Nat} {m : SMap α} (w : SMap.wfFrom d lo m = true)
    (h : j < lo) : SMap.get d m j = d j := by
  induction m generalizing lo with
  | nil => rfl
  | cons e m ih =>
    obtain ⟨k, v⟩ := e
    rw [SMap.wfFrom_cons] at w
    simp only [SMap.get, show ¬ k = j by omega, if_false]
    exact ih w.2.2 (by omega)

theorem SMap.wf_del [DecidableEq α] {d : Nat → α} {lo : Nat} {m : SMap α} (k : Nat)
    (w : SMap.wfFrom d lo m = true) : SMap.wfFrom d lo (SMap.del m k) = true := by
  induction m generalizing lo with
  | nil => rfl
  | cons e m ih =>
    obtain ⟨j, v⟩ := e
    rw [SMap.wfFrom_cons] at w
    simp only [SMap.del]
    split
    · exact SMap.wfFrom_le (by omega) (ih w.2.2)
    · rw [SMap.wfFrom_cons]; exact ⟨w.1, w.2.1, ih w.2.2⟩

theorem SMap.wf_put [DecidableEq α] {d : Nat → α} {lo k : Nat} {v : α} {m : SMap α} (hk : lo ≤ k) (hv : v ≠ d k)
    (w : SMap.wfFrom d lo m = true) : SMap.wfFrom d lo (SMap.put m k v) = true := by
  induction m generalizing lo with
  | nil => simp [SMap.put, SMap.wfFrom, hk, hv]
  | cons e m ih =>
    obtain ⟨j, u⟩ := e
    rw [SMap.wfFrom_cons] at w
    simp only [SMap.put]
    split
    · rw [SMap.wfFrom_cons, SMap.wfFrom_cons]; exact ⟨hk, hv, by omega, w.2⟩
    · split
      · rename_i h; subst h; rw [SMap.wfFrom_cons]; exact ⟨hk, hv, w.2.2⟩
      · rw [SMap.wfFrom_cons]; exact ⟨w.1, w.2.1, ih (by omega) w.2.2⟩

theorem SMap.set_eq [DecidableEq α] (d : Nat → α) (m : SMap α) (k : Nat) (v : α) :
    SMap.set d m k v = if v = d k then m.del k else m.put k v := by cases m <;> rfl

/-- Writing a key keeps the canonical form. -/
theorem SMap.wf_set [DecidableEq α] {d : Nat → α} {m : SMap α} (k : Nat) (v : α) (w : SMap.wf d m = true) :
    SMap.wf d (SMap.set d m k v) = true := by
  rw [SMap.set_eq]
  unfold SMap.wf at *
  split
  · exact SMap.wf_del k w
  · exact SMap.wf_put (Nat.zero_le k) ‹_› w

theorem SMap.get_del (d : Nat → α) (m : SMap α) (k j : Nat) :
    SMap.get d (SMap.del m k) j = if j = k then d k else SMap.get d m j := by
  induction m with
  | nil => simp only [SMap.del, SMap.get]; split <;> simp_all
  | cons e m ih =>
    obtain ⟨i, u⟩ := e
    simp only [SMap.del]
    by_cases h : i = k
    · subst h
      by_cases hj : j = i
      · subst hj; simp [ih]
      · simp [ih, SMap.get, hj, Ne.symm hj]
    · by_cases hi : i = j
      · subst hi; simp [SMap.get, h]
      · simp [SMap.get, h, hi, ih]

theorem SMap.get_put (d : Nat → α) (m : SMap α) (k j : Nat) (v : α) :
    SMap.get d (SMap.put m k v) j = if j = k then v else SMap.get d m j := by
  induction m with
  | nil => simp only [SMap.put, SMap.get, eq_comm]
  | cons e m ih =>
    obtain ⟨i, u⟩ := e
    simp only [SMap.put]
    split
    · simp only [SMap.get, eq_comm]
    · split
      · rename_i h; subst h
        simp only [SMap.get]
        by_cases h : k = j
        · simp [h]
        · simp [h, Ne.symm h]
      · rename_i h1 h2
        simp only [SMap.get, ih]
        by_cases h : i = j
        · subst h; simp [Ne.symm h2]
        · simp [h]

/-- A read after a write: the value written at its key, every other key as before. -/
theorem SMap.get_set [DecidableEq α] (d : Nat → α) (m : SMap α) (k j : Nat) (v : α) :
    SMap.get d (SMap.set d m k v) j = if j = k then v else SMap.get d m j := by
  rw [SMap.set_eq]
  split
  · rename_i h; rw [SMap.get_del]; split <;> simp_all
  · exact SMap.get_put d m k j v

theorem SMap.wf_ofList [DecidableEq α] (d : Nat → α) (vs : List α) : ∀ k, SMap.wfFrom d k (SMap.ofList d k vs) = true := by
  induction vs with
  | nil => intro k; rfl
  | cons v vs ih =>
    intro k
    simp only [SMap.ofList]
    split
    · exact SMap.wfFrom_le (Nat.le_succ k) (ih (k + 1))
    · rw [SMap.wfFrom_cons]; exact ⟨Nat.le_refl k, ‹_›, ih (k + 1)⟩

theorem SMap.ofList_keys [DecidableEq α] (d : Nat → α) (vs : List α) :
    ∀ k, ∀ e ∈ SMap.ofList d k vs, e.1 < k + vs.length := by
  induction vs with
  | nil => intro k e h; simp [SMap.ofList] at h
  | cons v vs ih =>
    intro k e h
    simp only [SMap.ofList] at h
    split at h
    · have := ih (k + 1) e h; simp; omega
    · rcases List.mem_cons.1 h with rfl | h
      · simp
      · have := ih (k + 1) e h; simp; omega

theorem SMap.wf_append [DecidableEq α] {d : Nat → α} {ys : SMap α} {hi : Nat} (wy : SMap.wfFrom d hi ys = true) :
    ∀ {lo : Nat} {xs : SMap α}, SMap.wfFrom d lo xs = true → lo ≤ hi → (∀ e ∈ xs, e.1 < hi) →
      SMap.wfFrom d lo (xs ++ ys) = true
  | lo, [], _, h, _ => SMap.wfFrom_le h wy
  | lo, (k, v) :: xs, w, _, hk => by
    rw [SMap.wfFrom_cons] at w
    have h1 : k < hi := hk (k, v) (by simp)
    simp only [List.cons_append]
    rw [SMap.wfFrom_cons]
    exact ⟨w.1, w.2.1, SMap.wf_append wy w.2.2 h1 (fun e he => hk e (by simp [he]))⟩

theorem SMap.wf_filter [DecidableEq α] {d : Nat → α} (p : Nat × α → Bool) {lo : Nat} {m : SMap α}
    (w : SMap.wfFrom d lo m = true) : SMap.wfFrom d lo (m.filter p) = true := by
  induction m generalizing lo with
  | nil => rfl
  | cons e m ih =>
    obtain ⟨k, v⟩ := e
    rw [SMap.wfFrom_cons] at w
    simp only [List.filter]
    split
    · rw [SMap.wfFrom_cons]; exact ⟨w.1, w.2.1, ih w.2.2⟩
    · exact SMap.wfFrom_le (by omega) (ih w.2.2)

theorem SMap.wf_above [DecidableEq α] {d : Nat → α} (b : Nat) {lo : Nat} {m : SMap α} (w : SMap.wfFrom d lo m = true) :
    SMap.wfFrom d b (m.filter (fun e => b ≤ e.1)) = true := by
  induction m generalizing lo with
  | nil => rfl
  | cons e m ih =>
    obtain ⟨k, v⟩ := e
    rw [SMap.wfFrom_cons] at w
    by_cases h : b ≤ k
    · simp only [List.filter, h, decide_true]
      rw [SMap.wfFrom_cons]; exact ⟨h, w.2.1, SMap.wf_filter _ w.2.2⟩
    · simp only [List.filter, h, decide_false]; exact ih w.2.2

/-- Writing a run of keys keeps the canonical form. -/
theorem SMap.wf_setRun [DecidableEq α] {d : Nat → α} {m : SMap α} (k : Nat) (vs : List α) (w : SMap.wf d m = true) :
    SMap.wf d (SMap.setRun d m k vs) = true := by
  unfold SMap.wf SMap.setRun at *
  rw [List.append_assoc]
  refine SMap.wf_append (hi := k) ?_ (SMap.wf_filter _ w) (Nat.zero_le k) ?_
  · refine SMap.wf_append (hi := k + vs.length) ?_ (SMap.wf_ofList d vs k) (Nat.le_add_right _ _) (SMap.ofList_keys d vs k)
    exact SMap.wf_above _ w
  · intro e he; simpa using (List.mem_filter.1 he).2

theorem SMap.get_none (d : Nat → α) {m : SMap α} {j : Nat} (h : ∀ e ∈ m, e.1 ≠ j) : SMap.get d m j = d j := by
  induction m with
  | nil => rfl
  | cons e m ih =>
    obtain ⟨k, v⟩ := e
    simp only [SMap.get, h (k, v) (by simp), if_false]
    exact ih (fun e he => h e (by simp [he]))

theorem SMap.get_filter (d : Nat → α) (p : Nat → Bool) (m : SMap α) (j : Nat) (h : p j = true) :
    SMap.get d (m.filter (fun e => p e.1)) j = SMap.get d m j := by
  induction m with
  | nil => rfl
  | cons e m ih =>
    obtain ⟨k, v⟩ := e
    by_cases hk : k = j
    · subst hk; simp [List.filter, h, SMap.get]
    · simp only [List.filter]
      split <;> simp [SMap.get, hk, ih]

theorem SMap.ofList_low [DecidableEq α] (d : Nat → α) (vs : List α) : ∀ k, ∀ e ∈ SMap.ofList d k vs, k ≤ e.1 := by
  induction vs with
  | nil => intro k e h; simp [SMap.ofList] at h
  | cons v vs ih =>
    intro k e h
    simp only [SMap.ofList] at h
    split at h
    · have := ih (k + 1) e h; omega
    · rcases List.mem_cons.1 h with rfl | h
      · simp
      · have := ih (k + 1) e h; omega

theorem SMap.get_ofList [DecidableEq α] (d : Nat → α) (vs : List α) : ∀ k j, k ≤ j → j < k + vs.length →
    SMap.get d (SMap.ofList d k vs) j = vs.getD (j - k) (d j) := by
  induction vs with
  | nil => intro k j h1 h2; simp at h2; omega
  | cons v vs ih =>
    intro k j h1 h2
    simp only [List.length_cons] at h2
    by_cases hj : j = k
    · subst hj
      simp only [SMap.ofList, Nat.sub_self, List.getD_cons_zero]
      split
      · rename_i hv
        rw [SMap.get_none d (fun e he => by have := SMap.ofList_low d vs _ e he; omega), hv]
      · simp [SMap.get]
    · have h3 := ih (k + 1) j (by omega) (by omega)
      have h4 : j - k = (j - (k + 1)) + 1 := by omega
      rw [h4, List.getD_cons_succ]
      simp only [SMap.ofList]
      split
      · exact h3
      · simp only [SMap.get, show ¬ k = j by omega, if_false]; exact h3

theorem SMap.get_left (d : Nat → α) (xs : SMap α) {ys : SMap α} {j : Nat} (h : ∀ e ∈ ys, e.1 ≠ j) :
    SMap.get d (xs ++ ys) j = SMap.get d xs j := by
  induction xs with
  | nil => exact SMap.get_none d h
  | cons e xs ih =>
    obtain ⟨k, v⟩ := e
    simp only [List.cons_append, SMap.get, ih]

theorem SMap.get_right (d : Nat → α) {xs : SMap α} (ys : SMap α) {j : Nat} (h : ∀ e ∈ xs, e.1 ≠ j) :
    SMap.get d (xs ++ ys) j = SMap.get d ys j := by
  induction xs with
  | nil => rfl
  | cons e xs ih =>
    obtain ⟨k, v⟩ := e
    simp only [List.cons_append, SMap.get, h (k, v) (by simp), if_false]
    exact ih (fun e he => h e (by simp [he]))

/-- A read after a run of writes: the value written inside the run, every other key as before. -/
theorem SMap.get_setRun [DecidableEq α] (d : Nat → α) (m : SMap α) (k : Nat) (vs : List α) (j : Nat) :
    SMap.get d (SMap.setRun d m k vs) j =
      if k ≤ j ∧ j < k + vs.length then vs.getD (j - k) (d j) else SMap.get d m j := by
  have hlow : ∀ e ∈ m.filter (fun e => decide (e.1 < k)), e.1 < k := fun e he => by simpa using (List.mem_filter.1 he).2
  have hhigh : ∀ e ∈ m.filter (fun e => decide (k + vs.length ≤ e.1)), k + vs.length ≤ e.1 :=
    fun e he => by simpa using (List.mem_filter.1 he).2
  have hin : ∀ e ∈ SMap.ofList d k vs, k ≤ e.1 ∧ e.1 < k + vs.length :=
    fun e he => ⟨SMap.ofList_low d vs k e he, SMap.ofList_keys d vs k e he⟩
  unfold SMap.setRun
  by_cases h1 : j < k
  · rw [if_neg (by omega), SMap.get_left d _ (fun e he => by have := hhigh e he; omega),
      SMap.get_left d _ (fun e he => by have := hin e he; omega)]
    exact SMap.get_filter d (fun x => decide (x < k)) m j (by simpa using h1)
  · by_cases h2 : j < k + vs.length
    · rw [if_pos ⟨by omega, h2⟩, SMap.get_left d _ (fun e he => by have := hhigh e he; omega),
        SMap.get_right d _ (fun e he => by have := hlow e he; omega)]
      exact SMap.get_ofList d vs k j (by omega) h2
    · rw [if_neg (by omega), SMap.get_right d]
      · exact SMap.get_filter d (fun x => decide (k + vs.length ≤ x)) m j (by simp only [decide_eq_true_eq]; omega)
      · intro e he
        rcases List.mem_append.1 he with he | he
        · have := hlow e he; omega
        · have := hin e he; omega

end Sys2Proof.Machine
end

