-- ==== Sys2Proof/Laws/Keeps.lean ====
section
/-! SUPPORT. What the operations of the model leave of a state, said once: the queue; the canonical form of package memory; the
history of what the block drove; KTIME; the sealed keys. `Grows` is what every command does, `Keeps` what all but the few that
move KTIME or the keys do. -/
namespace Sys2Proof.Machine
open Sys2Proof

/-- Package memory is in its canonical form. -/
def State.memOk (s : State) : Prop := Memory.wf s.mem = true

/-- The queue is as it was, memory stays canonical, free values are not used twice, and the history of outputs only grows. -/
structure Grows (s t : State) : Prop where
  pending : t.pending = s.pending
  mem : s.memOk → t.memOk
  fresh : s.fresh ≤ t.fresh
  out : s.out <:+ t.out
/-- `Grows`, and KTIME and the sealed key slots are as they were. -/
structure Keeps (s t : State) : Prop extends Grows s t where
  ktime : t.time.ktime = s.time.ktime
  keys : t.ctl.keys = s.ctl.keys

theorem Grows.refl (s : State) : Grows s s := ⟨rfl, id, Nat.le_refl _, List.suffix_refl _⟩
theorem Grows.trans {s t u : State} (h : Grows s t) (k : Grows t u) : Grows s u :=
  ⟨k.pending.trans h.pending, fun m => k.mem (h.mem m), Nat.le_trans h.fresh k.fresh, h.out.trans k.out⟩
theorem Keeps.refl (s : State) : Keeps s s := ⟨Grows.refl s, rfl, rfl⟩
theorem Keeps.trans {s t u : State} (h : Keeps s t) (k : Keeps t u) : Keeps s u :=
  ⟨h.toGrows.trans k.toGrows, k.ktime.trans h.ktime, k.keys.trans h.keys⟩

section
variable {p : List Instr} {o : List Output} {f : Nat} {m : List Host.Cell} {r : SMap W32}
  {r1 r2 r3 r4 r5 r6 r7 r8 r9 r10 r11 : SMap W32} {c : Ctl} {h : Hop} {t : Tmp} {k : Pck} {ms : Msh} {u : Upd} {q : Qcn}
  {tn : Tng} {ml : Mlt} {g : Grd} {ti : TimeSt} {i : Iden} {d : Dmp}

/-- A record update that leaves the queue, memory, the outputs, KTIME and the keys. -/
theorem Keeps.upd {b s : State} (w : Keeps b s) (hp : p = s.pending) (hm : m = s.mem) (hf : s.fresh ≤ f) (ho : o = s.out)
    (hk : ti.ktime = s.time.ktime) (hy : c.keys = s.ctl.keys) :
    Keeps b ⟨p, o, f, m, r, r1, r2, r3, r4, r5, r6, r7, r8, r9, r10, r11, c, h, t, k, ms, u, q, tn, ml, g, ti, i, d⟩ := by
  subst hp hm ho
  exact w.trans ⟨⟨rfl, id, hf, List.suffix_refl _⟩, hk, hy⟩
/-- A record update that leaves the queue, memory and the outputs. -/
theorem Grows.upd {b s : State} (w : Grows b s) (hp : p = s.pending) (hm : m = s.mem) (hf : s.fresh ≤ f) (ho : o = s.out) :
    Grows b ⟨p, o, f, m, r, r1, r2, r3, r4, r5, r6, r7, r8, r9, r10, r11, c, h, t, k, ms, u, q, tn, ml, g, ti, i, d⟩ := by
  subst hp hm ho
  exact w.trans ⟨rfl, id, hf, List.suffix_refl _⟩
end

theorem Keeps.ite {b s t : State} {p : Prop} {_ : Decidable p} (hs : Keeps b s) (ht : Keeps b t) :
    Keeps b (if p then s else t) := by split <;> assumption
theorem Keeps.iteFst {α : Type} {b : State} {x y : State × α} {p : Prop} {_ : Decidable p} (hx : Keeps b x.1)
    (hy : Keeps b y.1) : Keeps b (if p then x else y).1 := by split <;> assumption
theorem Keeps.iteSnd {α : Type} {b : State} {x y : α × State} {p : Prop} {_ : Decidable p} (hx : Keeps b x.2)
    (hy : Keeps b y.2) : Keeps b (if p then x else y).2 := by split <;> assumption
theorem Keeps.foldl {α : Type} {b : State} (f : State → α → State) (hf : ∀ s x, Keeps b s → Keeps b (f s x)) (l : List α) :
    ∀ s, Keeps b s → Keeps b (l.foldl f s) := by
  induction l with
  | nil => intro s h; exact h
  | cons x l ih => intro s h; exact ih _ (hf s x h)

theorem Grows.step {b s t : State} (h : Grows b s) (k : Keeps s t) : Grows b t := h.trans k.toGrows
theorem Grows.ite {b s t : State} {p : Prop} {_ : Decidable p} (hs : Grows b s) (ht : Grows b t) :
    Grows b (if p then s else t) := by split <;> assumption

/-- Package memory is written in its canonical form. -/
theorem State.poke_keeps {b s : State} (h : Keeps b s) (a : Nat) (bs : Bytes) : Keeps b (s.poke a bs) := by
  refine h.trans ⟨⟨rfl, fun m => SMap.wf_setRun a bs m, Nat.le_refl _, List.suffix_refl _⟩, rfl, rfl⟩
/-- A byte of package memory after a run of bytes is written: the byte written, or the byte as it was. -/
theorem State.byte_poke (s : State) (a : Nat) (bs : Bytes) (x : Nat) :
    (s.poke a bs).byte x = if a ≤ x ∧ x < a + bs.length then bs.getD (x - a) 0 else s.byte x := by
  unfold State.byte State.poke
  rw [SMap.get_setRun]
  rfl

end Sys2Proof.Machine
end

