-- ==== Sys2Proof/Laws/KeepsBase.lean ====
section
/-! SUPPORT. What the operations that every subsystem shares, the Hopper, the Scales, the collector and the codec keep of a state (Laws/Keeps): one lemma for each operation. -/
namespace Sys2Proof.Machine
open Sys2Proof

theorem State.setReg_keeps {b s : State} (h : Keeps b s) (a : Nat) (v : W32) :
    Keeps b (State.setReg s a v) := by
  unfold State.setReg
  try dsimp only
  repeat' first
    | with_reducible assumption
    | refine Keeps.upd ?_ rfl rfl (by simp) rfl rfl rfl

theorem State.setRegN_keeps {b s : State} (h : Keeps b s) (a : Nat) (v : Nat) :
    Keeps b (State.setRegN s a v) := by
  unfold State.setRegN
  try dsimp only
  repeat' first
    | with_reducible assumption
    | with_reducible apply State.setReg_keeps

theorem State.setReg64_keeps {b s : State} (h : Keeps b s) (a : Nat) (v : Nat) :
    Keeps b (State.setReg64 s a v) := by
  unfold State.setReg64
  try dsimp only
  repeat' first
    | with_reducible assumption
    | with_reducible apply State.setRegN_keeps

theorem State.setCw_keeps {b s : State} (h : Keeps b s) (c : Nat) (w : Nat) (v : W32) :
    Keeps b (State.setCw s c w v) := by
  unfold State.setCw
  try dsimp only
  repeat' first
    | with_reducible assumption
    | refine Keeps.upd ?_ rfl rfl (by simp) rfl rfl rfl

theorem State.setCf_keeps {b s : State} (h : Keeps b s) (c : Nat) (w : Nat) (lo : Nat) (n : Nat) (v : Nat) :
    Keeps b (State.setCf s c w lo n v) := by
  unfold State.setCf
  try dsimp only
  repeat' first
    | with_reducible assumption
    | with_reducible apply State.setCw_keeps

theorem State.setC64_keeps {b s : State} (h : Keeps b s) (c : Nat) (w : Nat) (v : Nat) :
    Keeps b (State.setC64 s c w v) := by
  unfold State.setC64
  try dsimp only
  repeat' first
    | with_reducible assumption
    | with_reducible apply State.setCw_keeps

theorem State.setHx_keeps {b s : State} (hk : Keeps b s) (c : Nat) (h : HopCtx) :
    Keeps b (State.setHx s c h) := by
  unfold State.setHx
  try dsimp only
  repeat' first
    | with_reducible assumption
    | refine Keeps.upd ?_ rfl rfl (by simp) rfl rfl rfl

theorem State.setGx_keeps {b s : State} (h : Keeps b s) (c : Nat) (g : GCtx) :
    Keeps b (State.setGx s c g) := by
  unfold State.setGx
  try dsimp only
  repeat' first
    | with_reducible assumption
    | refine Keeps.upd ?_ rfl rfl (by simp) rfl rfl rfl

theorem State.setUw_keeps {b s : State} (h : Keeps b s) (u : Nat) (w : Nat) (v : Nat) :
    Keeps b (State.setUw s u w v) := by
  unfold State.setUw
  try dsimp only
  repeat' first
    | with_reducible assumption
    | refine Keeps.upd ?_ rfl rfl (by simp) rfl rfl rfl

theorem State.setU64_keeps {b s : State} (h : Keeps b s) (u : Nat) (w : Nat) (v : Nat) :
    Keeps b (State.setU64 s u w v) := by
  unfold State.setU64
  try dsimp only
  repeat' first
    | with_reducible assumption
    | with_reducible apply State.setUw_keeps

theorem State.emit_keeps {b s : State} (h : Keeps b s) (o : Output) :
    Keeps b (State.emit s o) := by
  exact h.trans ⟨⟨rfl, id, Nat.le_refl _, List.suffix_cons _ _⟩, rfl, rfl⟩

theorem State.countEv_keeps {b s : State} (h : Keeps b s) (pg : Nat) (ev : Nat) (n : Nat) :
    Keeps b (State.countEv s pg ev n) := by
  unfold State.countEv
  try dsimp only
  repeat' first
    | with_reducible assumption
    | with_reducible apply Keeps.ite
    | with_reducible apply State.setRegN_keeps
    | split

theorem State.bump_keeps {b s : State} (h : Keeps b s) (a : Nat) (n : Nat) :
    Keeps b (State.bump s a n) := by
  unfold State.bump
  try dsimp only
  repeat' first
    | with_reducible assumption
    | with_reducible apply State.setRegN_keeps

theorem krdyEdge_keeps {b s : State} (h : Keeps b s) (was : Bool) :
    Keeps b (krdyEdge was s) := by
  unfold krdyEdge
  try dsimp only
  repeat' first
    | with_reducible assumption
    | with_reducible apply Keeps.ite
    | with_reducible apply State.emit_keeps
    | with_reducible apply State.countEv_keeps
    | split

theorem State.attend_keeps {b s : State} (h : Keeps b s) (n : Nat) :
    Keeps b (State.attend s n) := by
  unfold State.attend
  try dsimp only
  repeat' first
    | with_reducible assumption
    | with_reducible apply krdyEdge_keeps
    | with_reducible apply State.setRegN_keeps

theorem State.raise_keeps {b s : State} (h : Keeps b s) (pg : Nat) (bits : Nat) :
    Keeps b (State.raise s pg bits) := by
  unfold State.raise
  try dsimp only
  repeat' first
    | with_reducible assumption
    | with_reducible apply Keeps.ite
    | with_reducible apply State.err_keeps
    | with_reducible apply State.setRegN_keeps
    | with_reducible apply State.attend_keeps
    | (intro _; try dsimp only)
    | split
    | refine Keeps.upd ?_ rfl rfl (by simp) rfl rfl rfl

theorem State.err_keeps {b s : State} (h : Keeps b s) (pg : Nat) (i : Nat) :
    Keeps b (State.err s pg i) := by
  unfold State.err
  try dsimp only
  repeat' first
    | with_reducible assumption
    | with_reducible apply State.raise_keeps

theorem State.setPhase_keeps {b s : State} (h : Keeps b s) (c : Nat) (p : PhaseRec) :
    Keeps b (State.setPhase s c p) := by
  unfold State.setPhase
  try dsimp only
  repeat' first
    | with_reducible assumption
    | refine Keeps.upd ?_ rfl rfl (by simp) rfl rfl rfl

theorem State.phStart_keeps {b s : State} (h : Keeps b s) (c : Nat) (step : Nat) (i : Nat) :
    Keeps b (State.phStart s c step i) := by
  unfold State.phStart
  try dsimp only
  repeat' first
    | with_reducible assumption
    | with_reducible apply Keeps.ite
    | with_reducible apply State.setPhase_keeps
    | (intro _; try dsimp only)
    | split
    | refine Keeps.upd ?_ rfl rfl (by simp) rfl rfl rfl

theorem State.phEnd_keeps {b s : State} (h : Keeps b s) (c : Nat) (step : Nat) (i : Nat) :
    Keeps b (State.phEnd s c step i) := by
  unfold State.phEnd
  try dsimp only
  repeat' first
    | with_reducible assumption
    | with_reducible apply State.setPhase_keeps
    | (intro _; try dsimp only)
    | refine Keeps.upd ?_ rfl rfl (by simp) rfl rfl rfl

theorem State.release_keeps {b s : State} (h : Keeps b s) (c : Nat) :
    Keeps b (State.release s c) := by
  unfold State.release
  try dsimp only
  repeat' first
    | with_reducible assumption
    | with_reducible apply Keeps.ite
    | split
    | refine Keeps.upd ?_ rfl rfl (by simp) rfl rfl rfl

theorem State.touch_keeps {b s : State} (h : Keeps b s) (c : Nat) :
    Keeps b (State.touch s c) := by
  unfold State.touch
  try dsimp only
  repeat' first
    | with_reducible assumption
    | with_reducible apply Keeps.ite
    | with_reducible apply State.setHx_keeps
    | (intro _; try dsimp only)
    | split
    | refine Keeps.upd ?_ rfl rfl (by simp) rfl rfl rfl

theorem State.land_keeps {b s : State} (h : Keeps b s) (a : Nat) (bs : Bytes) :
    Keeps b (State.land s a bs) := by
  unfold State.land
  try dsimp only
  repeat' first
    | with_reducible assumption
    | with_reducible apply State.poke_keeps
    | refine Keeps.upd ?_ rfl rfl (by simp) rfl rfl rfl

theorem State.patched_keeps {b s : State} (h : Keeps b s) (cs : List Nat) (hits : Nat) :
    Keeps b (State.patched s cs hits) := by
  unfold State.patched
  try dsimp only
  repeat' first
    | with_reducible assumption
    | with_reducible apply Keeps.ite
    | with_reducible apply Keeps.foldl
    | with_reducible apply State.touch_keeps
    | with_reducible apply State.countEv_keeps
    | (intro _; try dsimp only)
    | split

theorem State.busWrite_keeps {b s : State} (h : Keeps b s) (a : Nat) (bs : Bytes) :
    Keeps b (State.busWrite s a bs) := by
  unfold State.busWrite
  try dsimp only
  repeat' first
    | with_reducible assumption
    | with_reducible apply State.land_keeps
    | with_reducible apply State.patched_keeps

theorem State.setCState_keeps {b s : State} (h : Keeps b s) (c : Nat) (v : Nat) :
    Keeps b (State.setCState s c v) := by
  unfold State.setCState
  try dsimp only
  repeat' first
    | with_reducible assumption
    | with_reducible apply State.setCf_keeps
    | with_reducible apply State.touch_keeps

theorem State.faultCtx_keeps {b s : State} (h : Keeps b s) (c : Nat) :
    Keeps b (State.faultCtx s c) := by
  unfold State.faultCtx
  try dsimp only
  repeat' first
    | with_reducible assumption
    | with_reducible apply Keeps.ite
    | with_reducible apply State.release_keeps
    | with_reducible apply State.setCState_keeps
    | with_reducible apply State.err_keeps
    | split

theorem State.ctxWrite_keeps {b s : State} (h : Keeps b s) (c : Nat) (a : Nat) (bs : Bytes) :
    Keeps b (State.ctxWrite s c a bs) := by
  unfold State.ctxWrite
  try dsimp only
  repeat' first
    | with_reducible assumption
    | with_reducible apply Keeps.ite
    | with_reducible apply State.faultCtx_keeps
    | with_reducible apply State.busWrite_keeps
    | split

theorem State.boundary_keeps {b s : State} (h : Keeps b s) (c : Nat) :
    Keeps b (State.boundary s c) := by
  unfold State.boundary
  try dsimp only
  repeat' first
    | with_reducible assumption
    | with_reducible apply Keeps.ite
    | with_reducible apply State.release_keeps
    | with_reducible apply State.setCState_keeps
    | with_reducible apply State.touch_keeps
    | split

theorem State.afterStatus_keeps {b s : State} (h : Keeps b s) (c : Nat) (st : Nat) :
    Keeps b (State.afterStatus s c st) := by
  unfold State.afterStatus
  try dsimp only
  repeat' first
    | with_reducible assumption
    | with_reducible apply Keeps.ite
    | with_reducible apply State.countEv_keeps
    | with_reducible apply State.faultCtx_keeps
    | with_reducible apply State.err_keeps
    | split

theorem State.endDesc_keeps {b s : State} (h : Keeps b s) (c : Nat) (w : Waiting) (f : Fin) :
    Keeps b (State.endDesc s c w f) := by
  unfold State.endDesc
  try dsimp only
  repeat' first
    | with_reducible assumption
    | with_reducible apply State.setHx_keeps
    | with_reducible apply State.setCf_keeps
    | with_reducible apply State.setCw_keeps
    | with_reducible apply State.afterStatus_keeps
    | with_reducible apply State.boundary_keeps
    | (intro _; try dsimp only)
    | refine Keeps.upd ?_ rfl rfl (by simp) rfl rfl rfl

theorem fetch_keeps {b s : State} (h : Keeps b s) (c : Nat) :
    Keeps b (fetch c s) := by
  unfold fetch
  try dsimp only
  repeat' first
    | with_reducible assumption
    | with_reducible apply Keeps.ite
    | with_reducible apply State.setHx_keeps
    | with_reducible apply State.touch_keeps
    | (intro _; try dsimp only)
    | split
    | refine Keeps.upd ?_ rfl rfl (by simp) rfl rfl rfl

theorem State.latch_keeps {b s : State} (h : Keeps b s) (c : Nat) (w : Waiting) :
    Keeps b (State.latch s c w) := by
  unfold State.latch
  try dsimp only
  repeat' first
    | with_reducible assumption
    | with_reducible apply fetch_keeps
    | with_reducible apply State.setHx_keeps
    | with_reducible apply State.touch_keeps
    | (intro _; try dsimp only)
    | refine Keeps.upd ?_ rfl rfl (by simp) rfl rfl rfl

theorem State.runCtl_keeps {b s : State} (h : Keeps b s) (c op : Nat) (k : Nat → Dec) (act : Waiting → State → State)
    (ha : ∀ w t, Keeps b t → Keeps b (act w t)) : Keeps b (State.runCtl s c op k act) := by
  unfold State.runCtl
  dsimp only
  split
  · exact h
  · exact Keeps.ite h (Keeps.ite (State.endDesc_keeps h _ _ _) (ha _ _ h))

theorem State.charge_keeps {b s : State} (h : Keeps b s) (c : Nat) (hc : Nat) :
    Keeps b (State.charge s c hc) := by
  unfold State.charge
  try dsimp only
  repeat' first
    | with_reducible assumption
    | with_reducible apply State.setCw_keeps
    | with_reducible apply State.countEv_keeps

theorem State.account_keeps {b s : State} (h : Keeps b s) (c : Nat) (w : Nat) (hc : Nat) :
    Keeps b (State.account s c w hc) := by
  unfold State.account
  try dsimp only
  repeat' first
    | with_reducible assumption
    | with_reducible apply Keeps.ite
    | with_reducible apply State.charge_keeps
    | with_reducible apply State.countEv_keeps
    | (intro _; try dsimp only)
    | split
    | refine Keeps.upd ?_ rfl rfl (by simp) rfl rfl rfl

theorem State.issue_keeps {b s : State} (h : Keeps b s) (ws : List (Nat × Bytes)) :
    Keeps b (State.issue s ws) := by
  unfold State.issue
  try dsimp only
  repeat' first
    | with_reducible assumption
    | with_reducible apply Keeps.ite
    | with_reducible apply Keeps.foldl
    | with_reducible apply State.busWrite_keeps
    | (intro _; try dsimp only)
    | split

theorem State.corr_keeps {b s : State} (h : Keeps b s) (n : Nat) :
    Keeps b (State.corr s n) := by
  unfold State.corr
  try dsimp only
  repeat' first
    | with_reducible assumption
    | with_reducible apply Keeps.ite
    | with_reducible apply State.bump_keeps
    | with_reducible apply State.err_keeps
    | with_reducible apply State.countEv_keeps
    | split

theorem State.eccLoc_keeps {b s : State} (h : Keeps b s) (loc : Option (BitVec 5 × BitVec 8)) :
    Keeps b (State.eccLoc s loc) := by
  unfold State.eccLoc
  try dsimp only
  repeat' first
    | with_reducible assumption
    | with_reducible apply Keeps.ite
    | with_reducible apply State.countEv_keeps
    | with_reducible apply State.setRegN_keeps
    | (intro _; try dsimp only)
    | split
    | refine Keeps.upd ?_ rfl rfl (by simp) rfl rfl rfl

theorem State.noteNf_keeps {b s : State} (h : Keeps b s) (nf : Bool) :
    Keeps b (State.noteNf s nf) := by
  unfold State.noteNf
  try dsimp only
  repeat' first
    | with_reducible assumption
    | with_reducible apply Keeps.ite
    | with_reducible apply State.bump_keeps
    | split

theorem State.runAnv_keeps {b s : State} (h : Keeps b s) (c op : Nat) (run : Run) (k : Nat → State → Dec)
    (act : Nat → State → Work) (ha : ∀ d t, Keeps b t → Keeps b (act d t).st) :
    Keeps b (State.runAnv s c op run k act) := by
  unfold State.runAnv
  dsimp only
  split
  · exact h
  · refine Keeps.ite h (Keeps.ite (State.endDesc_keeps h _ _ _) (Keeps.ite h ?_))
    have h1 : ∀ w n hc, Keeps b ((((s.latch c w).account c n hc)).corr run.corr) :=
      fun w n hc => State.corr_keeps (State.account_keeps (State.latch_keeps h _ _) _ _ _) _
    split
    · exact State.endDesc_keeps (State.noteNf_keeps (State.issue_keeps (ha _ _ (h1 _ _ _)) _) _) _ _ _
    · exact State.endDesc_keeps (State.noteNf_keeps (State.eccLoc_keeps (State.issue_keeps (h1 _ _ _) _) _) _) _ _ _

theorem State.writeCmpl_keeps {b s : State} (h : Keeps b s) (c : Nat) (e : Ended) :
    Keeps b (State.writeCmpl s c e) := by
  unfold State.writeCmpl
  try dsimp only
  repeat' first
    | with_reducible assumption
    | with_reducible apply Keeps.ite
    | with_reducible apply State.busWrite_keeps
    | (intro _; try dsimp only)
    | split

theorem State.advCmpl_keeps {b s : State} (h : Keeps b s) (c : Nat) :
    Keeps b (State.advCmpl s c) := by
  unfold State.advCmpl
  try dsimp only
  repeat' first
    | with_reducible assumption
    | with_reducible apply State.setC64_keeps

theorem State.ptWrite_keeps {b s : State} (h : Keeps b s) (c : Nat) (a : Nat) (bs : Bytes) :
    Keeps b (State.ptWrite s c a bs) := by
  unfold State.ptWrite
  try dsimp only
  repeat' first
    | with_reducible assumption
    | with_reducible apply Keeps.ite
    | with_reducible apply State.ctxWrite_keeps
    | split
    | refine Keeps.upd ?_ rfl rfl (by simp) rfl rfl rfl

theorem State.ptFlush_keeps {b s : State} (h : Keeps b s) :
    Keeps b (State.ptFlush s) := by
  unfold State.ptFlush
  try dsimp only
  repeat' first
    | with_reducible assumption
    | with_reducible apply Keeps.foldl
    | with_reducible apply State.ctxWrite_keeps
    | (intro _; try dsimp only)
    | refine Keeps.upd ?_ rfl rfl (by simp) rfl rfl rfl

theorem State.ptParked_keeps {b s : State} (h : Keeps b s) (c : Nat) (step : Nat) :
    Keeps b (State.ptParked s c step) := by
  unfold State.ptParked
  try dsimp only
  repeat' first
    | with_reducible assumption
    | with_reducible apply Keeps.ite
    | with_reducible apply State.ptWrite_keeps
    | (intro _; try dsimp only)
    | split
    | refine Keeps.upd ?_ rfl rfl (by simp) rfl rfl rfl

theorem State.writePhase_keeps {b s : State} (h : Keeps b s) (c : Nat) (step : Nat) :
    Keeps b (State.writePhase s c step) := by
  unfold State.writePhase
  try dsimp only
  repeat' first
    | with_reducible assumption
    | with_reducible apply Keeps.ite
    | with_reducible apply State.err_keeps
    | with_reducible apply State.setPhase_keeps
    | with_reducible apply State.ptWrite_keeps
    | (intro _; try dsimp only)
    | split
    | refine Keeps.upd ?_ rfl rfl (by simp) rfl rfl rfl

theorem State.setStat_keeps {b s : State} (h : Keeps b s) (t : Nat) (x : SlotStat) :
    Keeps b (State.setStat s t x) := by
  unfold State.setStat
  try dsimp only
  repeat' first
    | with_reducible assumption
    | refine Keeps.upd ?_ rfl rfl (by simp) rfl rfl rfl

theorem State.svFlag_keeps {b s : State} (h : Keeps b s) (t : Nat) (bits : Nat) :
    Keeps b (State.svFlag s t bits) := by
  unfold State.svFlag
  try dsimp only
  repeat' first
    | with_reducible assumption
    | with_reducible apply State.setStat_keeps
    | (intro _; try dsimp only)
    | refine Keeps.upd ?_ rfl rfl (by simp) rfl rfl rfl

theorem State.yieldEv_keeps {b s : State} (h : Keeps b s) (c : Nat) (guarantee : Nat) (reason : Nat) :
    Keeps b (State.yieldEv s c guarantee reason) := by
  unfold State.yieldEv
  try dsimp only
  repeat' first
    | with_reducible assumption
    | with_reducible apply Keeps.ite
    | with_reducible apply State.err_keeps
    | (intro _; try dsimp only)
    | split
    | refine Keeps.upd ?_ rfl rfl (by simp) rfl rfl rfl

theorem State.grant_keeps {b s : State} (h : Keeps b s) (c : Nat) :
    Keeps b (State.grant s c) := by
  unfold State.grant
  try dsimp only
  repeat' first
    | with_reducible assumption
    | with_reducible apply Keeps.ite
    | with_reducible apply State.setCState_keeps
    | with_reducible apply State.countEv_keeps
    | with_reducible apply State.charge_keeps
    | with_reducible apply State.bump_keeps
    | (intro _; try dsimp only)
    | split
    | refine Keeps.upd ?_ rfl rfl (by simp) rfl rfl rfl

theorem State.endSlice_keeps {b s : State} (h : Keeps b s) (o : Nat) :
    Keeps b (State.endSlice s o) := by
  unfold State.endSlice
  try dsimp only
  repeat' first
    | with_reducible assumption
    | with_reducible apply Keeps.ite
    | with_reducible apply State.release_keeps
    | with_reducible apply State.setCState_keeps
    | (intro _; try dsimp only)
    | split

theorem anvilGrant_keeps {b s : State} (h : Keeps b s) (sliceHc : Nat) :
    Keeps b (anvilGrant sliceHc s) := by
  unfold anvilGrant
  try dsimp only
  repeat' first
    | with_reducible assumption
    | with_reducible apply Keeps.ite
    | with_reducible apply State.grant_keeps
    | with_reducible apply State.endSlice_keeps
    | (intro _; try dsimp only)
    | split
    | refine Keeps.upd ?_ rfl rfl (by simp) rfl rfl rfl

theorem nopDesc_keeps {b s : State} (h : Keeps b s) (c : Nat) :
    Keeps b (nopDesc c s) := by
  unfold nopDesc
  try dsimp only
  repeat' first
    | with_reducible assumption
    | with_reducible apply State.runCtl_keeps
    | with_reducible apply State.endDesc_keeps
    | (intro _; try dsimp only)

theorem State.parkCheck_keeps {b s : State} (h : Keeps b s) (c : Nat) :
    Keeps b (State.parkCheck s c) := by
  unfold State.parkCheck
  try dsimp only
  repeat' first
    | with_reducible assumption
    | with_reducible apply Keeps.ite
    | with_reducible apply State.setGx_keeps
    | with_reducible apply State.setPhase_keeps
    | with_reducible apply State.ptParked_keeps
    | with_reducible apply State.release_keeps
    | with_reducible apply State.setCState_keeps
    | (intro _; try dsimp only)
    | split
    | refine Keeps.upd ?_ rfl rfl (by simp) rfl rfl rfl

theorem stepDesc_keeps {b s : State} (h : Keeps b s) (c : Nat) :
    Keeps b (stepDesc c s) := by
  unfold stepDesc
  try dsimp only
  repeat' first
    | with_reducible assumption
    | with_reducible apply State.runCtl_keeps
    | with_reducible apply State.latch_keeps
    | with_reducible apply State.parkCheck_keeps
    | (intro _; try dsimp only)

theorem waitCnt_keeps {b s : State} (h : Keeps b s) (c : Nat) :
    Keeps b (waitCnt c s) := by
  unfold waitCnt
  try dsimp only
  repeat' first
    | with_reducible assumption
    | with_reducible apply State.runCtl_keeps
    | with_reducible apply State.latch_keeps
    | (intro _; try dsimp only)

theorem waitCntMet_keeps {b s : State} (h : Keeps b s) (c : Nat) :
    Keeps b (waitCntMet c s) := by
  unfold waitCntMet
  try dsimp only
  repeat' first
    | with_reducible assumption
    | with_reducible apply Keeps.ite
    | with_reducible apply State.endDesc_keeps
    | split
    | refine Keeps.upd ?_ rfl rfl (by simp) rfl rfl rfl

theorem State.oneWrite_keeps {b s : State} (h : Keeps b s) (ws : List (Nat × Bytes)) :
    Keeps b (State.oneWrite s ws) := by
  unfold State.oneWrite
  try dsimp only
  repeat' first
    | with_reducible assumption
    | with_reducible apply Keeps.foldl
    | with_reducible apply State.land_keeps
    | with_reducible apply State.patched_keeps
    | (intro _; try dsimp only)

theorem writeImm_keeps {b s : State} (h : Keeps b s) (c : Nat) :
    Keeps b (writeImm c s) := by
  unfold writeImm
  try dsimp only
  repeat' first
    | with_reducible assumption
    | with_reducible apply State.runCtl_keeps
    | with_reducible apply State.latch_keeps
    | with_reducible apply State.oneWrite_keeps
    | with_reducible apply State.endDesc_keeps
    | (intro _; try dsimp only)
    | refine Keeps.upd ?_ rfl rfl (by simp) rfl rfl rfl

theorem badOp_keeps {b s : State} (h : Keeps b s) (c : Nat) :
    Keeps b (badOp c s) := by
  unfold badOp
  try dsimp only
  repeat' first
    | with_reducible assumption
    | with_reducible apply Keeps.ite
    | with_reducible apply State.endDesc_keeps
    | split
    | refine Keeps.upd ?_ rfl rfl (by simp) rfl rfl rfl

theorem State.sortLoad_keeps {b s : State} (h : Keeps b s) (c : Nat) (d : Nat) :
    Keeps b (State.sortLoad s c d) := by
  unfold State.sortLoad
  try dsimp only
  repeat' first
    | with_reducible assumption
    | with_reducible apply State.setRegN_keeps
    | (intro _; try dsimp only)
    | refine Keeps.upd ?_ rfl rfl (by simp) rfl rfl rfl

theorem sortDesc_keeps {b s : State} (h : Keeps b s) (c : Nat) :
    Keeps b (sortDesc c s) := by
  unfold sortDesc
  try dsimp only
  repeat' first
    | with_reducible assumption
    | with_reducible apply Keeps.ite
    | with_reducible apply State.runCtl_keeps
    | with_reducible apply State.latch_keeps
    | with_reducible apply State.sortLoad_keeps
    | (intro _; try dsimp only)
    | split
    | refine Keeps.upd ?_ rfl rfl (by simp) rfl rfl rfl

theorem State.sortNext_keeps {b s : State} (h : Keeps b s) :
    Keeps b (State.sortNext s) := by
  unfold State.sortNext
  try dsimp only
  repeat' first
    | with_reducible assumption
    | with_reducible apply State.setRegN_keeps
    | with_reducible apply State.sortLoad_keeps
    | (intro _; try dsimp only)
    | split
    | refine Keeps.upd ?_ rfl rfl (by simp) rfl rfl rfl

theorem sortDone_keeps {b s : State} (h : Keeps b s) (c : Nat) (ecc : Option Nat) :
    Keeps b (sortDone c ecc s) := by
  unfold sortDone
  try dsimp only
  repeat' first
    | with_reducible assumption
    | with_reducible apply Keeps.ite
    | with_reducible apply State.sortNext_keeps
    | with_reducible apply State.busWrite_keeps
    | with_reducible apply State.bump_keeps
    | with_reducible apply State.countEv_keeps
    | with_reducible apply State.endDesc_keeps
    | with_reducible apply State.issue_keeps
    | (intro _; try dsimp only)
    | split
    | refine Keeps.upd ?_ rfl rfl (by simp) rfl rfl rfl

theorem complete_keeps {b s : State} (h : Keeps b s) (c : Nat) :
    Keeps b (complete c s) := by
  unfold complete
  try dsimp only
  repeat' first
    | with_reducible assumption
    | with_reducible apply Keeps.ite
    | with_reducible apply State.setHx_keeps
    | with_reducible apply State.writeCmpl_keeps
    | with_reducible apply State.advCmpl_keeps
    | with_reducible apply State.phEnd_keeps
    | with_reducible apply State.touch_keeps
    | (intro _; try dsimp only)
    | split
    | refine Keeps.upd ?_ rfl rfl (by simp) rfl rfl rfl

theorem ringDb_keeps {b s : State} (h : Keeps b s) (v : W32) :
    Keeps b (ringDb v s).1 := by
  unfold ringDb
  try dsimp only
  repeat' first
    | with_reducible assumption
    | with_reducible apply Keeps.iteFst
    | with_reducible apply Keeps.ite
    | with_reducible apply State.err_keeps
    | with_reducible apply State.setCf_keeps
    | with_reducible apply State.touch_keeps
    | (intro _; try dsimp only)
    | split

theorem State.setRule_keeps {b s : State} (h : Keeps b s) (t : Nat) (r : RuleSt) :
    Keeps b (State.setRule s t r) := by
  unfold State.setRule
  try dsimp only
  repeat' first
    | with_reducible assumption
    | refine Keeps.upd ?_ rfl rfl (by simp) rfl rfl rfl

theorem State.setB_keeps {b0 s : State} (h : Keeps b0 s) (b : Nat) (x : Int) :
    Keeps b0 (State.setB s b x) := by
  unfold State.setB
  try dsimp only
  repeat' first
    | with_reducible assumption
    | (intro _; try dsimp only)
    | refine Keeps.upd ?_ rfl rfl (by simp) rfl rfl rfl

theorem takeRules_keeps {b s : State} (h : Keeps b s) (ts : List Nat) (bs : Bytes) : Keeps b (takeRules ts bs s) := by
  induction ts generalizing s bs with
  | nil => exact h
  | cons t ts ih => exact ih (State.setRule_keeps h _ _) _

theorem takeBs_keeps {b s : State} (h : Keeps b s) (xs : List Nat) (bs : Bytes) : Keeps b (takeBs xs bs s) := by
  induction xs generalizing s bs with
  | nil => exact h
  | cons t ts ih => exact ih (State.setB_keeps h _ _) _

theorem State.adoptImage_keeps {b s : State} (h : Keeps b s) (c : Nat) (bs : Bytes) :
    Keeps b (State.adoptImage s c bs) := by
  unfold State.adoptImage
  try dsimp only
  repeat' first
    | with_reducible assumption
    | with_reducible apply takeBs_keeps
    | with_reducible apply takeRules_keeps
    | (intro _; try dsimp only)

theorem State.tmpEvent_keeps {b s : State} (h : Keeps b s) (t : Nat) (kind : Nat) (step : Nat) :
    Keeps b (State.tmpEvent s t kind step) := by
  unfold State.tmpEvent
  try dsimp only
  repeat' first
    | with_reducible assumption
    | with_reducible apply Keeps.ite
    | with_reducible apply State.err_keeps
    | (intro _; try dsimp only)
    | split
    | refine Keeps.upd ?_ rfl rfl (by simp) rfl rfl rfl

theorem State.compareSlot_keeps {b s : State} (h : Keeps b s) (t : Nat) (x : SlotStat) :
    Keeps b (State.compareSlot s t x) := by
  unfold State.compareSlot
  try dsimp only
  repeat' first
    | with_reducible assumption
    | with_reducible apply Keeps.ite
    | with_reducible apply State.tmpEvent_keeps
    | (intro _; try dsimp only)
    | split

theorem State.applyPol_keeps {b s : State} (h : Keeps b s) (t : Nat) :
    Keeps b (State.applyPol s t) := by
  unfold State.applyPol
  try dsimp only
  repeat' first
    | with_reducible assumption
    | with_reducible apply Keeps.foldl
    | (intro _; try dsimp only)
    | split
    | refine Keeps.upd ?_ rfl rfl (by simp) rfl rfl rfl

theorem State.applyMsh_keeps {b s : State} (h : Keeps b s) (t : Nat) :
    Keeps b (State.applyMsh s t) := by
  unfold State.applyMsh
  try dsimp only
  repeat' first
    | with_reducible assumption
    | (intro _; try dsimp only)
    | split
    | refine Keeps.upd ?_ rfl rfl (by simp) rfl rfl rfl

theorem State.closeSlot_keeps {b0 s : State} (h : Keeps b0 s) (b : Bound) (t : Nat) (g : Nat) (st : List Nat) :
    Keeps b0 (State.closeSlot s b t g st) := by
  unfold State.closeSlot
  try dsimp only
  repeat' first
    | with_reducible assumption
    | with_reducible apply Keeps.ite
    | with_reducible apply State.compareSlot_keeps
    | with_reducible apply State.err_keeps
    | (intro _; try dsimp only)
    | split
    | refine Keeps.upd ?_ rfl rfl (by simp) rfl rfl rfl

theorem closeSlots_keeps {b s : State} (h : Keeps b s) (d : Bound) (ts : List (Nat × Nat)) (st : List Nat) :
    Keeps b (closeSlots d ts st s) := by
  induction ts generalizing s st with
  | nil => exact h
  | cons t ts ih => exact ih (State.closeSlot_keeps h _ _ _ _) _

theorem State.runBoundary_keeps {b0 s : State} (h : Keeps b0 s) (c : Nat) (b : Bound) :
    Keeps b0 (State.runBoundary s c b) := by
  unfold State.runBoundary
  try dsimp only
  repeat' first
    | with_reducible assumption
    | with_reducible apply Keeps.ite
    | with_reducible apply Keeps.foldl
    | with_reducible apply closeSlots_keeps
    | with_reducible apply State.applyPol_keeps
    | with_reducible apply State.applyMsh_keeps
    | with_reducible apply State.setRule_keeps
    | with_reducible apply State.setB_keeps
    | with_reducible apply State.adoptImage_keeps
    | with_reducible apply State.countEv_keeps
    | (intro _; try dsimp only)
    | split
    | refine Keeps.upd ?_ rfl rfl (by simp) rfl rfl rfl

theorem State.applyUpd_keeps {b s : State} (h : Keeps b s) (c : Nat) :
    Keeps b (State.applyUpd s c) := by
  unfold State.applyUpd
  try dsimp only
  repeat' first
    | with_reducible assumption
    | with_reducible apply Keeps.ite
    | with_reducible apply Keeps.foldl
    | (intro _; try dsimp only)
    | split
    | refine Keeps.upd ?_ rfl rfl (by simp) rfl rfl rfl

theorem State.applyGrd_keeps {b s : State} (h : Keeps b s) (c : Nat) :
    Keeps b (State.applyGrd s c) := by
  unfold State.applyGrd
  try dsimp only
  repeat' first
    | with_reducible assumption
    | with_reducible apply Keeps.foldl
    | (intro _; try dsimp only)
    | split
    | refine Keeps.upd ?_ rfl rfl (by simp) rfl rfl rfl

theorem scalesReady_keeps {b s : State} (h : Keeps b s) (c : Nat) :
    Keeps b (scalesReady c s) := by
  unfold scalesReady
  try dsimp only
  repeat' first
    | with_reducible assumption
    | with_reducible apply Keeps.ite
    | with_reducible apply State.runBoundary_keeps
    | with_reducible apply State.applyUpd_keeps
    | with_reducible apply State.applyGrd_keeps
    | with_reducible apply State.phEnd_keeps
    | with_reducible apply State.phStart_keeps
    | with_reducible apply State.touch_keeps
    | (intro _; try dsimp only)
    | split
    | refine Keeps.upd ?_ rfl rfl (by simp) rfl rfl rfl

theorem State.discardTile_keeps {b s : State} (h : Keeps b s) (leaf : Nat) (slot : Nat) (reason : Nat) (bit : Nat) :
    Keeps b (State.discardTile s leaf slot reason bit) := by
  unfold State.discardTile
  try dsimp only
  repeat' first
    | with_reducible assumption
    | with_reducible apply State.bump_keeps
    | with_reducible apply State.setRegN_keeps
    | with_reducible apply State.err_keeps

theorem leafTile_keeps {b s : State} (h : Keeps b s) (leaf : Nat) (bs : Bytes) :
    Keeps b (leafTile leaf bs s) := by
  unfold leafTile
  try dsimp only
  repeat' first
    | with_reducible assumption
    | with_reducible apply Keeps.ite
    | with_reducible apply State.discardTile_keeps
    | with_reducible apply State.phStart_keeps
    | (intro _; try dsimp only)
    | split
    | refine Keeps.upd ?_ rfl rfl (by simp) rfl rfl rfl

theorem groupDelivery_keeps {b s : State} (h : Keeps b s) (slot : Nat) (elem : Nat) :
    Keeps b (groupDelivery slot elem s) := by
  unfold groupDelivery
  try dsimp only
  repeat' first
    | with_reducible assumption
    | with_reducible apply Keeps.ite
    | with_reducible apply State.countEv_keeps
    | (intro _; try dsimp only)
    | split
    | refine Keeps.upd ?_ rfl rfl (by simp) rfl rfl rfl

theorem leafStall_keeps {b s : State} (h : Keeps b s) :
    Keeps b (leafStall s) := by
  unfold leafStall
  try dsimp only
  repeat' first
    | with_reducible assumption
    | with_reducible apply Keeps.foldl
    | with_reducible apply State.setRegN_keeps
    | with_reducible apply State.err_keeps
    | (intro _; try dsimp only)
    | refine Keeps.upd ?_ rfl rfl (by simp) rfl rfl rfl

theorem State.patStart_keeps {b s : State} (h : Keeps b s) (c : Nat) :
    Keeps b (State.patStart s c) := by
  unfold State.patStart
  try dsimp only
  repeat' first
    | with_reducible assumption
    | with_reducible apply Keeps.ite
    | (intro _; try dsimp only)
    | split
    | refine Keeps.upd ?_ rfl rfl (by simp) rfl rfl rfl

theorem patternSource_keeps {b s : State} (h : Keeps b s) (c : Nat) :
    Keeps b (patternSource c s) := by
  unfold patternSource
  try dsimp only
  repeat' first
    | with_reducible assumption
    | with_reducible apply Keeps.ite
    | with_reducible apply State.phStart_keeps
    | (intro _; try dsimp only)
    | split
    | refine Keeps.upd ?_ rfl rfl (by simp) rfl rfl rfl

theorem State.bumpWide_keeps {b s : State} (h : Keeps b s) (a : Nat) (n : Nat) :
    Keeps b (State.bumpWide s a n) := by
  unfold State.bumpWide
  try dsimp only
  repeat' first
    | with_reducible assumption
    | (intro _; try dsimp only)
    | refine Keeps.upd ?_ rfl rfl (by simp) rfl rfl rfl

theorem State.takeFront_keeps {b s : State} (h : Keeps b s) (t : Nat) (step : Nat) (blk : Nat) :
    Keeps b (State.takeFront s t step blk) := by
  unfold State.takeFront
  try dsimp only
  repeat' first
    | with_reducible assumption
    | (intro _; try dsimp only)
    | refine Keeps.upd ?_ rfl rfl (by simp) rfl rfl rfl

theorem State.putResiduals_keeps {b s : State} (h : Keeps b s) (t : Nat) (base : Nat) (rs : List Nat) :
    Keeps b (State.putResiduals s t base rs) := by
  unfold State.putResiduals
  try dsimp only
  repeat' first
    | with_reducible assumption
    | with_reducible apply State.ctxWrite_keeps

theorem State.zeroResiduals_keeps {b s : State} (h : Keeps b s) (t : Nat) :
    Keeps b (State.zeroResiduals s t) := by
  unfold State.zeroResiduals
  try dsimp only
  repeat' first
    | with_reducible assumption
    | with_reducible apply Keeps.ite
    | with_reducible apply State.ctxWrite_keeps
    | split

theorem State.pushOwn_keeps {b s : State} (h : Keeps b s) (t : Nat) (blk : Nat) (step : Nat) (g : Grist) :
    Keeps b (State.pushOwn s t blk step g) := by
  unfold State.pushOwn
  try dsimp only
  repeat' first
    | with_reducible assumption
    | with_reducible apply State.phEnd_keeps
    | (intro _; try dsimp only)
    | refine Keeps.upd ?_ rfl rfl (by simp) rfl rfl rfl

theorem State.codeBlock_keeps {b s : State} (h : Keeps b s) (t : Nat) (blk : Nat) (step : Nat) (e : Eff) (vals : List Nat) (pat : Bool) :
    Keeps b (State.codeBlock s t blk step e vals pat) := by
  unfold State.codeBlock
  try dsimp only
  repeat' first
    | with_reducible assumption
    | with_reducible apply Keeps.ite
    | with_reducible apply Keeps.foldl
    | with_reducible apply State.setStat_keeps
    | with_reducible apply State.putResiduals_keeps
    | with_reducible apply State.bumpWide_keeps
    | with_reducible apply State.countEv_keeps
    | with_reducible apply State.pushOwn_keeps
    | (intro _; try dsimp only)
    | split
    | refine Keeps.upd ?_ rfl rfl (by simp) rfl rfl rfl

theorem State.windowBlock_keeps {b s : State} (h : Keeps b s) (t : Nat) (blk : Nat) (step : Nat) (vals : List Nat) (pat : Bool) :
    Keeps b (State.windowBlock s t blk step vals pat) := by
  unfold State.windowBlock
  try dsimp only
  repeat' first
    | with_reducible assumption
    | with_reducible apply Keeps.ite
    | with_reducible apply Keeps.foldl
    | with_reducible apply State.setStat_keeps
    | with_reducible apply State.pushOwn_keeps
    | (intro _; try dsimp only)
    | split
    | refine Keeps.upd ?_ rfl rfl (by simp) rfl rfl rfl

theorem State.rawBlock_keeps {b s : State} (h : Keeps b s) (t : Nat) (blk : Nat) (step : Nat) (e : Eff) (vals : List Nat) (pat : Bool) :
    Keeps b (State.rawBlock s t blk step e vals pat) := by
  unfold State.rawBlock
  try dsimp only
  repeat' first
    | with_reducible assumption
    | with_reducible apply Keeps.ite
    | with_reducible apply Keeps.foldl
    | with_reducible apply State.setStat_keeps
    | with_reducible apply State.pushOwn_keeps
    | with_reducible apply State.countEv_keeps
    | (intro _; try dsimp only)
    | split
    | refine Keeps.upd ?_ rfl rfl (by simp) rfl rfl rfl

theorem State.codeFront_keeps {b s : State} (h : Keeps b s) (t : Nat) (blk : Nat) (step : Nat) (e : Eff) (vals : List Nat) (pat : Bool) :
    Keeps b (State.codeFront s t blk step e vals pat) := by
  unfold State.codeFront
  try dsimp only
  repeat' first
    | with_reducible assumption
    | with_reducible apply Keeps.ite
    | with_reducible apply State.takeFront_keeps
    | with_reducible apply State.faultCtx_keeps
    | with_reducible apply State.codeBlock_keeps
    | with_reducible apply State.windowBlock_keeps
    | with_reducible apply State.rawBlock_keeps
    | (intro _; try dsimp only)
    | split

theorem quantiseBlock_keeps {b s : State} (h : Keeps b s) (t : Nat) (blk : Nat) :
    Keeps b (quantiseBlock t blk s) := by
  unfold quantiseBlock
  refine Keeps.ite h ?_
  cases s.frontOf t (s.cStep (s.slotCtx t)) blk with
  | none => exact h
  | some p =>
    exact Keeps.ite (Keeps.ite (State.yieldEv_keeps (Keeps.upd h rfl rfl (Nat.le_refl _) rfl rfl rfl) _ _ _) h)
      (State.codeFront_keeps h _ _ _ _ _ _)

theorem State.sealBlock_keeps {b s : State} (h : Keeps b s) (c : Nat) (g : Grist) :
    Keeps b (State.sealBlock s c g).2 := by
  unfold State.sealBlock
  try dsimp only
  repeat' first
    | with_reducible assumption
    | with_reducible apply Keeps.iteSnd
    | with_reducible apply Keeps.ite
    | with_reducible apply State.countEv_keeps
    | (intro _; try dsimp only)
    | split
    | refine Keeps.upd ?_ rfl rfl (by simp) rfl rfl rfl

theorem State.integrity_keeps {b s : State} (h : Keeps b s) (c : Nat) (check : Nat) (src : Nat) :
    Keeps b (State.integrity s c check src) := by
  unfold State.integrity
  try dsimp only
  repeat' first
    | with_reducible assumption
    | with_reducible apply Keeps.ite
    | with_reducible apply State.bump_keeps
    | with_reducible apply State.setRegN_keeps
    | with_reducible apply State.err_keeps
    | (intro _; try dsimp only)
    | split

theorem State.dropMax_keeps {b s : State} (h : Keeps b s) (t : Nat) (blk : Nat) :
    Keeps b (State.dropMax s t blk) := by
  unfold State.dropMax
  try dsimp only
  repeat' first
    | with_reducible assumption
    | with_reducible apply State.setStat_keeps
    | (intro _; try dsimp only)
    | split
    | refine Keeps.upd ?_ rfl rfl (by simp) rfl rfl rfl

theorem State.uncounted_keeps {b s : State} (h : Keeps b s) (t : Nat) (step : Nat) (blk : Nat) :
    Keeps b (State.uncounted s t step blk) := by
  unfold State.uncounted
  try dsimp only
  repeat' first
    | with_reducible assumption
    | with_reducible apply Keeps.ite
    | with_reducible apply State.dropMax_keeps
    | split

theorem State.carryFold_keeps {b s : State} (h : Keeps b s) (t : Nat) (step : Nat) (q : Int) (g : Grist) :
    Keeps b (State.carryFold s t step q g) := by
  unfold State.carryFold
  try dsimp only
  repeat' first
    | with_reducible assumption
    | with_reducible apply Keeps.ite
    | with_reducible apply State.putResiduals_keeps
    | with_reducible apply State.bumpWide_keeps
    | with_reducible apply State.svFlag_keeps
    | (intro _; try dsimp only)
    | split

end Sys2Proof.Machine
end

