-- ==== Sys2Proof/Laws/KeepsNet.lean ====
section
/-! SUPPORT. What Quicon, Tongs and Mash keep of a state (Laws/Keeps): one lemma for each operation. -/
namespace Sys2Proof.Machine
open Sys2Proof

theorem State.setPort_keeps {b s : State} (h : Keeps b s) (p : Nat) (x : MacPort) :
    Keeps b (State.setPort s p x) := by
  unfold State.setPort
  try dsimp only
  repeat' first
    | with_reducible assumption
    | refine Keeps.upd ?_ rfl rfl (by simp) rfl rfl rfl

theorem State.portGood_keeps {b s : State} (h : Keeps b s) (p : Nat) :
    Keeps b (State.portGood s p) := by
  unfold State.portGood
  try dsimp only
  repeat' first
    | with_reducible assumption
    | with_reducible apply Keeps.ite
    | with_reducible apply State.setPort_keeps
    | (intro _; try dsimp only)
    | split
    | refine Keeps.upd ?_ rfl rfl (by simp) rfl rfl rfl

theorem State.timePort_keeps {b s : State} (h : Keeps b s) :
    Keeps b (State.timePort s) := by
  unfold State.timePort
  try dsimp only
  repeat' first
    | with_reducible assumption
    | with_reducible apply Keeps.ite
    | (intro _; try dsimp only)
    | split
    | refine Keeps.upd ?_ rfl rfl (by simp) rfl rfl rfl

theorem State.portBack_keeps {b s : State} (h : Keeps b s) (p : Nat) :
    Keeps b (State.portBack s p) := by
  unfold State.portBack
  try dsimp only
  repeat' first
    | with_reducible assumption
    | with_reducible apply Keeps.ite
    | (intro _; try dsimp only)
    | split
    | refine Keeps.upd ?_ rfl rfl (by simp) rfl rfl rfl

theorem portUp_keeps {b s : State} (h : Keeps b s) (p : Nat) :
    Keeps b (portUp p s) := by
  unfold portUp
  try dsimp only
  repeat' first
    | with_reducible assumption
    | with_reducible apply Keeps.ite
    | with_reducible apply State.setPort_keeps
    | with_reducible apply State.portBack_keeps
    | with_reducible apply State.timePort_keeps
    | (intro _; try dsimp only)
    | split
    | refine Keeps.upd ?_ rfl rfl (by simp) rfl rfl rfl

theorem State.setFlow_keeps {b s : State} (h : Keeps b s) (f : Flow) :
    Keeps b (State.setFlow s f) := by
  unfold State.setFlow
  try dsimp only
  repeat' first
    | with_reducible assumption
    | with_reducible apply Keeps.ite
    | with_reducible apply State.countEv_keeps
    | (intro _; try dsimp only)
    | split
    | refine Keeps.upd ?_ rfl rfl (by simp) rfl rfl rfl

theorem State.onFlow_keeps {b s : State} (h : Keeps b s) (m : Msg) (f : Flow → Flow) :
    Keeps b (State.onFlow s m f) := by
  unfold State.onFlow
  try dsimp only
  repeat' first
    | with_reducible assumption
    | with_reducible apply State.setFlow_keeps
    | (intro _; try dsimp only)
    | split
    | refine Keeps.upd ?_ rfl rfl (by simp) rfl rfl rfl

theorem State.putMsg_keeps {b s : State} (h : Keeps b s) (m : Msg) :
    Keeps b (State.putMsg s m) := by
  unfold State.putMsg
  try dsimp only
  repeat' first
    | with_reducible assumption
    | with_reducible apply Keeps.ite
    | (intro _; try dsimp only)
    | split
    | refine Keeps.upd ?_ rfl rfl (by simp) rfl rfl rfl

theorem State.dropMsg_keeps {b s : State} (h : Keeps b s) (k : MKey) :
    Keeps b (State.dropMsg s k) := by
  unfold State.dropMsg
  try dsimp only
  repeat' first
    | with_reducible assumption
    | (intro _; try dsimp only)
    | refine Keeps.upd ?_ rfl rfl (by simp) rfl rfl rfl

theorem State.chargeFlow_keeps {b s : State} (h : Keeps b s) (m : Msg) :
    Keeps b (State.chargeFlow s m) := by
  unfold State.chargeFlow
  try dsimp only
  repeat' first
    | with_reducible assumption
    | with_reducible apply State.setFlow_keeps
    | with_reducible apply State.charge_keeps
    | split
    | refine Keeps.upd ?_ rfl rfl (by simp) rfl rfl rfl

theorem State.countSent_keeps {b s : State} (h : Keeps b s) (m : Msg) :
    Keeps b (State.countSent s m) := by
  unfold State.countSent
  try dsimp only
  repeat' first
    | with_reducible assumption
    | with_reducible apply Keeps.ite
    | with_reducible apply State.chargeFlow_keeps
    | with_reducible apply State.putMsg_keeps
    | split

theorem State.portless_keeps {b s : State} (h : Keeps b s) :
    Keeps b (State.portless s) := by
  unfold State.portless
  try dsimp only
  repeat' first
    | with_reducible assumption
    | with_reducible apply Keeps.foldl
    | with_reducible apply State.countSent_keeps
    | (intro _; try dsimp only)

theorem State.portBad_keeps {b s : State} (h : Keeps b s) (p : Nat) :
    Keeps b (State.portBad s p) := by
  unfold State.portBad
  try dsimp only
  repeat' first
    | with_reducible assumption
    | with_reducible apply Keeps.ite
    | with_reducible apply State.setPort_keeps
    | with_reducible apply State.bump_keeps
    | with_reducible apply State.err_keeps
    | with_reducible apply State.portless_keeps
    | with_reducible apply State.timePort_keeps
    | (intro _; try dsimp only)
    | split
    | refine Keeps.upd ?_ rfl rfl (by simp) rfl rfl rfl

theorem linkUp_keeps {b s : State} (h : Keeps b s) (p : Nat) :
    Keeps b (linkUp p s) := by
  unfold linkUp
  try dsimp only
  repeat' first
    | with_reducible assumption
    | with_reducible apply State.setPort_keeps
    | with_reducible apply State.portGood_keeps
    | refine Keeps.upd ?_ rfl rfl (by simp) rfl rfl rfl

theorem portDown_keeps {b s : State} (h : Keeps b s) (p : Nat) :
    Keeps b (portDown p s) := by
  unfold portDown
  try dsimp only
  repeat' first
    | with_reducible assumption
    | with_reducible apply State.setPort_keeps
    | with_reducible apply State.portBad_keeps
    | refine Keeps.upd ?_ rfl rfl (by simp) rfl rfl rfl

theorem State.sendMsg_keeps {b s : State} (h : Keeps b s) (k : MKey) (payload : Bytes) (spec : Nat) (charge : Nat) (group : Nat) (mash : Bool) (own : Option (Nat × Int × Grist)) :
    Keeps b (State.sendMsg s k payload spec charge group mash own) := by
  unfold State.sendMsg
  try dsimp only
  repeat' first
    | with_reducible assumption
    | with_reducible apply Keeps.ite
    | with_reducible apply State.countSent_keeps
    | (intro _; try dsimp only)
    | split
    | refine Keeps.upd ?_ rfl rfl (by simp) rfl rfl rfl

theorem State.sendShot_keeps {b s : State} (h : Keeps b s) (cls : Nat) (port : Option Nat) (k : MKey) (attempt : Nat) (spec : Nat) (payload : Bytes) :
    Keeps b (State.sendShot s cls port k attempt spec payload) := by
  unfold State.sendShot
  try dsimp only
  repeat' first
    | with_reducible assumption
    | with_reducible apply Keeps.ite
    | (intro _; try dsimp only)
    | split
    | refine Keeps.upd ?_ rfl rfl (by simp) rfl rfl rfl

theorem State.turnAlt_keeps {b s : State} (h : Keeps b s) (p : Nat) (tongs : Bool) :
    Keeps b (State.turnAlt s p tongs) := by
  unfold State.turnAlt
  try dsimp only
  repeat' first
    | with_reducible assumption
    | (intro _; try dsimp only)
    | refine Keeps.upd ?_ rfl rfl (by simp) rfl rfl rfl

theorem State.grantMsg_keeps {b s : State} (h : Keeps b s) (p : Nat) (m : Msg) :
    Keeps b (State.grantMsg s p m) := by
  unfold State.grantMsg
  try dsimp only
  repeat' first
    | with_reducible assumption
    | with_reducible apply Keeps.ite
    | with_reducible apply State.emit_keeps
    | with_reducible apply State.chargeFlow_keeps
    | with_reducible apply State.bump_keeps
    | with_reducible apply State.putMsg_keeps
    | with_reducible apply State.phStart_keeps
    | with_reducible apply State.turnAlt_keeps
    | (intro _; try dsimp only)
    | split
    | refine Keeps.upd ?_ rfl rfl (by simp) rfl rfl rfl

theorem State.grantShot_keeps {b s : State} (h : Keeps b s) (p : Nat) (q : Shot) :
    Keeps b (State.grantShot s p q) := by
  unfold State.grantShot
  try dsimp only
  repeat' first
    | with_reducible assumption
    | with_reducible apply Keeps.ite
    | with_reducible apply State.emit_keeps
    | with_reducible apply State.bump_keeps
    | with_reducible apply State.turnAlt_keeps
    | (intro _; try dsimp only)
    | split
    | refine Keeps.upd ?_ rfl rfl (by simp) rfl rfl rfl

theorem egressGrant_keeps {b s : State} (h : Keeps b s) (p : Nat) :
    Keeps b (egressGrant p s) := by
  unfold egressGrant
  try dsimp only
  repeat' first
    | with_reducible assumption
    | with_reducible apply Keeps.ite
    | with_reducible apply State.grantShot_keeps
    | with_reducible apply State.grantMsg_keeps
    | split
    | refine Keeps.upd ?_ rfl rfl (by simp) rfl rfl rfl

theorem State.rxDrop_keeps {b s : State} (h : Keeps b s) (r : Rx) :
    Keeps b (State.rxDrop s r) := by
  unfold State.rxDrop
  try dsimp only
  repeat' first
    | with_reducible assumption
    | refine Keeps.upd ?_ rfl rfl (by simp) rfl rfl rfl

theorem State.rxStore_keeps {b s : State} (hk : Keeps b s) (port : Nat) (h : Hdr) (ce : Bool) (seg : Bytes) :
    Keeps b (State.rxStore s port h ce seg) := by
  unfold State.rxStore
  try dsimp only
  repeat' first
    | with_reducible assumption
    | with_reducible apply Keeps.ite
    | with_reducible apply State.bump_keeps
    | (intro _; try dsimp only)
    | split
    | refine Keeps.upd ?_ rfl rfl (by simp) rfl rfl rfl

theorem reassemblyTimeout_keeps {b s : State} (h : Keeps b s) :
    Keeps b (reassemblyTimeout s) := by
  unfold reassemblyTimeout
  try dsimp only
  repeat' first
    | with_reducible assumption
    | with_reducible apply Keeps.ite
    | with_reducible apply State.bump_keeps
    | (intro _; try dsimp only)
    | split
    | refine Keeps.upd ?_ rfl rfl (by simp) rfl rfl rfl

theorem State.ack_keeps {b s : State} (h : Keeps b s) (r : Rx) (rfirst : Nat) (d : Nat) (win : Nat) (dup : Bool) (late : Bool) :
    Keeps b (State.ack s r rfirst d win dup late) := by
  unfold State.ack
  try dsimp only
  repeat' first
    | with_reducible assumption
    | with_reducible apply Keeps.ite
    | with_reducible apply State.sendShot_keeps
    | (intro _; try dsimp only)
    | split
    | refine Keeps.upd ?_ rfl rfl (by simp) rfl rfl rfl

theorem State.addMan_keeps {b s : State} (h : Keeps b s) (c : Nat) (e : Nat) :
    Keeps b (State.addMan s c e) := by
  unfold State.addMan
  try dsimp only
  repeat' first
    | with_reducible assumption
    | with_reducible apply Keeps.ite
    | with_reducible apply State.setGx_keeps
    | (intro _; try dsimp only)
    | split
    | refine Keeps.upd ?_ rfl rfl (by simp) rfl rfl rfl

theorem State.addCarried_keeps {b s : State} (h : Keeps b s) (c : Nat) (billet : Nat) (blk : Nat) :
    Keeps b (State.addCarried s c billet blk) := by
  unfold State.addCarried
  try dsimp only
  repeat' first
    | with_reducible assumption
    | with_reducible apply State.addMan_keeps
    | (intro _; try dsimp only)

theorem State.foldOwn_keeps {b s : State} (h : Keeps b s) (c : Nat) (step : Nat) (t : Nat) (q : Int) (g : Grist) (billet : Nat) (blk : Nat) :
    Keeps b (State.foldOwn s c step t q g billet blk) := by
  unfold State.foldOwn
  try dsimp only
  repeat' first
    | with_reducible assumption
    | with_reducible apply Keeps.ite
    | with_reducible apply State.carryFold_keeps
    | with_reducible apply State.addCarried_keeps
    | (intro _; try dsimp only)
    | split

theorem State.forget_keeps {b s : State} (h : Keeps b s) (m : Msg) :
    Keeps b (State.forget s m) := by
  unfold State.forget
  try dsimp only
  repeat' first
    | with_reducible assumption
    | with_reducible apply Keeps.ite
    | with_reducible apply State.onFlow_keeps
    | with_reducible apply State.charge_keeps
    | (intro _; try dsimp only)
    | split
    | refine Keeps.upd ?_ rfl rfl (by simp) rfl rfl rfl

theorem State.notAdded_keeps {b s : State} (h : Keeps b s) (m : Msg) :
    Keeps b (State.notAdded s m) := by
  unfold State.notAdded
  try dsimp only
  repeat' first
    | with_reducible assumption
    | with_reducible apply Keeps.ite
    | with_reducible apply State.uncounted_keeps
    | with_reducible apply State.foldOwn_keeps
    | (intro _; try dsimp only)
    | split
    | refine Keeps.upd ?_ rfl rfl (by simp) rfl rfl rfl

theorem State.endMsg_keeps {b s : State} (h : Keeps b s) (m : Msg) (o : Nat) :
    Keeps b (State.endMsg s m o) := by
  unfold State.endMsg
  try dsimp only
  repeat' first
    | with_reducible assumption
    | with_reducible apply Keeps.ite
    | with_reducible apply State.dropMsg_keeps
    | with_reducible apply State.forget_keeps
    | with_reducible apply State.countEv_keeps
    | with_reducible apply State.phEnd_keeps
    | with_reducible apply State.notAdded_keeps
    | (intro _; try dsimp only)
    | split

theorem State.cancelWhere_keeps {b s : State} (h : Keeps b s) (p : Msg → Bool) :
    Keeps b (State.cancelWhere s p) := by
  unfold State.cancelWhere
  try dsimp only
  repeat' first
    | with_reducible assumption
    | with_reducible apply Keeps.ite
    | with_reducible apply Keeps.foldl
    | with_reducible apply State.endMsg_keeps
    | with_reducible apply State.putMsg_keeps
    | (intro _; try dsimp only)
    | split

theorem State.cancelStep_keeps {b s : State} (h : Keeps b s) (c : Nat) (step : Nat) :
    Keeps b (State.cancelStep s c step) := by
  unfold State.cancelStep
  try dsimp only
  repeat' first
    | with_reducible assumption
    | with_reducible apply State.cancelWhere_keeps

theorem State.forgetOwn_keeps {b s : State} (h : Keeps b s) (c : Nat) :
    Keeps b (State.forgetOwn s c) := by
  unfold State.forgetOwn
  try dsimp only
  repeat' first
    | with_reducible assumption
    | with_reducible apply Keeps.ite
    | (intro _; try dsimp only)
    | split
    | refine Keeps.upd ?_ rfl rfl (by simp) rfl rfl rfl

theorem State.listEntry_keeps {b s : State} (h : Keeps b s) (base : Nat) (size : Nat) (slot : Nat) (n : Nat) :
    Keeps b (State.listEntry s base size slot n) := by
  unfold State.listEntry
  try dsimp only
  repeat' first
    | with_reducible assumption
    | with_reducible apply State.busWrite_keeps
    | (intro _; try dsimp only)
    | refine Keeps.upd ?_ rfl rfl (by simp) rfl rfl rfl

theorem State.coolEntry_keeps {b s : State} (h : Keeps b s) :
    Keeps b (State.coolEntry s) := by
  unfold State.coolEntry
  try dsimp only
  repeat' first
    | with_reducible assumption
    | with_reducible apply State.listEntry_keeps

theorem State.addCool_keeps {b s : State} (h : Keeps b s) (cs : List Cool) :
    Keeps b (State.addCool s cs) := by
  unfold State.addCool
  try dsimp only
  repeat' first
    | with_reducible assumption
    | with_reducible apply Keeps.foldl
    | with_reducible apply State.coolEntry_keeps
    | (intro _; try dsimp only)
    | refine Keeps.upd ?_ rfl rfl (by simp) rfl rfl rfl

theorem State.addClose_keeps {b s : State} (h : Keeps b s) (x : Close) :
    Keeps b (State.addClose s x) := by
  unfold State.addClose
  try dsimp only
  repeat' first
    | with_reducible assumption
    | with_reducible apply State.coolEntry_keeps
    | (intro _; try dsimp only)
    | refine Keeps.upd ?_ rfl rfl (by simp) rfl rfl rfl

theorem State.coolFull_keeps {b s : State} (h : Keeps b s) (c : Nat) :
    Keeps b (State.coolFull s c) := by
  unfold State.coolFull
  try dsimp only
  repeat' first
    | with_reducible assumption
    | with_reducible apply State.err_keeps
    | with_reducible apply State.yieldEv_keeps

theorem State.guardSend_keeps {b s : State} (h : Keeps b s) (dst : Nat) (ctx : Nat) (gen : Nat) (step : Nat) (billet : Nat) (gop : Nat) (newinc : Nat) (pseq : Nat) (payload : Bytes) :
    Keeps b (State.guardSend s dst ctx gen step billet gop newinc pseq payload) := by
  unfold State.guardSend
  try dsimp only
  repeat' first
    | with_reducible assumption
    | with_reducible apply Keeps.ite
    | with_reducible apply Keeps.foldl
    | with_reducible apply State.sendMsg_keeps
    | (intro _; try dsimp only)
    | split
    | refine Keeps.upd ?_ rfl rfl (by simp) rfl rfl rfl

theorem State.nextSeq_keeps {b s : State} (h : Keeps b s) (dst : Nat) :
    Keeps b (State.nextSeq s dst).2 := by
  unfold State.nextSeq
  try dsimp only
  repeat' first
    | with_reducible assumption
    | with_reducible apply Keeps.ite
    | (intro _; try dsimp only)
    | refine Keeps.upd ?_ rfl rfl (by simp) rfl rfl rfl

theorem kx1Pieces_keeps {b s : State} (h : Keeps b s) (c dst group step bucket blk dtype : Nat) (mash : Bool)
    (ps : List (Nat × Nat × Bytes)) : Keeps b (kx1Pieces c dst group step bucket blk dtype mash ps s) := by
  induction ps generalizing s with
  | nil => exact h
  | cons p ps ih =>
    obtain ⟨off, n, bs⟩ := p
    exact ih (State.sendMsg_keeps (State.nextSeq_keeps h dst) _ _ _ _ _ _ _)

theorem State.sendKx1_keeps {b s : State} (h : Keeps b s) (c : Nat) (dst : Nat) (group : Nat) (billet : Nat) (blk : Nat) (mash : Bool) (g : Grist) :
    Keeps b (State.sendKx1 s c dst group billet blk mash g) := by
  unfold State.sendKx1
  try dsimp only
  repeat' first
    | with_reducible assumption
    | with_reducible apply Keeps.ite
    | with_reducible apply kx1Pieces_keeps
    | (intro _; try dsimp only)
    | split

theorem State.setDw_keeps {b s : State} (h : Keeps b s) (d : Nat) (w : Nat) (v : Nat) :
    Keeps b (State.setDw s d w v) := by
  unfold State.setDw
  try dsimp only
  repeat' first
    | with_reducible assumption
    | refine Keeps.upd ?_ rfl rfl (by simp) rfl rfl rfl

theorem State.setArrival_keeps {b s : State} (h : Keeps b s) (d : Nat) (a : Nat) (v : Nat) :
    Keeps b (State.setArrival s d a v) := by
  unfold State.setArrival
  try dsimp only
  repeat' first
    | with_reducible assumption
    | with_reducible apply State.setDw_keeps

theorem State.setQw_keeps {b s : State} (h : Keeps b s) (q : Nat) (w : Nat) (v : Nat) :
    Keeps b (State.setQw s q w v) := by
  unfold State.setQw
  try dsimp only
  repeat' first
    | with_reducible assumption
    | refine Keeps.upd ?_ rfl rfl (by simp) rfl rfl rfl

theorem State.setQx_keeps {b s : State} (h : Keeps b s) (q : Nat) (x : TQueue) :
    Keeps b (State.setQx s q x) := by
  unfold State.setQx
  try dsimp only
  repeat' first
    | with_reducible assumption
    | refine Keeps.upd ?_ rfl rfl (by simp) rfl rfl rfl

theorem State.tngSeal_keeps {b s : State} (h : Keeps b s) (c : Nat) (spec : Nat) (pt : Bytes) {x : Bytes × State}
    (e : s.tngSeal c spec pt = some x) : Keeps b x.2 := by
  unfold State.tngSeal at e
  dsimp only at e
  split at e
  · cases e; exact h
  · obtain ⟨_, _, rfl⟩ := Option.map_eq_some_iff.1 e
    exact Keeps.upd h rfl rfl (Nat.le_refl _) rfl rfl rfl

theorem State.mapEnt_keeps {b s : State} (h : Keeps b s) (q : Nat) (pos : Nat) (f : QEnt → QEnt) :
    Keeps b (State.mapEnt s q pos f) := by
  unfold State.mapEnt
  try dsimp only
  repeat' first
    | with_reducible assumption
    | with_reducible apply Keeps.ite
    | with_reducible apply State.setQx_keeps
    | (intro _; try dsimp only)
    | split
    | refine Keeps.upd ?_ rfl rfl (by simp) rfl rfl rfl

theorem State.tngIssue_keeps {b s : State} (h : Keeps b s) (q : Nat) (e : QEnt) :
    Keeps b (State.tngIssue s q e) := by
  unfold State.tngIssue
  dsimp only
  split
  · exact State.mapEnt_keeps h _ _ _
  · rename_i hz
    exact State.sendMsg_keeps (State.mapEnt_keeps (State.setQx_keeps (State.tngSeal_keeps h _ _ _ hz) _ _) _ _ _) _ _ _ _ _ _ _

theorem State.qFault_keeps {b s : State} (h : Keeps b s) (q : Nat) (pos : Nat) :
    Keeps b (State.qFault s q pos) := by
  unfold State.qFault
  try dsimp only
  repeat' first
    | with_reducible assumption
    | with_reducible apply Keeps.ite
    | with_reducible apply State.setQw_keeps
    | with_reducible apply State.setRegN_keeps
    | with_reducible apply State.err_keeps
    | (intro _; try dsimp only)
    | split

theorem State.advQcnt_keeps {b s : State} (h : Keeps b s) (q : Nat) :
    Keeps b (State.advQcnt s q) := by
  unfold State.advQcnt
  try dsimp only
  repeat' first
    | with_reducible assumption
    | with_reducible apply Keeps.ite
    | with_reducible apply State.setQw_keeps
    | with_reducible apply State.ctxWrite_keeps
    | (intro _; try dsimp only)
    | split

theorem tngRetire_keeps {b s : State} (h : Keeps b s) (q : Nat) (es : List QEnt) : Keeps b (tngRetire q es s) := by
  induction es generalizing s with
  | nil => exact State.setQx_keeps h _ _
  | cons e es ih =>
    unfold tngRetire
    have h1 := fun n => State.setQw_keeps h q 8 n
    exact Keeps.ite (ih (Keeps.ite (State.advQcnt_keeps (h1 _) _) (h1 _))) (State.setQx_keeps h _ _)

theorem State.tngLap_keeps {b s : State} (h : Keeps b s) (q : Nat) :
    Keeps b (State.tngLap s q) := by
  unfold State.tngLap
  try dsimp only
  repeat' first
    | with_reducible assumption
    | with_reducible apply Keeps.ite
    | with_reducible apply State.setQx_keeps
    | with_reducible apply State.setQw_keeps
    | with_reducible apply State.countEv_keeps
    | (intro _; try dsimp only)
    | split
    | refine Keeps.upd ?_ rfl rfl (by simp) rfl rfl rfl

theorem State.fetchMark_keeps {b s : State} (h : Keeps b s) (q : Nat) (pos : Nat) (op : Nat) :
    Keeps b (State.fetchMark s q pos op) := by
  unfold State.fetchMark
  try dsimp only
  repeat' first
    | with_reducible assumption
    | with_reducible apply Keeps.ite
    | with_reducible apply State.phStart_keeps
    | with_reducible apply State.phEnd_keeps
    | with_reducible apply State.writePhase_keeps
    | (intro _; try dsimp only)
    | split

theorem State.tngStatus_keeps {b s : State} (h : Keeps b s) (q : Nat) (pos : Nat) (op : Nat) (st : Nat) :
    Keeps b (State.tngStatus s q pos op st) := by
  unfold State.tngStatus
  try dsimp only
  repeat' first
    | with_reducible assumption
    | with_reducible apply Keeps.ite
    | with_reducible apply State.ctxWrite_keeps
    | with_reducible apply State.mapEnt_keeps
    | with_reducible apply State.countEv_keeps
    | with_reducible apply State.fetchMark_keeps
    | with_reducible apply State.qFault_keeps
    | (intro _; try dsimp only)
    | split
    | refine Keeps.upd ?_ rfl rfl (by simp) rfl rfl rfl

theorem State.flagOne_keeps {b s : State} (h : Keeps b s) (q : Nat) (pos : Nat) :
    Keeps b (State.flagOne s q pos) := by
  unfold State.flagOne
  try dsimp only
  repeat' first
    | with_reducible assumption
    | with_reducible apply Keeps.ite
    | with_reducible apply State.tngStatus_keeps
    | with_reducible apply State.tngIssue_keeps
    | (intro _; try dsimp only)
    | split
    | refine Keeps.upd ?_ rfl rfl (by simp) rfl rfl rfl

theorem State.tngDone_keeps {b s : State} (h : Keeps b s) (q : Nat) (pos : Nat) (st : Nat) :
    Keeps b (State.tngDone s q pos st) := by
  unfold State.tngDone
  try dsimp only
  repeat' first
    | with_reducible assumption
    | with_reducible apply Keeps.foldl
    | with_reducible apply State.tngStatus_keeps
    | with_reducible apply State.flagOne_keeps
    | with_reducible apply tngRetire_keeps
    | with_reducible apply State.tngLap_keeps
    | (intro _; try dsimp only)
    | split
    | refine Keeps.upd ?_ rfl rfl (by simp) rfl rfl rfl

theorem State.qBegin_keeps {b s : State} (h : Keeps b s) (q : Nat) (pos : Nat) (w : Nat) :
    Keeps b (State.qBegin s q pos w) := by
  unfold State.qBegin
  try dsimp only
  repeat' first
    | with_reducible assumption
    | with_reducible apply Keeps.ite
    | with_reducible apply State.setQx_keeps
    | (intro _; try dsimp only)
    | split
    | refine Keeps.upd ?_ rfl rfl (by simp) rfl rfl rfl

theorem skipRun_keeps {b s : State} (h : Keeps b s) (q n : Nat) : Keeps b (skipRun q n s) := by
  induction n generalizing s with
  | zero => exact h
  | succ n ih =>
    unfold skipRun
    exact Keeps.ite h (ih (State.tngDone_keeps (State.qBegin_keeps (State.setQx_keeps h _ _) _ _ _) _ _ _))

theorem queueStart_keeps {b s : State} (h : Keeps b s) (q : Nat) (op : Nat) (ecc : Bool) :
    Keeps b (queueStart q op ecc s) := by
  unfold queueStart
  try dsimp only
  repeat' first
    | with_reducible assumption
    | with_reducible apply Keeps.ite
    | with_reducible apply skipRun_keeps
    | with_reducible apply State.qBegin_keeps
    | with_reducible apply State.tngDone_keeps
    | with_reducible apply State.faultCtx_keeps
    | with_reducible apply State.mapEnt_keeps
    | with_reducible apply State.flagOne_keeps
    | with_reducible apply State.tngIssue_keeps
    | (intro _; try dsimp only)
    | split
    | refine Keeps.upd ?_ rfl rfl (by simp) rfl rfl rfl

theorem waitLcntMet_keeps {b s : State} (h : Keeps b s) (q : Nat) :
    Keeps b (waitLcntMet q s) := by
  unfold waitLcntMet
  try dsimp only
  repeat' first
    | with_reducible assumption
    | with_reducible apply Keeps.ite
    | with_reducible apply State.tngDone_keeps
    | (intro _; try dsimp only)
    | split
    | refine Keeps.upd ?_ rfl rfl (by simp) rfl rfl rfl

theorem queuePoll_keeps {b s : State} (h : Keeps b s) (q : Nat) :
    Keeps b (queuePoll q s) := by
  unfold queuePoll
  try dsimp only
  repeat' first
    | with_reducible assumption
    | with_reducible apply State.tngIssue_keeps
    | split
    | refine Keeps.upd ?_ rfl rfl (by simp) rfl rfl rfl

theorem tngDb_keeps {b s : State} (h : Keeps b s) (v : W32) :
    Keeps b (tngDb v s).1 := by
  unfold tngDb
  try dsimp only
  repeat' first
    | with_reducible assumption
    | with_reducible apply Keeps.iteFst
    | with_reducible apply Keeps.ite
    | with_reducible apply State.err_keeps
    | with_reducible apply State.setQw_keeps
    | (intro _; try dsimp only)
    | split

theorem State.queueReset_keeps {b s : State} (h : Keeps b s) (q : Nat) :
    Keeps b (State.queueReset s q) := by
  unfold State.queueReset
  try dsimp only
  repeat' first
    | with_reducible assumption
    | with_reducible apply Keeps.foldl
    | with_reducible apply State.cancelWhere_keeps
    | with_reducible apply State.ctxWrite_keeps
    | with_reducible apply State.setQx_keeps
    | with_reducible apply State.setQw_keeps
    | (intro _; try dsimp only)
    | refine Keeps.upd ?_ rfl rfl (by simp) rfl rfl rfl

theorem State.tngAnswer_keeps {b s : State} (h : Keeps b s) (r : Rx) (spec : Nat) (payload : Bytes) :
    Keeps b (State.tngAnswer s r spec payload) := by
  unfold State.tngAnswer
  try dsimp only
  repeat' first
    | with_reducible assumption
    | with_reducible apply State.sendShot_keeps
    | refine Keeps.upd ?_ rfl rfl (by simp) rfl rfl rfl

theorem State.tngNak_keeps {b s : State} (h : Keeps b s) (r : Rx) (code : Nat) :
    Keeps b (State.tngNak s r code) := by
  unfold State.tngNak
  try dsimp only
  repeat' first
    | with_reducible assumption
    | with_reducible apply State.tngAnswer_keeps
    | with_reducible apply State.setRegN_keeps
    | with_reducible apply State.bump_keeps
    | with_reducible apply State.err_keeps

theorem State.tngTake_keeps {b s : State} (h : Keeps b s) (r : Rx) :
    match s.tngTake r with | .inl t => Keeps b t | .inr (t, _) => Keeps b t := by
  have h1 := State.rxDrop_keeps h r
  unfold State.tngTake
  dsimp only
  by_cases c1 : (!(s.rxDrop r).cRunnable r.key.ctx || (s.rxDrop r).cGen r.key.ctx != r.key.gen) = true
  · simp only [c1, if_true]; exact State.bump_keeps h1 _ _
  · by_cases c2 : (s.rxDrop r).tngBad r = true
    · simp only [c1, c2, if_true, Bool.false_eq_true, if_false]; exact State.bump_keeps h1 _ _
    · simp only [c1, c2, Bool.false_eq_true, if_false]
      cases (s.rxDrop r).tngOpen r.key.ctx r.spec r.bytes with
      | none => exact State.integrity_keeps (State.bump_keeps h1 _ _) _ _ _
      | some pt => exact h1
theorem tngTake_inl {b s t : State} {r : Rx} (h : Keeps b s) (e : s.tngTake r = .inl t) : Keeps b t := by
  have := State.tngTake_keeps h r
  rwa [e] at this
theorem tngTake_inr {b s t : State} {r : Rx} {pt : Bytes} (h : Keeps b s) (e : s.tngTake r = .inr (t, pt)) :
    Keeps b t := by
  have := State.tngTake_keeps h r
  rwa [e] at this

theorem State.doneEntry_keeps {b s : State} (h : Keeps b s) (i : Nat) :
    Keeps b (State.doneEntry s i) := by
  unfold State.doneEntry
  try dsimp only
  repeat' first
    | with_reducible assumption
    | with_reducible apply State.listEntry_keeps

theorem State.addDone_keeps {b s : State} (h : Keeps b s) (r : Rx) (a : Option Nat) :
    Keeps b (State.addDone s r a) := by
  unfold State.addDone
  try dsimp only
  repeat' first
    | with_reducible assumption
    | with_reducible apply State.doneEntry_keeps
    | (intro _; try dsimp only)
    | refine Keeps.upd ?_ rfl rfl (by simp) rfl rfl rfl

theorem State.setDone_keeps {b s : State} (h : Keeps b s) (r : Rx) :
    Keeps b (State.setDone s r) := by
  unfold State.setDone
  try dsimp only
  repeat' first
    | with_reducible assumption
    | with_reducible apply Keeps.ite
    | with_reducible apply State.doneEntry_keeps
    | (intro _; try dsimp only)
    | split
    | refine Keeps.upd ?_ rfl rfl (by simp) rfl rfl rfl

theorem tongsWrite_keeps {b s0 : State} (h : Keeps b s0)  :
    Keeps b (tongsWrite s0) := by
  unfold tongsWrite
  split
  · exact h
  · split
    · rename_i e; exact tngTake_inl h e
    · rename_i t pt e
      have h1 := tngTake_inr h e
      split
      · dsimp only
        split
        · exact State.bump_keeps h1 _ _
        · exact State.ack_keeps (State.bump_keeps h1 _ _) _ _ _ _ _ _
        · exact State.tngNak_keeps (State.bump_keeps h1 _ _) _ _
      · refine Keeps.ite (State.err_keeps (State.bump_keeps h1 _ _) _ _)
          (Keeps.ite (State.tngNak_keeps (State.addDone_keeps h1 _ _) _ _) ?_)
        exact Keeps.ite (State.faultCtx_keeps h1 _) (Keeps.upd (State.countEv_keeps (State.addDone_keeps
          (State.busWrite_keeps h1 _ _) _ _) _ _ _) rfl rfl (Nat.le_refl _) rfl rfl rfl)

theorem tongsWriteDone_keeps {b s : State} (h : Keeps b s) :
    Keeps b (tongsWriteDone s) := by
  unfold tongsWriteDone
  try dsimp only
  repeat' first
    | with_reducible assumption
    | with_reducible apply State.setDone_keeps
    | with_reducible apply State.setArrival_keeps
    | with_reducible apply State.ack_keeps
    | (intro _; try dsimp only)
    | split
    | refine Keeps.upd ?_ rfl rfl (by simp) rfl rfl rfl

theorem tongsRead_keeps {b s0 : State} (h : Keeps b s0) (poison : Bool) :
    Keeps b (tongsRead poison s0) := by
  unfold tongsRead
  split
  · exact h
  · split
    · rename_i e; exact tngTake_inl h e
    · rename_i t pt e
      have h1 := tngTake_inr h e
      refine Keeps.ite (State.tngNak_keeps h1 _ _) (Keeps.ite (State.faultCtx_keeps h1 _) (Keeps.ite (State.tngNak_keeps h1 _ _) ?_))
      dsimp only
      split
      · exact h1
      · rename_i hz
        exact State.tngAnswer_keeps (State.countEv_keeps (State.tngSeal_keeps h1 _ _ _ hz) _ _ _) _ _ _

theorem cntRead_keeps {b s0 : State} (h : Keeps b s0)  :
    Keeps b (cntRead s0) := by
  unfold cntRead
  split
  · exact h
  · split
    · rename_i e; exact tngTake_inl h e
    · rename_i t pt e
      have h1 := tngTake_inr h e
      exact Keeps.ite (State.tngNak_keeps h1 _ _) (State.tngAnswer_keeps (State.countEv_keeps h1 _ _ _) _ _ _)

theorem doneExpiry_keeps {b s : State} (h : Keeps b s) :
    Keeps b (doneExpiry s) := by
  unfold doneExpiry
  try dsimp only
  repeat' first
    | with_reducible assumption
    | (intro _; try dsimp only)
    | refine Keeps.upd ?_ rfl rfl (by simp) rfl rfl rfl

theorem State.answered_keeps {b s : State} (h : Keeps b s) (m : Msg) (ce : Nat) (o : Nat) :
    Keeps b (State.answered s m ce o) := by
  unfold State.answered
  try dsimp only
  repeat' first
    | with_reducible assumption
    | with_reducible apply Keeps.ite
    | with_reducible apply State.onFlow_keeps
    | with_reducible apply State.charge_keeps
    | with_reducible apply State.endMsg_keeps
    | (intro _; try dsimp only)
    | split

theorem State.stray_keeps {b s : State} (h : Keeps b s) :
    Keeps b (State.stray s) := by
  unfold State.stray
  try dsimp only
  repeat' first
    | with_reducible assumption
    | with_reducible apply State.bump_keeps

theorem rresp_keeps {b s0 : State} (h : Keeps b s0) :
    Keeps b (rresp s0) := by
  unfold rresp
  try dsimp only
  repeat' first
    | with_reducible assumption
    | with_reducible apply Keeps.ite
    | with_reducible apply State.rxDrop_keeps
    | with_reducible apply State.stray_keeps
    | with_reducible apply State.integrity_keeps
    | with_reducible apply State.answered_keeps
    | with_reducible apply State.setQx_keeps
    | with_reducible apply skipRun_keeps
    | with_reducible apply State.tngDone_keeps
    | with_reducible apply State.ctxWrite_keeps
    | with_reducible apply State.mapEnt_keeps
    | (intro _; try dsimp only)
    | split
    | refine Keeps.upd ?_ rfl rfl (by simp) rfl rfl rfl

theorem localWriteAck_keeps {b s : State} (h : Keeps b s) :
    Keeps b (localWriteAck s) := by
  unfold localWriteAck
  try dsimp only
  repeat' first
    | with_reducible assumption
    | with_reducible apply State.tngDone_keeps
    | split
    | refine Keeps.upd ?_ rfl rfl (by simp) rfl rfl rfl

theorem cntResp_keeps {b s0 : State} (h : Keeps b s0) :
    Keeps b (cntResp s0) := by
  unfold cntResp
  try dsimp only
  repeat' first
    | with_reducible assumption
    | with_reducible apply Keeps.ite
    | with_reducible apply State.rxDrop_keeps
    | with_reducible apply State.stray_keeps
    | with_reducible apply State.answered_keeps
    | with_reducible apply State.tngDone_keeps
    | with_reducible apply State.mapEnt_keeps
    | (intro _; try dsimp only)
    | split
    | refine Keeps.upd ?_ rfl rfl (by simp) rfl rfl rfl

theorem nakRx_keeps {b s0 : State} (h : Keeps b s0) :
    Keeps b (nakRx s0) := by
  unfold nakRx
  try dsimp only
  repeat' first
    | with_reducible assumption
    | with_reducible apply Keeps.ite
    | with_reducible apply State.rxDrop_keeps
    | with_reducible apply State.stray_keeps
    | with_reducible apply State.answered_keeps
    | with_reducible apply State.tngDone_keeps
    | (intro _; try dsimp only)
    | split
    | refine Keeps.upd ?_ rfl rfl (by simp) rfl rfl rfl

theorem State.tngAcked_keeps {b s : State} (h : Keeps b s) (k : MKey) :
    Keeps b (State.tngAcked s k) := by
  unfold State.tngAcked
  try dsimp only
  repeat' first
    | with_reducible assumption
    | with_reducible apply Keeps.ite
    | with_reducible apply State.tngDone_keeps
    | (intro _; try dsimp only)
    | split
    | refine Keeps.upd ?_ rfl rfl (by simp) rfl rfl rfl

theorem State.tngUnknown_keeps {b s : State} (h : Keeps b s) (k : MKey) :
    Keeps b (State.tngUnknown s k) := by
  unfold State.tngUnknown
  try dsimp only
  repeat' first
    | with_reducible assumption
    | with_reducible apply Keeps.ite
    | with_reducible apply State.bump_keeps
    | with_reducible apply State.tngIssue_keeps
    | with_reducible apply State.tngDone_keeps
    | (intro _; try dsimp only)
    | split
    | refine Keeps.upd ?_ rfl rfl (by simp) rfl rfl rfl

theorem State.putOpen_keeps {b s : State} (h : Keeps b s) (o : Open) :
    Keeps b (State.putOpen s o) := by
  unfold State.putOpen
  try dsimp only
  repeat' first
    | with_reducible assumption
    | with_reducible apply Keeps.ite
    | (intro _; try dsimp only)
    | split
    | refine Keeps.upd ?_ rfl rfl (by simp) rfl rfl rfl

theorem State.noteWovf_keeps {b s : State} (h : Keeps b s) (t : Nat) (n : Nat) :
    Keeps b (State.noteWovf s t n) := by
  unfold State.noteWovf
  try dsimp only
  repeat' first
    | with_reducible assumption
    | with_reducible apply Keeps.ite
    | with_reducible apply State.setStat_keeps
    | (intro _; try dsimp only)
    | split
    | refine Keeps.upd ?_ rfl rfl (by simp) rfl rfl rfl

theorem State.accessAcc_keeps {b s : State} (h : Keeps b s) (r : Route) (o : Open) :
    Keeps b (State.accessAcc s r o) := by
  unfold State.accessAcc
  try dsimp only
  repeat' first
    | with_reducible assumption
    | with_reducible apply State.countEv_keeps
    | (intro _; try dsimp only)
    | split
    | refine Keeps.upd ?_ rfl rfl (by simp) rfl rfl rfl

theorem State.contribOver_keeps {b s : State} (h : Keeps b s) :
    Keeps b (State.contribOver s) := by
  unfold State.contribOver
  try dsimp only
  repeat' first
    | with_reducible assumption
    | with_reducible apply State.bump_keeps
    | with_reducible apply State.err_keeps

theorem State.setAdv_keeps {b s : State} (h : Keeps b s) (c : Nat) (r : Route) (i : Nat) (d : Nat) (w : Nat) :
    Keeps b (State.setAdv s c r i d w) := by
  unfold State.setAdv
  try dsimp only
  repeat' first
    | with_reducible assumption
    | (intro _; try dsimp only)
    | refine Keeps.upd ?_ rfl rfl (by simp) rfl rfl rfl

theorem State.creditTo_keeps {b s : State} (h : Keeps b s) (c : Nat) (r : Route) (i : Nat) :
    Keeps b (State.creditTo s c r i) := by
  unfold State.creditTo
  try dsimp only
  repeat' first
    | with_reducible assumption
    | with_reducible apply Keeps.ite
    | with_reducible apply State.nextSeq_keeps
    | with_reducible apply State.sendMsg_keeps
    | with_reducible apply State.setAdv_keeps
    | with_reducible apply State.putMsg_keeps
    | (intro _; try dsimp only)
    | split
    | refine Keeps.upd ?_ rfl rfl (by simp) rfl rfl rfl

theorem State.refresh_keeps {b s : State} (h : Keeps b s) (c : Nat) (r : Route) :
    Keeps b (State.refresh s c r) := by
  exact Keeps.foldl _ (fun _ _ k => Keeps.ite (State.creditTo_keeps k _ _ _) k) _ _ h

theorem State.stepCredits_keeps {b s : State} (h : Keeps b s) (c : Nat) :
    Keeps b (State.stepCredits s c) := by
  unfold State.stepCredits
  try dsimp only
  repeat' first
    | with_reducible assumption
    | with_reducible apply Keeps.foldl
    | with_reducible apply State.creditTo_keeps
    | (intro _; try dsimp only)

theorem State.trySend_keeps {b s : State} (h : Keeps b s) (c e n dst group : Nat) (mash : Bool)
    (own : Option (Nat × Int × Grist)) (g : Grist) {z : State} (hz : s.trySend c e n dst group mash own g = some z) :
    Keeps b z := by
  unfold State.trySend at hz
  dsimp only at hz
  split at hz
  · cases hz
  · split at hz
    · cases hz; exact State.sendKx1_keeps h _ _ _ _ _ _ _
    · split at hz
      · cases hz
      · cases hz; exact State.sendMsg_keeps (State.sealBlock_keeps h _ _) _ _ _ _ _ _ _

theorem State.markVerdict_keeps {b s : State} (h : Keeps b s) (c : Nat) :
    Keeps b (State.markVerdict s c) := by
  unfold State.markVerdict
  try dsimp only
  repeat' first
    | with_reducible assumption
    | with_reducible apply Keeps.ite
    | with_reducible apply State.phStart_keeps
    | split

theorem State.ownTaken_keeps {b s : State} (h : Keeps b s) (o : Own) :
    Keeps b (State.ownTaken s o) := by
  unfold State.ownTaken
  try dsimp only
  repeat' first
    | with_reducible assumption
    | (intro _; try dsimp only)
    | refine Keeps.upd ?_ rfl rfl (by simp) rfl rfl rfl

theorem State.addOwn_keeps {b s : State} (h : Keeps b s) (r : Route) (o : Own) :
    Keeps b (State.addOwn s r o) := by
  unfold State.addOwn
  try dsimp only
  repeat' first
    | with_reducible assumption
    | with_reducible apply Keeps.ite
    | with_reducible apply State.ownTaken_keeps
    | with_reducible apply State.uncounted_keeps
    | with_reducible apply State.carryFold_keeps
    | with_reducible apply State.contribOver_keeps
    | with_reducible apply State.putOpen_keeps
    | with_reducible apply State.noteWovf_keeps
    | with_reducible apply State.accessAcc_keeps
    | (intro _; try dsimp only)
    | split
    | refine Keeps.upd ?_ rfl rfl (by simp) rfl rfl rfl

theorem State.ansDup_keeps {b s : State} (h : Keeps b s) (r : Rx) (rfirst : Nat) (d : Nat) (w : Nat) :
    Keeps b (State.ansDup s r rfirst d w) := by
  unfold State.ansDup
  try dsimp only
  repeat' first
    | with_reducible assumption
    | with_reducible apply State.ack_keeps
    | with_reducible apply State.bump_keeps

theorem State.ansLate_keeps {b s : State} (h : Keeps b s) (r : Rx) (rfirst : Nat) (d : Nat) (w : Nat) :
    Keeps b (State.ansLate s r rfirst d w) := by
  unfold State.ansLate
  try dsimp only
  repeat' first
    | with_reducible assumption
    | with_reducible apply State.ack_keeps
    | with_reducible apply State.bump_keeps
    | with_reducible apply State.err_keeps

theorem State.digestBad_keeps {b s : State} (h : Keeps b s) (c : Nat) (billet : Nat) (src : Nat) :
    Keeps b (State.digestBad s c billet src) := by
  unfold State.digestBad
  try dsimp only
  repeat' first
    | with_reducible assumption
    | with_reducible apply Keeps.ite
    | with_reducible apply State.bump_keeps
    | with_reducible apply State.setGx_keeps
    | with_reducible apply State.setRegN_keeps
    | with_reducible apply State.err_keeps
    | (intro _; try dsimp only)
    | split
    | refine Keeps.upd ?_ rfl rfl (by simp) rfl rfl rfl

theorem State.taken_keeps {b s : State} (h : Keeps b s) (x : Rx) (r : Route) (i : Nat) (o : Open) :
    Keeps b (State.taken s x r i o) := by
  unfold State.taken
  try dsimp only
  repeat' first
    | with_reducible assumption
    | with_reducible apply State.putOpen_keeps
    | with_reducible apply State.ack_keeps
    | with_reducible apply State.setAdv_keeps
    | with_reducible apply State.refresh_keeps
    | (intro _; try dsimp only)
    | refine Keeps.upd ?_ rfl rfl (by simp) rfl rfl rfl

theorem State.operand_keeps {b s : State} (h : Keeps b s) (x : Rx) (r : Route) (i : Nat) (g : Grist) :
    Keeps b (State.operand s x r i g) := by
  unfold State.operand
  try dsimp only
  repeat' first
    | with_reducible assumption
    | with_reducible apply Keeps.ite
    | with_reducible apply State.countEv_keeps
    | with_reducible apply State.digestBad_keeps
    | with_reducible apply State.taken_keeps
    | with_reducible apply State.contribOver_keeps
    | with_reducible apply State.svFlag_keeps
    | with_reducible apply State.setGx_keeps
    | with_reducible apply State.noteWovf_keeps
    | with_reducible apply State.accessAcc_keeps
    | (intro _; try dsimp only)
    | split
    | refine Keeps.upd ?_ rfl rfl (by simp) rfl rfl rfl

theorem State.dataRx_keeps {b s0 : State} (h : Keeps b s0) (x : Rx) :
    Keeps b (State.dataRx s0 x) := by
  unfold State.dataRx
  try dsimp only
  repeat' first
    | with_reducible assumption
    | with_reducible apply Keeps.ite
    | with_reducible apply State.rxDrop_keeps
    | with_reducible apply State.bump_keeps
    | with_reducible apply State.setAdv_keeps
    | with_reducible apply State.ansLate_keeps
    | with_reducible apply State.ansDup_keeps
    | with_reducible apply State.integrity_keeps
    | with_reducible apply State.operand_keeps
    | (intro _; try dsimp only)
    | split
    | refine Keeps.upd ?_ rfl rfl (by simp) rfl rfl rfl

theorem dataMsg_keeps {b s : State} (h : Keeps b s) :
    Keeps b (dataMsg s) := by
  unfold dataMsg
  try dsimp only
  repeat' first
    | with_reducible assumption
    | with_reducible apply Keeps.ite
    | with_reducible apply State.dataRx_keeps
    | (intro _; try dsimp only)
    | split
    | refine Keeps.upd ?_ rfl rfl (by simp) rfl rfl rfl

theorem State.handOver_keeps {b s : State} (h : Keeps b s) (r : Route) (o : Open) :
    Keeps b (State.handOver s r o) := by
  unfold State.handOver
  try dsimp only
  repeat' first
    | with_reducible assumption
    | with_reducible apply Keeps.ite
    | with_reducible apply State.svFlag_keeps
    | with_reducible apply State.phEnd_keeps
    | (intro _; try dsimp only)
    | split
    | refine Keeps.upd ?_ rfl rfl (by simp) rfl rfl rfl

theorem State.replayEntries_keeps {b s : State} (h : Keeps b s) (r : Route) (o : Open) :
    Keeps b (State.replayEntries s r o) := by
  unfold State.replayEntries
  try dsimp only
  repeat' first
    | with_reducible assumption
    | with_reducible apply Keeps.ite
    | with_reducible apply Keeps.foldl
    | with_reducible apply State.addMan_keeps
    | (intro _; try dsimp only)
    | split
    | refine Keeps.upd ?_ rfl rfl (by simp) rfl rfl rfl

theorem State.startEmit_keeps {b s : State} (h : Keeps b s) (r : Route) (o : Open) :
    Keeps b (State.startEmit s r o) := by
  unfold State.startEmit
  try dsimp only
  repeat' first
    | with_reducible assumption
    | with_reducible apply Keeps.ite
    | with_reducible apply State.putOpen_keeps
    | with_reducible apply State.coolFull_keeps
    | with_reducible apply State.addCool_keeps
    | with_reducible apply State.handOver_keeps
    | with_reducible apply State.svFlag_keeps
    | with_reducible apply State.replayEntries_keeps
    | (intro _; try dsimp only)
    | split
    | refine Keeps.upd ?_ rfl rfl (by simp) rfl rfl rfl

theorem State.sendTodo_keeps {b s : State} (h : Keeps b s) (r : Route) (o : Open) (ns : List Nat) :
    Keeps b (s.sendTodo r o ns).1 := by
  induction ns generalizing s with
  | nil => exact h
  | cons n ns ih =>
    unfold State.sendTodo
    split
    · exact h
    · rename_i hz
      exact ih (State.countEv_keeps (State.phEnd_keeps (State.phStart_keeps (State.trySend_keeps h _ _ _ _ _ _ _ _ hz)
        _ _ _) _ _ _) _ _ _)

theorem State.endEmit_keeps {b s : State} (h : Keeps b s) (r : Route) (o : Open) :
    Keeps b (State.endEmit s r o) := by
  unfold State.endEmit
  try dsimp only
  repeat' first
    | with_reducible assumption
    | with_reducible apply State.refresh_keeps
    | with_reducible apply State.markVerdict_keeps
    | (intro _; try dsimp only)
    | refine Keeps.upd ?_ rfl rfl (by simp) rfl rfl rfl

theorem blockEmit_keeps {b0 s : State} (h : Keeps b0 s) (c : Nat) (b : Nat) (n : Nat) :
    Keeps b0 (blockEmit c b n s) := by
  unfold blockEmit
  try dsimp only
  repeat' first
    | with_reducible assumption
    | with_reducible apply Keeps.ite
    | with_reducible apply State.startEmit_keeps
    | with_reducible apply State.sendTodo_keeps
    | with_reducible apply State.endEmit_keeps
    | with_reducible apply State.putOpen_keeps
    | (intro _; try dsimp only)
    | split
    | refine Keeps.upd ?_ rfl rfl (by simp) rfl rfl rfl

theorem originBlockSend_keeps {b s : State} (h : Keeps b s) (c e : Nat) : Keeps b (originBlockSend c e s) := by
  unfold originBlockSend
  dsimp only
  refine Keeps.ite h ?_
  split
  · refine Keeps.ite (State.markVerdict_keeps (State.ownTaken_keeps h _) _) (Keeps.ite (Keeps.ite
      (State.markVerdict_keeps (State.foldOwn_keeps (State.uncounted_keeps (State.ownTaken_keeps h _) _ _ _) _ _ _ _ _ _ _) _)
      (Keeps.ite h ?_)) (State.markVerdict_keeps (State.addOwn_keeps h _ _) _))
    split
    · exact h
    · rename_i hz
      exact State.phEnd_keeps (State.phStart_keeps (State.ownTaken_keeps (State.trySend_keeps h _ _ _ _ _ _ _ _ hz) _) _ _ _)
        _ _ _
  · exact h

theorem State.releaseBlock_keeps {b s : State} (h : Keeps b s) (c : Nat) (r : Route) (n : Nat) :
    Keeps b (State.releaseBlock s c r n) := by
  unfold State.releaseBlock
  try dsimp only
  repeat' first
    | with_reducible assumption
    | with_reducible apply Keeps.ite
    | with_reducible apply Keeps.foldl
    | with_reducible apply State.addMan_keeps
    | with_reducible apply State.uncounted_keeps
    | with_reducible apply State.addCarried_keeps
    | with_reducible apply State.putOpen_keeps
    | (intro _; try dsimp only)
    | split
    | refine Keeps.upd ?_ rfl rfl (by simp) rfl rfl rfl

theorem release_keeps {b s : State} (h : Keeps b s) (c : Nat) :
    Keeps b (release c s) := by
  unfold release
  try dsimp only
  repeat' first
    | with_reducible assumption
    | with_reducible apply Keeps.ite
    | with_reducible apply Keeps.foldl
    | with_reducible apply State.releaseBlock_keeps
    | with_reducible apply State.setGx_keeps
    | with_reducible apply State.countEv_keeps
    | (intro _; try dsimp only)
    | split
    | refine Keeps.upd ?_ rfl rfl (by simp) rfl rfl rfl

theorem State.compareSigs_keeps {b0 s : State} (h : Keeps b0 s) (c : Nat) (b : Nat) :
    Keeps b0 (State.compareSigs s c b) := by
  unfold State.compareSigs
  try dsimp only
  repeat' first
    | with_reducible assumption
    | with_reducible apply Keeps.ite
    | with_reducible apply State.setGx_keeps
    | with_reducible apply State.guardSend_keeps
    | with_reducible apply State.err_keeps
    | (intro _; try dsimp only)
    | split
    | refine Keeps.upd ?_ rfl rfl (by simp) rfl rfl rfl

theorem State.signBillet_keeps {b0 s : State} (h : Keeps b0 s) (c : Nat) (b : Nat) :
    Keeps b0 (State.signBillet s c b) := by
  unfold State.signBillet
  try dsimp only
  repeat' first
    | with_reducible assumption
    | with_reducible apply Keeps.ite
    | with_reducible apply State.setGx_keeps
    | with_reducible apply State.guardSend_keeps
    | with_reducible apply State.compareSigs_keeps
    | (intro _; try dsimp only)
    | split
    | refine Keeps.upd ?_ rfl rfl (by simp) rfl rfl rfl

theorem State.hashHand_keeps {b s : State} (hk : Keeps b s) (h : Hand) :
    Keeps b (State.hashHand s h) := by
  unfold State.hashHand
  try dsimp only
  repeat' first
    | with_reducible assumption
    | with_reducible apply Keeps.ite
    | with_reducible apply State.setGx_keeps
    | with_reducible apply State.ctxWrite_keeps
    | with_reducible apply State.signBillet_keeps
    | (intro _; try dsimp only)
    | split
    | refine Keeps.upd ?_ rfl rfl (by simp) rfl rfl rfl

theorem State.countBank_keeps {b s : State} (h : Keeps b s) (u : Nat) (step : Nat) (n : Nat) :
    Keeps b (State.countBank s u step n) := by
  unfold State.countBank
  try dsimp only
  repeat' first
    | with_reducible assumption
    | (intro _; try dsimp only)
    | refine Keeps.upd ?_ rfl rfl (by simp) rfl rfl rfl

theorem State.toBank_keeps {b s : State} (hk : Keeps b s) (h : Hand) (gs : List Nat) (u : Nat) :
    Keeps b (State.toBank s h gs u) := by
  unfold State.toBank
  try dsimp only
  repeat' first
    | with_reducible assumption
    | with_reducible apply Keeps.ite
    | with_reducible apply State.ctxWrite_keeps
    | with_reducible apply State.countBank_keeps
    | (intro _; try dsimp only)
    | split

theorem ownerFront_keeps {b s : State} (h : Keeps b s) :
    Keeps b (ownerFront s) := by
  unfold ownerFront
  try dsimp only
  repeat' first
    | with_reducible assumption
    | with_reducible apply Keeps.ite
    | with_reducible apply Keeps.foldl
    | with_reducible apply State.svFlag_keeps
    | with_reducible apply State.bumpWide_keeps
    | with_reducible apply State.toBank_keeps
    | with_reducible apply State.hashHand_keeps
    | with_reducible apply State.markVerdict_keeps
    | with_reducible apply State.touch_keeps
    | (intro _; try dsimp only)
    | split
    | refine Keeps.upd ?_ rfl rfl (by simp) rfl rfl rfl

end Sys2Proof.Machine
end

