-- ==== Sys2Proof/Laws/KeepsJob.lean ====
section
/-! SUPPORT. What Anvil, the update engine, and the job keep of a state (Laws/Keeps): one lemma for each operation. -/
namespace Sys2Proof.Machine
open Sys2Proof

theorem vopWork_keeps {b s : State} (h : Keeps b s) (d : Nat) :
    Keeps b (vopWork d s).st := by
  unfold vopWork
  try dsimp only
  repeat' first
    | with_reducible assumption
    | with_reducible apply Keeps.ite
    | (intro _; try dsimp only)
    | split

theorem vredWork_keeps {b s : State} (h : Keeps b s) (d : Nat) :
    Keeps b (vredWork d s).st := by
  unfold vredWork
  try dsimp only
  repeat' first
    | with_reducible assumption
    | with_reducible apply Keeps.ite
    | with_reducible apply State.bump_keeps
    | with_reducible apply State.err_keeps
    | (intro _; try dsimp only)
    | split

theorem State.setStrip_keeps {b s : State} (h : Keeps b s) (t : Nat) (xs : List Nat) :
    Keeps b (State.setStrip s t xs) := by
  unfold State.setStrip
  try dsimp only
  repeat' first
    | with_reducible assumption
    | refine Keeps.upd ?_ rfl rfl (by simp) rfl rfl rfl

theorem tloadWork_keeps {b s : State} (h : Keeps b s) (d : Nat) :
    Keeps b (tloadWork d s).st := by
  unfold tloadWork
  try dsimp only
  repeat' first
    | with_reducible assumption
    | with_reducible apply Keeps.ite
    | with_reducible apply State.setStrip_keeps
    | split

theorem tstoreWork_keeps {b s : State} (h : Keeps b s) (d : Nat) :
    Keeps b (tstoreWork d s).st := by
  unfold tstoreWork
  try dsimp only
  repeat' first
    | with_reducible assumption
    | with_reducible apply Keeps.ite
    | (intro _; try dsimp only)
    | split

theorem tbcastWork_keeps {b s : State} (h : Keeps b s) (d : Nat) :
    Keeps b (tbcastWork d s).st := by
  unfold tbcastWork
  try dsimp only
  repeat' first
    | with_reducible assumption
    | with_reducible apply Keeps.ite
    | with_reducible apply State.setStrip_keeps
    | (intro _; try dsimp only)
    | split

theorem mmtLoop_keeps {b : State} (x : Mmt) (l : List Nat) : ∀ {s : State} (k : Work),
    Keeps b s → Keeps b (mmtLoop x l s k).st := by
  induction l with
  | nil => intro s k h; exact h
  | cons i l ih =>
    intro s k h
    exact ih _ (Keeps.foldl _ (fun _ _ k => State.poke_keeps k _ _) _ _ (State.setStrip_keeps h _ _))

theorem mmtWork_keeps {b s : State} (h : Keeps b s) (d : Nat) :
    Keeps b (mmtWork d s).st := by
  have h1 := mmtLoop_keeps (b := s) (mmtOf d) (List.range (cdiv (mmtOf d).m 256)) ⟨[], s, false, false, 0, []⟩ (Keeps.refl s)
  exact h.trans ⟨⟨h1.pending, id, h1.fresh, h1.out⟩, h1.ktime, h1.keys⟩

theorem State.setRegion_keeps {b s : State} (h : Keeps b s) (u : Nat) (r : Region) :
    Keeps b (State.setRegion s u r) := by
  unfold State.setRegion
  try dsimp only
  repeat' first
    | with_reducible assumption
    | with_reducible apply State.setUw_keeps
    | (intro _; try dsimp only)
    | refine Keeps.upd ?_ rfl rfl (by simp) rfl rfl rfl

theorem State.svFlagAt_keeps {b s : State} (h : Keeps b s) (t : Nat) (step : Nat) (bits : Nat) :
    Keeps b (State.svFlagAt s t step bits) := by
  unfold State.svFlagAt
  try dsimp only
  repeat' first
    | with_reducible assumption
    | with_reducible apply Keeps.ite
    | with_reducible apply State.svFlag_keeps
    | (intro _; try dsimp only)
    | split
    | refine Keeps.upd ?_ rfl rfl (by simp) rfl rfl rfl

theorem State.afterApply_keeps {b s : State} (h : Keeps b s) (c : Nat) (u : Nat) (step : Nat) (r : Upded) (clamped : Nat) (sat : Bool) :
    Keeps b (State.afterApply s c u step r clamped sat) := by
  unfold State.afterApply
  try dsimp only
  repeat' first
    | with_reducible assumption
    | with_reducible apply Keeps.ite
    | with_reducible apply State.setU64_keeps
    | with_reducible apply State.setUw_keeps
    | with_reducible apply State.bump_keeps
    | with_reducible apply State.countEv_keeps
    | with_reducible apply State.svFlagAt_keeps
    | (intro _; try dsimp only)
    | split
    | refine Keeps.upd ?_ rfl rfl (by simp) rfl rfl rfl

theorem applyWork_keeps {b s : State} (h : Keeps b s) (c : Nat) (d : Nat) :
    Keeps b (applyWork c d s).st := by
  unfold applyWork
  try dsimp only
  repeat' first
    | with_reducible assumption
    | with_reducible apply Keeps.ite
    | with_reducible apply State.countEv_keeps
    | with_reducible apply State.afterApply_keeps
    | with_reducible apply State.svFlagAt_keeps
    | (intro _; try dsimp only)
    | split

theorem publish_keeps {b s : State} (h : Keeps b s) (c : Nat) :
    Keeps b (publish c s) := by
  unfold publish
  try dsimp only
  repeat' first
    | with_reducible assumption
    | with_reducible apply Keeps.ite
    | with_reducible apply State.runCtl_keeps
    | with_reducible apply State.latch_keeps
    | with_reducible apply State.busWrite_keeps
    | with_reducible apply State.endDesc_keeps
    | (intro _; try dsimp only)
    | split
    | refine Keeps.upd ?_ rfl rfl (by simp) rfl rfl rfl

theorem kDeltaWork_keeps {b s : State} (h : Keeps b s) (d : Nat) :
    Keeps b (kDeltaWork d s).st := by
  unfold kDeltaWork
  try dsimp only
  repeat' first
    | with_reducible assumption
    | with_reducible apply State.setRegion_keeps
    | with_reducible apply State.countEv_keeps
    | with_reducible apply Keeps.foldl
    | (intro _; try dsimp only)

theorem caskOutWork_keeps {b s : State} (h : Keeps b s) (d : Nat) :
    Keeps b (caskOutWork d s).st := by
  unfold caskOutWork
  try dsimp only
  repeat' first
    | with_reducible assumption

theorem caskInWork_keeps {b s : State} (h : Keeps b s) (d : Nat) :
    Keeps b (caskInWork d s).st := by
  unfold caskInWork
  try dsimp only
  repeat' first
    | with_reducible assumption
    | with_reducible apply Keeps.ite
    | with_reducible apply State.setU64_keeps
    | with_reducible apply State.setRegion_keeps
    | (intro _; try dsimp only)
    | split
    | refine Keeps.upd ?_ rfl rfl (by simp) rfl rfl rfl

theorem State.guardPart_keeps {b s : State} (h : Keeps b s) (r : Rx) :
    Keeps b (State.guardPart s r).2 := by
  unfold State.guardPart
  try dsimp only
  repeat' first
    | with_reducible assumption
    | with_reducible apply Keeps.iteSnd
    | with_reducible apply Keeps.ite
    | (intro _; try dsimp only)
    | split
    | refine Keeps.upd ?_ rfl rfl (by simp) rfl rfl rfl

theorem State.guardRx_keeps {b s : State} (h : Keeps b s) (gop : Nat) (had : Rx → Bool) (act : Rx → Bytes → State → State)
    (ha : ∀ r bs t, Keeps b t → Keeps b (act r bs t)) : Keeps b (s.guardRx gop had act) := by
  unfold State.guardRx
  split
  · exact h
  · rename_i r _
    have h1 := State.rxDrop_keeps h r
    refine Keeps.ite (State.bump_keeps h1 _ _) (Keeps.ite (State.ack_keeps h1 _ _ _ _ _ _)
      (Keeps.ite (State.ansDup_keeps h1 _ _ _ _) ?_))
    have h2 := State.guardPart_keeps (State.ack_keeps h1 r 0 0 0 false false) r
    dsimp only
    split
    · exact ha _ _ _ h2
    · exact h2

theorem State.fence_keeps {b s : State} (h : Keeps b s) :
    Keeps b (State.fence s) := by
  unfold State.fence
  try dsimp only
  repeat' first
    | with_reducible assumption
    | with_reducible apply Keeps.ite
    | with_reducible apply Keeps.foldl
    | with_reducible apply State.yieldEv_keeps
    | with_reducible apply State.faultCtx_keeps
    | with_reducible apply State.err_keeps
    | (intro _; try dsimp only)
    | split
    | refine Keeps.upd ?_ rfl rfl (by simp) rfl rfl rfl

theorem State.setOwnInc_keeps {b s : State} (h : Keeps b s) (inc : Nat) :
    Keeps b (State.setOwnInc s inc) := by
  unfold State.setOwnInc
  try dsimp only
  repeat' first
    | with_reducible assumption
    | with_reducible apply Keeps.foldl
    | with_reducible apply State.setRegN_keeps
    | (intro _; try dsimp only)
    | refine Keeps.upd ?_ rfl rfl (by simp) rfl rfl rfl

theorem State.freshWatch_keeps {b s : State} (h : Keeps b s) (n : Nat) :
    Keeps b (State.freshWatch s n) := by
  unfold State.freshWatch
  exact Keeps.foldl _ (fun s i h => Keeps.ite (Keeps.upd h rfl rfl (Nat.le_refl _) rfl rfl rfl) h) _ _ h

theorem State.setInc_keeps {b s : State} (h : Keeps b s) (n : Nat) (inc : Nat) :
    Keeps b (State.setInc s n inc) := by
  unfold State.setInc
  try dsimp only
  repeat' first
    | with_reducible assumption
    | with_reducible apply Keeps.ite
    | with_reducible apply State.setOwnInc_keeps
    | with_reducible apply State.fence_keeps
    | with_reducible apply State.freshWatch_keeps
    | (intro _; try dsimp only)
    | split
    | refine Keeps.upd ?_ rfl rfl (by simp) rfl rfl rfl

theorem State.setIncs_keeps {b s : State} (h : Keeps b s) (es : List Nat) :
    Keeps b (State.setIncs s es) := by
  unfold State.setIncs
  try dsimp only
  repeat' first
    | with_reducible assumption
    | with_reducible apply Keeps.foldl
    | with_reducible apply State.setInc_keeps
    | (intro _; try dsimp only)

theorem State.rlog_keeps {b s : State} (h : Keeps b s) (step : Nat) (c : Nat) (failed : Nat) (spare : Nat) (inc : Nat) :
    Keeps b (State.rlog s step c failed spare inc) := by
  unfold State.rlog
  try dsimp only
  repeat' first
    | with_reducible assumption
    | with_reducible apply Keeps.ite
    | with_reducible apply State.ctxWrite_keeps
    | with_reducible apply State.setRegN_keeps
    | (intro _; try dsimp only)
    | split

theorem State.shardCheck_keeps {b s : State} (h : Keeps b s) :
    Keeps b (State.shardCheck s) := by
  unfold State.shardCheck
  try dsimp only
  repeat' first
    | with_reducible assumption
    | with_reducible apply Keeps.ite
    | with_reducible apply State.err_keeps
    | (intro _; try dsimp only)
    | split
    | refine Keeps.upd ?_ rfl rfl (by simp) rfl rfl rfl

theorem State.adoptHere_keeps {b s : State} (h : Keeps b s) (id : Nat) (inc : Nat) :
    Keeps b (State.adoptHere s id inc) := by
  unfold State.adoptHere
  try dsimp only
  repeat' first
    | with_reducible assumption
    | with_reducible apply Keeps.foldl
    | with_reducible apply State.setRegN_keeps
    | with_reducible apply State.setOwnInc_keeps
    | with_reducible apply State.emit_keeps
    | with_reducible apply State.err_keeps
    | (intro _; try dsimp only)
    | refine Keeps.upd ?_ rfl rfl (by simp) rfl rfl rfl

theorem State.takeAdopt_keeps {b s : State} (h : Keeps b s) (id : Nat) (inc : Nat) :
    Keeps b (State.takeAdopt s id inc) := by
  unfold State.takeAdopt
  try dsimp only
  repeat' first
    | with_reducible assumption
    | with_reducible apply Keeps.ite
    | with_reducible apply State.adoptHere_keeps
    | split
    | refine Keeps.upd ?_ rfl rfl (by simp) rfl rfl rfl

theorem State.reloaded_keeps {b s : State} (h : Keeps b s) (c : Nat) :
    Keeps b (State.reloaded s c) := by
  unfold State.reloaded
  try dsimp only
  repeat' first
    | with_reducible assumption
    | with_reducible apply Keeps.ite
    | with_reducible apply State.adoptHere_keeps
    | (intro _; try dsimp only)
    | split
    | refine Keeps.upd ?_ rfl rfl (by simp) rfl rfl rfl

theorem State.adoptOne_keeps {b s : State} (h : Keeps b s) (c : Nat) (x : Nat) :
    Keeps b (State.adoptOne s c x) := by
  unfold State.adoptOne
  try dsimp only
  repeat' first
    | with_reducible assumption
    | with_reducible apply Keeps.ite
    | with_reducible apply Keeps.foldl
    | with_reducible apply State.err_keeps
    | with_reducible apply State.guardSend_keeps
    | with_reducible apply State.takeAdopt_keeps
    | (intro _; try dsimp only)
    | split
    | refine Keeps.upd ?_ rfl rfl (by simp) rfl rfl rfl

theorem State.chooseSpares_keeps {b s : State} (h : Keeps b s) :
    Keeps b (State.chooseSpares s) := by
  unfold State.chooseSpares
  try dsimp only
  repeat' first
    | with_reducible assumption
    | with_reducible apply Keeps.foldl
    | with_reducible apply State.shardCheck_keeps
    | with_reducible apply State.adoptOne_keeps
    | (intro _; try dsimp only)
    | split
    | refine Keeps.upd ?_ rfl rfl (by simp) rfl rfl rfl

theorem State.zeroCtx_keeps {b s : State} (h : Keeps b s) (c : Nat) :
    Keeps b (State.zeroCtx s c) := by
  unfold State.zeroCtx
  try dsimp only
  repeat' first
    | with_reducible assumption
    | with_reducible apply Keeps.foldl
    | with_reducible apply State.zeroResiduals_keeps
    | (intro _; try dsimp only)

theorem State.unpark_keeps {b s : State} (h : Keeps b s) (c : Nat) :
    Keeps b (State.unpark s c) := by
  unfold State.unpark
  try dsimp only
  repeat' first
    | with_reducible assumption
    | with_reducible apply Keeps.ite
    | with_reducible apply State.setCState_keeps
    | split

theorem State.logAdopted_keeps {b s : State} (h : Keeps b s) (c : Nat) (step : Nat) (e : Nat) :
    Keeps b (State.logAdopted s c step e) := by
  unfold State.logAdopted
  try dsimp only
  repeat' first
    | with_reducible assumption
    | with_reducible apply Keeps.ite
    | with_reducible apply State.rlog_keeps
    | (intro _; try dsimp only)
    | split
    | refine Keeps.upd ?_ rfl rfl (by simp) rfl rfl rfl

theorem State.applyResume_keeps {b s : State} (h : Keeps b s) (c : Nat) (o : ParkOp) :
    Keeps b (State.applyResume s c o) := by
  unfold State.applyResume
  dsimp only
  have h1 : Keeps b ((if (s.atRoot c || s.atStandby c) = true then
      o.incs.foldl (fun s e => s.logAdopted c (o.step - 1) e) s else s).setIncs o.incs) :=
    State.setIncs_keeps (Keeps.ite (Keeps.foldl _ (fun s e h => State.logAdopted_keeps h _ _ _) _ _ h) h) _
  apply State.unpark_keeps
  have h2 := fun p : Prop => fun d : Decidable p =>
    @Keeps.ite _ _ _ p d (State.yieldEv_keeps (State.err_keeps h1 0xE01000 10) c 5 2) h1
  refine Keeps.ite (Keeps.upd (State.setGx_keeps (h2 _ _) _ _) rfl rfl (Nat.le_refl _) rfl rfl rfl)
    (State.setGx_keeps (h2 _ _) _ _)

theorem State.applyOps_keeps {b s : State} (h : Keeps b s) (c n : Nat) : Keeps b (s.applyOps c n) := by
  induction n generalizing s with
  | zero => exact h
  | succ n ih =>
    unfold State.applyOps
    dsimp only
    split
    · exact h
    · exact Keeps.ite (ih (State.applyResume_keeps (State.setGx_keeps h _ _) _ _))
        (ih (State.parkCheck_keeps (State.setGx_keeps (State.setGx_keeps h _ _) _ _) _))

theorem State.addOp_keeps {b s : State} (h : Keeps b s) (c : Nat) (o : ParkOp) :
    Keeps b (State.addOp s c o) := by
  unfold State.addOp
  try dsimp only
  repeat' first
    | with_reducible assumption
    | with_reducible apply State.setGx_keeps
    | with_reducible apply State.applyOps_keeps
    | (intro _; try dsimp only)
    | refine Keeps.upd ?_ rfl rfl (by simp) rfl rfl rfl

theorem State.resumeTo_keeps {b s : State} (h : Keeps b s) (c : Nat) (to_ : List Nat) (o : ParkOp) :
    Keeps b (State.resumeTo s c to_ o) := by
  unfold State.resumeTo
  try dsimp only
  repeat' first
    | with_reducible assumption
    | with_reducible apply Keeps.foldl
    | with_reducible apply State.guardSend_keeps
    | (intro _; try dsimp only)

theorem State.rootResume_keeps {b s : State} (h : Keeps b s) (c : Nat) (launch : Nat) (incs : List Nat) :
    Keeps b (State.rootResume s c launch incs) := by
  unfold State.rootResume
  try dsimp only
  repeat' first
    | with_reducible assumption
    | with_reducible apply Keeps.ite
    | with_reducible apply State.setGx_keeps
    | with_reducible apply State.resumeTo_keeps
    | with_reducible apply State.addOp_keeps
    | (intro _; try dsimp only)
    | split
    | refine Keeps.upd ?_ rfl rfl (by simp) rfl rfl rfl

theorem resume_keeps {b s : State} (h : Keeps b s) :
    Keeps b (resume s) := by
  unfold resume
  try dsimp only
  repeat' first
    | with_reducible assumption
    | with_reducible apply State.guardRx_keeps
    | with_reducible apply State.resumeTo_keeps
    | with_reducible apply State.addOp_keeps
    | (intro _; try dsimp only)
    | refine Keeps.upd ?_ rfl rfl (by simp) rfl rfl rfl

theorem State.vdTo_keeps {b s : State} (h : Keeps b s) (c : Nat) (to_ : List Nat) (v : Vd) :
    Keeps b (State.vdTo s c to_ v) := by
  unfold State.vdTo
  try dsimp only
  repeat' first
    | with_reducible assumption
    | with_reducible apply Keeps.foldl
    | with_reducible apply State.guardSend_keeps
    | (intro _; try dsimp only)

theorem State.mergeChild_keeps {b s : State} (h : Keeps b s) (c : Nat) (m : Vup) (n : Nat) :
    Keeps b (State.mergeChild s c m n).1 := by
  unfold State.mergeChild
  try dsimp only
  repeat' first
    | with_reducible assumption
    | with_reducible apply Keeps.iteFst
    | with_reducible apply Keeps.ite
    | with_reducible apply State.digestBad_keeps
    | (intro _; try dsimp only)
    | split
    | refine Keeps.upd ?_ rfl rfl (by simp) rfl rfl rfl

theorem foldl_mergeChild_keeps {b : State} (c : Nat) (ns : List Nat) :
    ∀ p : State × Vup, Keeps b p.1 → Keeps b (ns.foldl (fun p n => p.1.mergeChild c p.2 n) p).1 := by
  induction ns with
  | nil => intro p h; exact h
  | cons n ns ih => intro p h; exact ih _ (State.mergeChild_keeps h _ _ _)
theorem State.merged_keeps {b s : State} (h : Keeps b s) (c : Nat) : Keeps b (s.merged c).1 :=
  foldl_mergeChild_keeps c _ _ h

theorem State.writeMan_keeps {b s : State} (h : Keeps b s) (c : Nat) (v : Vd) :
    Keeps b (State.writeMan s c v) := by
  unfold State.writeMan
  try dsimp only
  repeat' first
    | with_reducible assumption
    | with_reducible apply Keeps.ite
    | with_reducible apply State.ctxWrite_keeps
    | with_reducible apply State.setGx_keeps
    | (intro _; try dsimp only)
    | split
    | refine Keeps.upd ?_ rfl rfl (by simp) rfl rfl rfl

theorem State.resyncTry_keeps {b s : State} (h : Keeps b s) (c : Nat) :
    Keeps b (State.resyncTry s c) := by
  unfold State.resyncTry
  try dsimp only
  repeat' first
    | with_reducible assumption
    | with_reducible apply Keeps.ite
    | with_reducible apply State.runBoundary_keeps
    | with_reducible apply State.setGx_keeps
    | with_reducible apply State.guardSend_keeps
    | (intro _; try dsimp only)
    | split
    | refine Keeps.upd ?_ rfl rfl (by simp) rfl rfl rfl

theorem State.closeStep_keeps {b s : State} (h : Keeps b s) (c : Nat) (v : Vd) :
    Keeps b (State.closeStep s c v) := by
  unfold State.closeStep
  try dsimp only
  repeat' first
    | with_reducible assumption
    | with_reducible apply Keeps.ite
    | with_reducible apply Keeps.foldl
    | with_reducible apply State.addClose_keeps
    | with_reducible apply State.cancelStep_keeps
    | with_reducible apply State.setPhase_keeps
    | with_reducible apply State.forgetOwn_keeps
    | with_reducible apply State.zeroCtx_keeps
    | with_reducible apply State.zeroResiduals_keeps
    | (intro _; try dsimp only)
    | split
    | refine Keeps.upd ?_ rfl rfl (by simp) rfl rfl rfl

theorem State.rootRecords_keeps {b s : State} (h : Keeps b s) (c : Nat) (v : Vd) :
    Keeps b (State.rootRecords s c v) := by
  unfold State.rootRecords
  try dsimp only
  repeat' first
    | with_reducible assumption
    | with_reducible apply Keeps.ite
    | with_reducible apply State.writeMan_keeps
    | with_reducible apply State.rlog_keeps
    | (intro _; try dsimp only)
    | split

theorem State.verdictYields_keeps {b s : State} (h : Keeps b s) (c : Nat) (v : Vd) :
    Keeps b (State.verdictYields s c v) := by
  unfold State.verdictYields
  try dsimp only
  repeat' first
    | with_reducible assumption
    | with_reducible apply Keeps.ite
    | with_reducible apply State.faultCtx_keeps
    | with_reducible apply State.yieldEv_keeps
    | with_reducible apply State.err_keeps
    | (intro _; try dsimp only)
    | split
    | refine Keeps.upd ?_ rfl rfl (by simp) rfl rfl rfl

theorem State.verdictEnd_keeps {b s : State} (h : Keeps b s) (c : Nat) (v : Vd) :
    Keeps b (State.verdictEnd s c v) := by
  unfold State.verdictEnd
  try dsimp only
  repeat' first
    | with_reducible assumption
    | with_reducible apply Keeps.ite
    | with_reducible apply State.setGx_keeps
    | with_reducible apply State.coolFull_keeps
    | with_reducible apply State.closeStep_keeps
    | with_reducible apply State.rootRecords_keeps
    | with_reducible apply State.verdictYields_keeps
    | with_reducible apply State.addOp_keeps
    | with_reducible apply State.resyncTry_keeps
    | with_reducible apply State.chooseSpares_keeps
    | with_reducible apply State.touch_keeps
    | (intro _; try dsimp only)
    | split
    | refine Keeps.upd ?_ rfl rfl (by simp) rfl rfl rfl

theorem State.dropPart_keeps {b s : State} (h : Keeps b s) (c : Nat) (step : Nat) :
    Keeps b (State.dropPart s c step) := by
  unfold State.dropPart
  try dsimp only
  repeat' first
    | with_reducible assumption
    | with_reducible apply State.cancelStep_keeps
    | (intro _; try dsimp only)
    | refine Keeps.upd ?_ rfl rfl (by simp) rfl rfl rfl

theorem State.holdVd_keeps {b s : State} (h : Keeps b s) (c : Nat) (v : Vd) :
    Keeps b (State.holdVd s c v) := by
  unfold State.holdVd
  try dsimp only
  repeat' first
    | with_reducible assumption
    | with_reducible apply Keeps.ite
    | with_reducible apply State.setGx_keeps
    | with_reducible apply State.countEv_keeps
    | with_reducible apply State.setIncs_keeps
    | with_reducible apply State.dropPart_keeps
    | with_reducible apply State.verdictEnd_keeps
    | (intro _; try dsimp only)
    | split
    | refine Keeps.upd ?_ rfl rfl (by simp) rfl rfl rfl

theorem State.rootVd_keeps {b s : State} (h : Keeps b s) (c : Nat) (m : Option Vup) :
    Keeps b (State.rootVd s c m).1 := by
  unfold State.rootVd
  try dsimp only
  repeat' first
    | with_reducible assumption
    | with_reducible apply Keeps.iteFst
    | with_reducible apply Keeps.ite
    | with_reducible apply State.runBoundary_keeps
    | with_reducible apply State.err_keeps
    | with_reducible apply State.setGx_keeps
    | with_reducible apply State.setRegN_keeps
    | (intro _; try dsimp only)
    | split
    | refine Keeps.upd ?_ rfl rfl (by simp) rfl rfl rfl

theorem State.rootRelease_keeps {b s : State} (h : Keeps b s) (c : Nat) (v : Vd) :
    Keeps b (State.rootRelease s c v) := by
  unfold State.rootRelease
  try dsimp only
  repeat' first
    | with_reducible assumption
    | with_reducible apply State.vdTo_keeps
    | with_reducible apply State.holdVd_keeps

theorem State.rootDecide_keeps {b s : State} (h : Keeps b s) (c : Nat) (m : Option Vup) :
    Keeps b (State.rootDecide s c m) := by
  unfold State.rootDecide
  try dsimp only
  repeat' first
    | with_reducible assumption
    | with_reducible apply Keeps.ite
    | with_reducible apply State.rootVd_keeps
    | with_reducible apply State.rootRelease_keeps
    | with_reducible apply State.setGx_keeps
    | with_reducible apply State.vdTo_keeps
    | (intro _; try dsimp only)
    | split
    | refine Keeps.upd ?_ rfl rfl (by simp) rfl rfl rfl

theorem State.takeover_keeps {b s : State} (h : Keeps b s) (c : Nat) :
    Keeps b (State.takeover s c) := by
  unfold State.takeover
  try dsimp only
  repeat' first
    | with_reducible assumption
    | with_reducible apply Keeps.ite
    | with_reducible apply State.vdTo_keeps
    | with_reducible apply State.holdVd_keeps
    | (intro _; try dsimp only)
    | split
    | refine Keeps.upd ?_ rfl rfl (by simp) rfl rfl rfl

theorem State.onFailure_keeps {b s : State} (h : Keeps b s) (c : Nat) :
    Keeps b (State.onFailure s c) := by
  unfold State.onFailure
  try dsimp only
  repeat' first
    | with_reducible assumption
    | with_reducible apply Keeps.ite
    | with_reducible apply State.rootRelease_keeps
    | with_reducible apply State.rootDecide_keeps
    | with_reducible apply State.takeover_keeps
    | with_reducible apply State.err_keeps
    | (intro _; try dsimp only)
    | split
    | refine Keeps.upd ?_ rfl rfl (by simp) rfl rfl rfl

theorem State.guardOpen_keeps {b s : State} (h : Keeps b s) (c : Nat) :
    Keeps b (State.guardOpen s c) := by
  unfold State.guardOpen
  try dsimp only
  repeat' first
    | with_reducible assumption
    | with_reducible apply Keeps.ite
    | with_reducible apply State.holdVd_keeps
    | with_reducible apply State.onFailure_keeps
    | split
    | refine Keeps.upd ?_ rfl rfl (by simp) rfl rfl rfl

theorem vupSend_keeps {b s : State} (h : Keeps b s) (c : Nat) :
    Keeps b (vupSend c s) := by
  unfold vupSend
  try dsimp only
  repeat' first
    | with_reducible assumption
    | with_reducible apply Keeps.ite
    | with_reducible apply ready_keeps
    | with_reducible apply State.faultCtx_keeps
    | with_reducible apply State.markVerdict_keeps
    | with_reducible apply State.merged_keeps
    | with_reducible apply State.setGx_keeps
    | with_reducible apply State.rootDecide_keeps
    | with_reducible apply State.guardSend_keeps
    | (intro _; try dsimp only)
    | split
    | refine Keeps.upd ?_ rfl rfl (by simp) rfl rfl rfl

theorem vup_keeps {b s : State} (h : Keeps b s) :
    Keeps b (vup s) := by
  unfold vup
  try dsimp only
  repeat' first
    | with_reducible assumption
    | with_reducible apply Keeps.ite
    | with_reducible apply State.guardRx_keeps
    | with_reducible apply State.setGx_keeps
    | (intro _; try dsimp only)
    | split
    | refine Keeps.upd ?_ rfl rfl (by simp) rfl rfl rfl

theorem State.takeVd_keeps {b s : State} (h : Keeps b s) (c : Nat) (v : Vd) :
    Keeps b (State.takeVd s c v) := by
  unfold State.takeVd
  try dsimp only
  repeat' first
    | with_reducible assumption
    | with_reducible apply Keeps.ite
    | with_reducible apply State.vdTo_keeps
    | with_reducible apply State.holdVd_keeps
    | with_reducible apply State.setGx_keeps
    | (intro _; try dsimp only)
    | split
    | refine Keeps.upd ?_ rfl rfl (by simp) rfl rfl rfl

theorem vdown_keeps {b s : State} (h : Keeps b s) :
    Keeps b (vdown s) := by
  unfold vdown
  try dsimp only
  repeat' first
    | with_reducible assumption
    | with_reducible apply State.guardRx_keeps
    | with_reducible apply State.takeVd_keeps
    | (intro _; try dsimp only)
    | split
    | refine Keeps.upd ?_ rfl rfl (by simp) rfl rfl rfl

theorem vwaitExpiry_keeps {b s : State} (h : Keeps b s) (c : Nat) :
    Keeps b (vwaitExpiry c s) := by
  unfold vwaitExpiry
  try dsimp only
  repeat' first
    | with_reducible assumption
    | with_reducible apply Keeps.ite
    | with_reducible apply State.setGx_keeps
    | with_reducible apply State.err_keeps
    | with_reducible apply State.yieldEv_keeps
    | with_reducible apply State.countEv_keeps
    | with_reducible apply State.guardSend_keeps
    | (intro _; try dsimp only)
    | split
    | refine Keeps.upd ?_ rfl rfl (by simp) rfl rfl rfl

theorem vquery_keeps {b s : State} (h : Keeps b s) :
    Keeps b (vquery s) := by
  unfold vquery
  try dsimp only
  repeat' first
    | with_reducible assumption
    | with_reducible apply Keeps.ite
    | with_reducible apply State.guardRx_keeps
    | with_reducible apply State.takeover_keeps
    | with_reducible apply State.vdTo_keeps
    | (intro _; try dsimp only)
    | split
    | refine Keeps.upd ?_ rfl rfl (by simp) rfl rfl rfl

theorem State.guardAcked_keeps {b s : State} (h : Keeps b s) (k : MKey) :
    Keeps b (State.guardAcked s k) := by
  unfold State.guardAcked
  try dsimp only
  repeat' first
    | with_reducible assumption
    | with_reducible apply Keeps.ite
    | with_reducible apply State.rootRelease_keeps
    | with_reducible apply State.setGx_keeps
    | (intro _; try dsimp only)
    | split
    | refine Keeps.upd ?_ rfl rfl (by simp) rfl rfl rfl

theorem State.guardUnknown_keeps {b s : State} (h : Keeps b s) (m : Msg) :
    Keeps b (State.guardUnknown s m) := by
  unfold State.guardUnknown
  try dsimp only
  repeat' first
    | with_reducible assumption
    | with_reducible apply Keeps.ite
    | with_reducible apply State.sendMsg_keeps
    | with_reducible apply State.charge_keeps
    | with_reducible apply State.setGx_keeps
    | (intro _; try dsimp only)
    | split
    | refine Keeps.upd ?_ rfl rfl (by simp) rfl rfl rfl

theorem locksig_keeps {b s : State} (h : Keeps b s) :
    Keeps b (locksig s) := by
  unfold locksig
  try dsimp only
  repeat' first
    | with_reducible assumption
    | with_reducible apply Keeps.ite
    | with_reducible apply State.guardRx_keeps
    | with_reducible apply State.setGx_keeps
    | with_reducible apply State.compareSigs_keeps
    | (intro _; try dsimp only)
    | split
    | refine Keeps.upd ?_ rfl rfl (by simp) rfl rfl rfl

theorem lslist_keeps {b s : State} (h : Keeps b s) :
    Keeps b (lslist s) := by
  unfold lslist
  try dsimp only
  repeat' first
    | with_reducible assumption
    | with_reducible apply Keeps.ite
    | with_reducible apply State.guardRx_keeps
    | with_reducible apply State.setRegN_keeps
    | (intro _; try dsimp only)
    | split
    | refine Keeps.upd ?_ rfl rfl (by simp) rfl rfl rfl

theorem State.parkStat_keeps {b s : State} (h : Keeps b s) (lo : Nat) (pseq : Nat) :
    Keeps b (State.parkStat s lo pseq) := by
  unfold State.parkStat
  try dsimp only
  repeat' first
    | with_reducible assumption
    | with_reducible apply State.setRegN_keeps

theorem parkCmd_keeps {b s : State} (h : Keeps b s) (v : W32) :
    Keeps b (parkCmd v s) := by
  unfold parkCmd
  try dsimp only
  repeat' first
    | with_reducible assumption
    | with_reducible apply Keeps.ite
    | with_reducible apply State.err_keeps
    | with_reducible apply State.parkStat_keeps
    | with_reducible apply State.setGx_keeps
    | with_reducible apply State.rootResume_keeps
    | (intro _; try dsimp only)
    | split
    | refine Keeps.upd ?_ rfl rfl (by simp) rfl rfl rfl

theorem verdictForce_keeps {b s : State} (h : Keeps b s) (v : W32) :
    Keeps b (verdictForce v s) := by
  unfold verdictForce
  try dsimp only
  repeat' first
    | with_reducible assumption
    | with_reducible apply Keeps.ite
    | with_reducible apply State.err_keeps
    | with_reducible apply State.takeVd_keeps
    | (intro _; try dsimp only)
    | split
    | refine Keeps.upd ?_ rfl rfl (by simp) rfl rfl rfl

theorem State.confirmFail_keeps {b s : State} (h : Keeps b s) (x : Nat) :
    Keeps b (State.confirmFail s x) := by
  unfold State.confirmFail
  try dsimp only
  repeat' first
    | with_reducible assumption
    | with_reducible apply Keeps.ite
    | with_reducible apply Keeps.foldl
    | with_reducible apply State.onFailure_keeps
    | with_reducible apply State.chooseSpares_keeps
    | (intro _; try dsimp only)
    | split
    | refine Keeps.upd ?_ rfl rfl (by simp) rfl rfl rfl

theorem State.spareFailed_keeps {b s : State} (h : Keeps b s) (x : Nat) (self : Bool) :
    Keeps b (State.spareFailed s x self) := by
  unfold State.spareFailed
  try dsimp only
  repeat' first
    | with_reducible assumption
    | with_reducible apply Keeps.ite
    | with_reducible apply State.chooseSpares_keeps
    | (intro _; try dsimp only)
    | split
    | refine Keeps.upd ?_ rfl rfl (by simp) rfl rfl rfl

theorem State.report_keeps {b s : State} (h : Keeps b s) (x : Nat) (watcher : Nat) (self : Bool) :
    Keeps b (State.report s x watcher self) := by
  unfold State.report
  try dsimp only
  repeat' first
    | with_reducible assumption
    | with_reducible apply Keeps.ite
    | with_reducible apply State.spareFailed_keeps
    | with_reducible apply State.confirmFail_keeps
    | (intro _; try dsimp only)
    | split
    | refine Keeps.upd ?_ rfl rfl (by simp) rfl rfl rfl

theorem State.sendFailrep_keeps {b s : State} (h : Keeps b s) (x : Nat) (self : Bool) :
    Keeps b (State.sendFailrep s x self) := by
  unfold State.sendFailrep
  try dsimp only
  repeat' first
    | with_reducible assumption
    | with_reducible apply Keeps.ite
    | with_reducible apply Keeps.foldl
    | with_reducible apply State.report_keeps
    | with_reducible apply State.countEv_keeps
    | with_reducible apply State.guardSend_keeps
    | (intro _; try dsimp only)
    | split

theorem failrep_keeps {b s : State} (h : Keeps b s) :
    Keeps b (failrep s) := by
  unfold failrep
  try dsimp only
  repeat' first
    | with_reducible assumption
    | with_reducible apply State.guardRx_keeps
    | with_reducible apply State.report_keeps
    | (intro _; try dsimp only)

theorem heartbeatPeriod_keeps {b s : State} (h : Keeps b s) :
    Keeps b (heartbeatPeriod s) := by
  unfold heartbeatPeriod
  try dsimp only
  repeat' first
    | with_reducible assumption
    | with_reducible apply Keeps.ite
    | with_reducible apply Keeps.foldl
    | with_reducible apply State.countEv_keeps
    | with_reducible apply State.sendShot_keeps
    | (intro _; try dsimp only)
    | split
    | refine Keeps.upd ?_ rfl rfl (by simp) rfl rfl rfl

theorem heartbeat_keeps {b s : State} (h : Keeps b s)  :
    Keeps b (heartbeat s) := by
  unfold heartbeat
  split
  · exact h
  · exact Keeps.foldl _ (fun _ _ k => Keeps.ite (Keeps.upd k rfl rfl (Nat.le_refl _) rfl rfl rfl) k) _ _
      (State.countEv_keeps (State.rxDrop_keeps h _) _ _ _)

theorem heartbeatTimeout_keeps {b s : State} (h : Keeps b s) :
    Keeps b (heartbeatTimeout s) := by
  unfold heartbeatTimeout
  try dsimp only
  repeat' first
    | with_reducible assumption
    | with_reducible apply Keeps.ite
    | with_reducible apply Keeps.foldl
    | with_reducible apply State.sendFailrep_keeps
    | (intro _; try dsimp only)
    | split
    | refine Keeps.upd ?_ rfl rfl (by simp) rfl rfl rfl

theorem State.watchStart_keeps {b s : State} (h : Keeps b s) (i : Nat) :
    Keeps b (State.watchStart s i) := by
  unfold State.watchStart
  try dsimp only
  repeat' first
    | with_reducible assumption
    | (intro _; try dsimp only)
    | refine Keeps.upd ?_ rfl rfl (by simp) rfl rfl rfl

theorem State.joinCheck_keeps {b s : State} (h : Keeps b s)  :
    Keeps b (State.joinCheck s) := by
  exact Keeps.foldl _ (fun _ _ k => Keeps.ite (State.rootResume_keeps k _ _ _) k) _ _ h

theorem State.join_keeps {b s : State} (h : Keeps b s) (n : Nat) :
    Keeps b (State.join s n) := by
  unfold State.join
  try dsimp only
  repeat' first
    | with_reducible assumption
    | with_reducible apply Keeps.ite
    | with_reducible apply State.report_keeps
    | with_reducible apply State.joinCheck_keeps
    | (intro _; try dsimp only)
    | split
    | refine Keeps.upd ?_ rfl rfl (by simp) rfl rfl rfl

theorem joinRx_keeps {b s : State} (h : Keeps b s)  :
    Keeps b (joinRx s) := by
  exact State.guardRx_keeps h _ _ _ (fun _ _ _ k => State.join_keeps k _)

theorem gctrlWrite_keeps {b s : State} (h : Keeps b s) (v : W32) :
    Keeps b (gctrlWrite v s) := by
  unfold gctrlWrite
  try dsimp only
  repeat' first
    | with_reducible assumption
    | with_reducible apply Keeps.ite
    | with_reducible apply Keeps.foldl
    | with_reducible apply State.setReg_keeps
    | with_reducible apply State.watchStart_keeps
    | with_reducible apply State.join_keeps
    | with_reducible apply State.guardSend_keeps
    | (intro _; try dsimp only)
    | split
    | refine Keeps.upd ?_ rfl rfl (by simp) rfl rfl rfl

theorem incarn_keeps {b s : State} (h : Keeps b s) :
    Keeps b (incarn s) := by
  unfold incarn
  try dsimp only
  repeat' first
    | with_reducible assumption
    | with_reducible apply Keeps.ite
    | with_reducible apply Keeps.foldl
    | with_reducible apply State.guardRx_keeps
    | with_reducible apply State.setInc_keeps
    | with_reducible apply State.resyncTry_keeps
    | (intro _; try dsimp only)
    | split
    | refine Keeps.upd ?_ rfl rfl (by simp) rfl rfl rfl

theorem adopt_keeps {b s : State} (h : Keeps b s)  :
    Keeps b (adopt s) := by
  exact State.guardRx_keeps h _ _ _ (fun _ _ _ k => Keeps.ite (State.takeAdopt_keeps k _ _) k)


theorem resync_keeps {b s : State} (h : Keeps b s)  :
    Keeps b (resync s) := by
  exact State.guardRx_keeps h _ _ _ (fun _ _ _ k => Keeps.ite (State.adoptImage_keeps k _ _) k)

theorem State.recovOut_keeps {b s : State} (h : Keeps b s) (u : Nat) :
    Keeps b (State.recovOut s u) := by
  unfold State.recovOut
  try dsimp only
  repeat' first
    | with_reducible assumption
    | with_reducible apply Keeps.ite
    | with_reducible apply State.ctxWrite_keeps
    | (intro _; try dsimp only)
    | split
    | refine Keeps.upd ?_ rfl rfl (by simp) rfl rfl rfl

theorem State.republish_keeps {b s : State} (h : Keeps b s) (c : Nat) (step : Nat) (skip : Bool) (a : Nat) (n : Nat) :
    Keeps b (State.republish s c step skip a n) := by
  unfold State.republish
  try dsimp only
  repeat' first
    | with_reducible assumption
    | with_reducible apply Keeps.foldl
    | with_reducible apply State.issue_keeps
    | with_reducible apply State.ctxWrite_keeps
    | with_reducible apply State.setC64_keeps
    | (intro _; try dsimp only)

theorem State.recovIn_keeps {b s : State} (h : Keeps b s) (u : Nat) (p : Pull) :
    Keeps b (State.recovIn s u p) := by
  have h1 : Keeps b (s.ctxWrite (s.uCtx u) (s.gAddr (s.uCtx u) 19) p.cask) := State.ctxWrite_keeps h _ _ _
  unfold State.recovIn
  dsimp only
  generalize u * 2 ^ 64 + s.gAddr (s.uCtx u) 19 * 2 ^ 128 = d
  generalize s.ctxWrite (s.uCtx u) (s.gAddr (s.uCtx u) 19) p.cask = s1 at h1 ⊢
  have h2 := State.issue_keeps (caskInWork_keeps h1 d) (caskInWork d s1).writes
  generalize (caskInWork d s1).st.issue (caskInWork d s1).writes = s2 at h2 ⊢
  refine Keeps.ite h (Keeps.ite h1 ?_)
  have h3 : Keeps b (p.banks.foldl (fun t e => (t.ctxWrite (s.uCtx u) (t.bankAt u e.1) e.2).countBank u e.1 (t.ownLen u)) s2) :=
    Keeps.foldl _ (fun _ _ k => State.countBank_keeps (State.ctxWrite_keeps k _ _ _) _ _ _) _ _ h2
  split
  · apply State.republish_keeps
    exact Keeps.upd h3 rfl rfl (Nat.le_refl _) rfl rfl rfl
  · exact Keeps.upd h3 rfl rfl (Nat.le_refl _) rfl rfl rfl

theorem recoveryTransfer_keeps {b s : State} (h : Keeps b s) (u : Nat) (pull : Option Pull) :
    Keeps b (recoveryTransfer u pull s) := by
  unfold recoveryTransfer
  try dsimp only
  repeat' first
    | with_reducible assumption
    | with_reducible apply State.recovOut_keeps
    | with_reducible apply State.recovIn_keeps
    | split
    | refine Keeps.upd ?_ rfl rfl (by simp) rfl rfl rfl

theorem State.readyFrom_keeps {b s : State} (h : Keeps b s) (n : Nat) :
    Keeps b (State.readyFrom s n) := by
  unfold State.readyFrom
  dsimp only
  refine Keeps.ite (Keeps.upd h rfl rfl (Nat.le_refl _) rfl rfl rfl)
    (Keeps.foldl _ (fun _ _ k => Keeps.ite (State.rootResume_keeps k _ _ _) k) _ _
      (Keeps.upd h rfl rfl (Nat.le_refl _) rfl rfl rfl))

theorem readySend_keeps {b s : State} (h : Keeps b s) :
    Keeps b (readySend s) := by
  unfold readySend
  try dsimp only
  repeat' first
    | with_reducible assumption
    | with_reducible apply Keeps.ite
    | with_reducible apply Keeps.foldl
    | with_reducible apply State.zeroCtx_keeps
    | with_reducible apply State.readyFrom_keeps
    | with_reducible apply State.guardSend_keeps
    | (intro _; try dsimp only)
    | split
    | refine Keeps.upd ?_ rfl rfl (by simp) rfl rfl rfl

theorem ready_keeps {b s : State} (h : Keeps b s)  :
    Keeps b (ready s) := by
  exact State.guardRx_keeps h _ _ _ (fun _ _ _ k => State.readyFrom_keeps k _)

end Sys2Proof.Machine
end

