-- ==== Sys2Proof/Laws/KeepsSite.lean ====
section
/-! SUPPORT. What time, power, identity, arrivals, contexts, Malt and the control commands keep of a state (Laws/Keeps): one lemma for each operation. -/
namespace Sys2Proof.Machine
open Sys2Proof

theorem krefEdge_grows {b s : State} (h : Grows b s)  :
    Grows b (krefEdge s) := by
  unfold krefEdge
  try dsimp only
  repeat' first
    | with_reducible assumption
    | with_reducible apply Grows.ite
    | with_reducible refine Grows.step ?_ (State.emit_keeps (Keeps.refl _) _)
    | (intro _; try dsimp only)
    | split
    | refine Grows.upd ?_ rfl rfl (by first | exact Nat.le_refl _ | exact Nat.le_succ _ | omega) rfl

theorem State.tickHold_keeps {b s : State} (h : Keeps b s) :
    Keeps b (State.tickHold s) := by
  unfold State.tickHold
  try dsimp only
  repeat' first
    | with_reducible assumption
    | with_reducible apply Keeps.ite
    | with_reducible apply State.emit_keeps
    | split
    | refine Keeps.upd ?_ rfl rfl (by simp) rfl rfl rfl

theorem State.setRate_keeps {b s : State} (h : Keeps b s) (r : Int) :
    Keeps b (State.setRate s r) := by
  unfold State.setRate
  try dsimp only
  repeat' first
    | with_reducible assumption
    | with_reducible apply State.setRegN_keeps

theorem State.setTime_keeps {b s : State} (h : Keeps b s) (v : Nat) :
    Keeps b (State.setTime s v) := by
  unfold State.setTime
  try dsimp only
  repeat' first
    | with_reducible assumption
    | with_reducible apply Keeps.ite
    | with_reducible apply State.setRegN_keeps
    | with_reducible apply State.setRate_keeps
    | with_reducible apply State.err_keeps
    | with_reducible apply State.tickHold_keeps
    | (intro _; try dsimp only)
    | split
    | refine Keeps.upd ?_ rfl rfl (by simp) rfl rfl rfl

theorem State.syncOff_keeps {b s : State} (h : Keeps b s) :
    Keeps b (State.syncOff s) := by
  unfold State.syncOff
  try dsimp only
  repeat' first
    | with_reducible assumption
    | with_reducible apply State.setTime_keeps
    | (intro _; try dsimp only)
    | refine Keeps.upd ?_ rfl rfl (by simp) rfl rfl rfl

theorem State.syncOn_keeps {b s : State} (h : Keeps b s) :
    Keeps b (State.syncOn s) := by
  unfold State.syncOn
  try dsimp only
  repeat' first
    | with_reducible assumption
    | with_reducible apply Keeps.ite
    | with_reducible apply State.setTime_keeps
    | (intro _; try dsimp only)
    | split
    | refine Keeps.upd ?_ rfl rfl (by simp) rfl rfl rfl

theorem timeCtrl_keeps {b s : State} (h : Keeps b s) (v : W32) :
    Keeps b (timeCtrl v s) := by
  unfold timeCtrl
  try dsimp only
  repeat' first
    | with_reducible assumption
    | with_reducible apply Keeps.ite
    | with_reducible apply State.setReg_keeps
    | with_reducible apply State.syncOn_keeps
    | with_reducible apply State.syncOff_keeps
    | with_reducible apply State.tickHold_keeps
    | (intro _; try dsimp only)
    | split

theorem State.sendPtp_keeps {b s : State} (h : Keeps b s) (dst : Nat) (kind : Nat) (seq : Nat) (dom : Nat) (stamp : Nat) :
    Keeps b (State.sendPtp s dst kind seq dom stamp) := by
  unfold State.sendPtp
  try dsimp only
  repeat' first
    | with_reducible assumption
    | with_reducible apply State.emit_keeps
    | split
    | refine Keeps.upd ?_ rfl rfl (by simp) rfl rfl rfl

theorem syncInterval_keeps {b s : State} (h : Keeps b s) (child : Nat) (cycles : Nat) :
    Keeps b (syncInterval child cycles s) := by
  unfold syncInterval
  try dsimp only
  repeat' first
    | with_reducible assumption
    | with_reducible apply Keeps.ite
    | with_reducible apply State.sendPtp_keeps
    | (intro _; try dsimp only)
    | split
    | refine Keeps.upd ?_ rfl rfl (by simp) rfl rfl rfl

theorem State.exchLost_keeps {b s : State} (h : Keeps b s) :
    Keeps b (State.exchLost s) := by
  unfold State.exchLost
  try dsimp only
  repeat' first
    | with_reducible assumption
    | with_reducible apply State.countEv_keeps
    | split
    | refine Keeps.upd ?_ rfl rfl (by simp) rfl rfl rfl

theorem syncRx_keeps {b s : State} (h : Keeps b s) (src : Nat) (dom : Nat) (seq : Nat) (cycles : Nat) :
    Keeps b (syncRx src dom seq cycles s) := by
  unfold syncRx
  try dsimp only
  repeat' first
    | with_reducible assumption
    | with_reducible apply Keeps.ite
    | with_reducible apply State.exchLost_keeps
    | (intro _; try dsimp only)
    | split
    | refine Keeps.upd ?_ rfl rfl (by simp) rfl rfl rfl

theorem followUp_keeps {b s : State} (h : Keeps b s) (src : Nat) (dom : Nat) (seq : Nat) (t1 : Nat) (cycles : Nat) :
    Keeps b (followUp src dom seq t1 cycles s) := by
  unfold followUp
  try dsimp only
  repeat' first
    | with_reducible assumption
    | with_reducible apply Keeps.ite
    | with_reducible apply State.sendPtp_keeps
    | (intro _; try dsimp only)
    | split
    | refine Keeps.upd ?_ rfl rfl (by simp) rfl rfl rfl

theorem delayReq_keeps {b s : State} (h : Keeps b s) (src : Nat) (dom : Nat) (seq : Nat) (cycles : Nat) :
    Keeps b (delayReq src dom seq cycles s) := by
  unfold delayReq
  try dsimp only
  repeat' first
    | with_reducible assumption
    | with_reducible apply Keeps.ite
    | with_reducible apply State.sendPtp_keeps
    | split

theorem State.newRate_keeps {b s : State} (h : Keeps b s) (log2 : Nat) (offset : Int) :
    Keeps b (State.newRate s log2 offset) := by
  unfold State.newRate
  try dsimp only
  repeat' first
    | with_reducible assumption
    | with_reducible apply Keeps.ite
    | with_reducible apply State.setRate_keeps
    | (intro _; try dsimp only)
    | split
    | refine Keeps.upd ?_ rfl rfl (by simp) rfl rfl rfl

theorem State.acquire_grows {b s : State} (h : Grows b s) (offset : Int) :
    Grows b (State.acquire s offset) := by
  unfold State.acquire
  exact Grows.step (Grows.upd h rfl rfl (Nat.le_refl _) rfl)
    (State.setTime_keeps (State.err_keeps (State.bump_keeps (Keeps.refl _) _ _) _ _) _)

theorem State.slew_keeps {b s : State} (h : Keeps b s) (near : Bool) :
    Keeps b (State.slew s near) := by
  unfold State.slew
  try dsimp only
  repeat' first
    | with_reducible assumption
    | with_reducible apply Keeps.ite
    | with_reducible apply State.setTime_keeps
    | (intro _; try dsimp only)
    | split
    | refine Keeps.upd ?_ rfl rfl (by simp) rfl rfl rfl

theorem State.exchOk_grows {b s : State} (h : Grows b s) (src : Nat) (log2 : Nat) (offset : Int) :
    Grows b (State.exchOk s src log2 offset) := by
  unfold State.exchOk
  extract_lets parent toAlt t1 s1 s2 s3 near
  have h1 : Keeps s s1 := Keeps.upd (Keeps.refl s) rfl rfl (Nat.le_refl _) rfl rfl rfl
  have h2 : Keeps s s2 := State.setRegN_keeps (State.countEv_keeps h1 _ _ _) _ _
  have h3 : Keeps s s3 := Keeps.ite (State.countEv_keeps h2 _ _ _) h2
  clear_value s3
  refine Grows.ite (State.acquire_grows (h.step h3) _) ?_
  have h4 := State.newRate_keeps h3 log2 offset
  exact Grows.ite (h.step (State.setTime_keeps h4 _)) (Grows.ite (h.step (State.slew_keeps h4 _)) (h.step h4))

theorem delayResp_grows {b s : State} (h : Grows b s) (src : Nat) (dom : Nat) (seq : Nat) (t4 : Nat) :
    Grows b (delayResp src dom seq t4 s) := by
  unfold delayResp
  split
  · exact h
  · split
    · exact Grows.ite h (Grows.ite (h.step (State.exchLost_keeps (Keeps.refl _))) (State.exchOk_grows h _ _ _))
    · exact h

theorem State.toAlt_keeps {b s : State} (h : Keeps b s) :
    Keeps b (State.toAlt s) := by
  unfold State.toAlt
  try dsimp only
  repeat' first
    | with_reducible assumption
    | with_reducible apply State.exchLost_keeps
    | with_reducible apply State.countEv_keeps
    | refine Keeps.upd ?_ rfl rfl (by simp) rfl rfl rfl

theorem syncLoss_keeps {b s : State} (h : Keeps b s) (alt : Bool) :
    Keeps b (syncLoss alt s) := by
  unfold syncLoss
  try dsimp only
  repeat' first
    | with_reducible assumption
    | with_reducible apply Keeps.ite
    | with_reducible apply State.toAlt_keeps
    | with_reducible apply State.exchLost_keeps
    | with_reducible apply State.setTime_keeps
    | split

theorem holdMax_keeps {b s : State} (h : Keeps b s) :
    Keeps b (holdMax s) := by
  unfold holdMax
  try dsimp only
  repeat' first
    | with_reducible assumption
    | with_reducible apply Keeps.ite
    | with_reducible apply State.setTime_keeps
    | with_reducible apply State.err_keeps
    | with_reducible apply State.sendFailrep_keeps
    | with_reducible apply State.fence_keeps
    | (intro _; try dsimp only)
    | split

theorem timeHoldMax_keeps {b s : State} (h : Keeps b s) (v : W32) :
    Keeps b (timeHoldMax v s) := by
  unfold timeHoldMax
  try dsimp only
  repeat' first
    | with_reducible assumption
    | with_reducible apply Keeps.ite
    | with_reducible apply State.err_keeps
    | with_reducible apply holdMax_keeps
    | with_reducible apply State.setRegN_keeps
    | (intro _; try dsimp only)
    | split

theorem State.timeParks_keeps {b s : State} (h : Keeps b s) :
    Keeps b (State.timeParks s) := by
  unfold State.timeParks
  try dsimp only
  repeat' first
    | with_reducible assumption
    | with_reducible apply Keeps.ite
    | with_reducible apply State.exchLost_keeps
    | with_reducible apply State.setTime_keeps
    | split

theorem State.timeWakes_keeps {b s : State} (h : Keeps b s) :
    Keeps b (State.timeWakes s) := by
  unfold State.timeWakes
  try dsimp only
  repeat' first
    | with_reducible assumption
    | with_reducible apply Keeps.ite
    | with_reducible apply State.setTime_keeps
    | (intro _; try dsimp only)
    | split
    | refine Keeps.upd ?_ rfl rfl (by simp) rfl rfl rfl

theorem State.curtChange_keeps {b s : State} (h : Keeps b s) :
    Keeps b (State.curtChange s) := by
  unfold State.curtChange
  try dsimp only
  repeat' first
    | with_reducible assumption
    | with_reducible apply Keeps.ite
    | (intro _; try dsimp only)
    | split
    | refine Keeps.upd ?_ rfl rfl (by simp) rfl rfl rfl

theorem kcurtChange_keeps {b s : State} (h : Keeps b s) (level : Bool) :
    Keeps b (kcurtChange level s) := by
  unfold kcurtChange
  try dsimp only
  repeat' first
    | with_reducible assumption
    | with_reducible apply Keeps.ite
    | with_reducible apply State.curtChange_keeps
    | split
    | refine Keeps.upd ?_ rfl rfl (by simp) rfl rfl rfl

theorem ktick_keeps {b s : State} (h : Keeps b s) :
    Keeps b (ktick s) := by
  unfold ktick
  try dsimp only
  repeat' first
    | with_reducible assumption
    | with_reducible apply Keeps.ite
    | with_reducible apply State.emit_keeps
    | (intro _; try dsimp only)
    | split
    | refine Keeps.upd ?_ rfl rfl (by simp) rfl rfl rfl

theorem State.setPace_keeps {b s : State} (h : Keeps b s) (c : Nat) (p : Option Pace) :
    Keeps b (State.setPace s c p) := by
  unfold State.setPace
  try dsimp only
  repeat' first
    | with_reducible assumption
    | (intro _; try dsimp only)
    | refine Keeps.upd ?_ rfl rfl (by simp) rfl rfl rfl

theorem State.curtLaunch_keeps {b s : State} (h : Keeps b s) :
    Keeps b (State.curtLaunch s) := by
  unfold State.curtLaunch
  try dsimp only
  repeat' first
    | with_reducible assumption
    | with_reducible apply Keeps.ite
    | (intro _; try dsimp only)
    | split
    | refine Keeps.upd ?_ rfl rfl (by simp) rfl rfl rfl

theorem State.startRamp_keeps {b s : State} (h : Keeps b s) (c : Nat) (tr : Nat) (m0 : Nat) :
    Keeps b (State.startRamp s c tr m0) := by
  unfold State.startRamp
  try dsimp only
  repeat' first
    | with_reducible assumption
    | with_reducible apply Keeps.ite
    | with_reducible apply State.setPace_keeps
    | split
    | refine Keeps.upd ?_ rfl rfl (by simp) rfl rfl rfl

theorem State.paceLaunch_keeps {b s : State} (h : Keeps b s) (c : Nat) (resume : Option Nat) (free : Nat) :
    Keeps b (State.paceLaunch s c resume free) := by
  unfold State.paceLaunch
  try dsimp only
  repeat' first
    | with_reducible assumption
    | with_reducible apply Keeps.ite
    | with_reducible apply State.curtLaunch_keeps
    | with_reducible apply resume_keeps
    | with_reducible apply State.startRamp_keeps
    | with_reducible apply State.setPace_keeps
    | with_reducible apply State.countEv_keeps
    | (intro _; try dsimp only)
    | split
    | refine Keeps.upd ?_ rfl rfl (by simp) rfl rfl rfl

theorem State.damp_keeps {b s : State} (h : Keeps b s) (p : Nat) (lim : Nat) :
    Keeps b (State.damp s p lim) := by
  unfold State.damp
  try dsimp only
  repeat' first
    | with_reducible assumption
    | (intro _; try dsimp only)
    | split
    | refine Keeps.upd ?_ rfl rfl (by simp) rfl rfl rfl

theorem State.wearNotice_keeps {b s : State} (h : Keeps b s) :
    Keeps b (State.wearNotice s) := by
  unfold State.wearNotice
  try dsimp only
  repeat' first
    | with_reducible assumption
    | with_reducible apply Keeps.ite
    | with_reducible apply State.err_keeps
    | split
    | refine Keeps.upd ?_ rfl rfl (by simp) rfl rfl rfl

theorem State.wearStep_keeps {b s : State} (h : Keeps b s) :
    Keeps b (State.wearStep s) := by
  unfold State.wearStep
  try dsimp only
  repeat' first
    | with_reducible assumption
    | with_reducible apply Keeps.ite
    | with_reducible apply State.err_keeps
    | split
    | refine Keeps.upd ?_ rfl rfl (by simp) rfl rfl rfl

theorem State.wearCheck_keeps {b s : State} (h : Keeps b s) :
    Keeps b (State.wearCheck s) := by
  unfold State.wearCheck
  try dsimp only
  repeat' first
    | with_reducible assumption
    | with_reducible apply Keeps.ite
    | with_reducible apply State.wearNotice_keeps
    | (intro _; try dsimp only)
    | split
    | refine Keeps.upd ?_ rfl rfl (by simp) rfl rfl rfl

theorem State.wearSample_keeps {b s : State} (h : Keeps b s) (excess : Bool) :
    Keeps b (State.wearSample s excess) := by
  unfold State.wearSample
  try dsimp only
  repeat' first
    | with_reducible assumption
    | with_reducible apply Keeps.ite
    | with_reducible apply State.wearCheck_keeps
    | with_reducible apply State.setReg64_keeps
    | (intro _; try dsimp only)
    | split
    | refine Keeps.upd ?_ rfl rfl (by simp) rfl rfl rfl

theorem State.sampled_keeps {b s : State} (h : Keeps b s) (word : W32) (fillHc : Nat) :
    Keeps b (State.sampled s word fillHc) := by
  unfold State.sampled
  try dsimp only
  repeat' first
    | with_reducible assumption
    | with_reducible apply Keeps.ite
    | with_reducible apply State.countEv_keeps
    | with_reducible apply State.damp_keeps
    | with_reducible apply State.err_keeps
    | with_reducible apply State.wearSample_keeps
    | (intro _; try dsimp only)
    | split
    | refine Keeps.upd ?_ rfl rfl (by simp) rfl rfl rfl

theorem telemetry_keeps {b s : State} (h : Keeps b s) (word : W32) (fillHc : Nat) :
    Keeps b (telemetry word fillHc s) := by
  unfold telemetry
  try dsimp only
  repeat' first
    | with_reducible assumption
    | with_reducible apply Keeps.ite
    | with_reducible apply State.sampled_keeps
    | split

theorem wearAdvance_keeps {b s : State} (h : Keeps b s) :
    Keeps b (wearAdvance s) := by
  unfold wearAdvance
  try dsimp only
  repeat' first
    | with_reducible assumption
    | with_reducible apply Keeps.ite
    | with_reducible apply State.countEv_keeps
    | with_reducible apply State.wearCheck_keeps
    | (intro _; try dsimp only)
    | split
    | refine Keeps.upd ?_ rfl rfl (by simp) rfl rfl rfl

theorem wearSel_keeps {b s : State} (h : Keeps b s) (v : W32) :
    Keeps b (wearSel v s) := by
  unfold wearSel
  try dsimp only
  repeat' first
    | with_reducible assumption
    | with_reducible apply Keeps.ite
    | with_reducible apply State.err_keeps
    | with_reducible apply State.setRegN_keeps
    | (intro _; try dsimp only)
    | split
    | refine Keeps.upd ?_ rfl rfl (by simp) rfl rfl rfl

theorem wearData_keeps {b s : State} (h : Keeps b s) (v : W32) :
    Keeps b (wearData v s) := by
  unfold wearData
  try dsimp only
  repeat' first
    | with_reducible assumption
    | with_reducible apply Keeps.ite
    | with_reducible apply State.err_keeps
    | with_reducible apply State.wearCheck_keeps
    | with_reducible apply State.setRegN_keeps
    | (intro _; try dsimp only)
    | split
    | refine Keeps.upd ?_ rfl rfl (by simp) rfl rfl rfl

theorem State.wearRead_keeps {b s : State} (h : Keeps b s) :
    Keeps b (State.wearRead s).2 := by
  unfold State.wearRead
  try dsimp only
  repeat' first
    | with_reducible assumption
    | with_reducible apply Keeps.ite
    | with_reducible apply State.setRegN_keeps
    | (intro _; try dsimp only)

theorem wearCtrl_keeps {b s : State} (h : Keeps b s) (v : W32) :
    Keeps b (wearCtrl v s) := by
  unfold wearCtrl
  try dsimp only
  repeat' first
    | with_reducible assumption
    | with_reducible apply Keeps.ite
    | with_reducible apply State.err_keeps
    | with_reducible apply State.setReg_keeps
    | split

theorem State.idenKick_keeps {b s : State} (h : Keeps b s) :
    Keeps b (State.idenKick s) := by
  unfold State.idenKick
  try dsimp only
  repeat' first
    | with_reducible assumption
    | with_reducible apply Keeps.ite
    | with_reducible apply State.setReg_keeps
    | (intro _; try dsimp only)
    | split
    | refine Keeps.upd ?_ rfl rfl (by simp) rfl rfl rfl

theorem State.scanReq_keeps {b s : State} (h : Keeps b s) (full : Bool) (auto : Bool) :
    Keeps b (State.scanReq s full auto) := by
  unfold State.scanReq
  try dsimp only
  repeat' first
    | with_reducible assumption
    | with_reducible apply State.idenKick_keeps
    | (intro _; try dsimp only)
    | split
    | refine Keeps.upd ?_ rfl rfl (by simp) rfl rfl rfl

theorem autoScan_keeps {b s : State} (h : Keeps b s) :
    Keeps b (autoScan s) := by
  unfold autoScan
  try dsimp only
  repeat' first
    | with_reducible assumption
    | with_reducible apply Keeps.ite
    | with_reducible apply State.scanReq_keeps
    | split
    | refine Keeps.upd ?_ rfl rfl (by simp) rfl rfl rfl

theorem busStuck_keeps {b s : State} (h : Keeps b s) (p : Nat) :
    Keeps b (busStuck p s) := by
  unfold busStuck
  try dsimp only
  repeat' first
    | with_reducible assumption
    | with_reducible apply Keeps.ite
    | with_reducible apply State.countEv_keeps
    | with_reducible apply State.err_keeps
    | split
    | refine Keeps.upd ?_ rfl rfl (by simp) rfl rfl rfl

theorem busHang_keeps {b s : State} (h : Keeps b s) (p : Nat) :
    Keeps b (busHang p s) := by
  unfold busHang
  try dsimp only
  repeat' first
    | with_reducible assumption
    | with_reducible apply Keeps.ite
    | with_reducible apply State.countEv_keeps
    | with_reducible apply State.err_keeps
    | with_reducible apply busStuck_keeps
    | split
    | refine Keeps.upd ?_ rfl rfl (by simp) rfl rfl rfl

theorem scanDone_keeps {b s : State} (h : Keeps b s) (modules : List Module) (noSwitch : Nat) :
    Keeps b (scanDone modules noSwitch s) := by
  unfold scanDone
  try dsimp only
  repeat' first
    | with_reducible assumption
    | with_reducible apply Keeps.ite
    | with_reducible apply Keeps.foldl
    | with_reducible apply State.setRegN_keeps
    | with_reducible apply State.countEv_keeps
    | with_reducible apply State.err_keeps
    | with_reducible apply State.idenKick_keeps
    | (intro _; try dsimp only)
    | split
    | refine Keeps.upd ?_ rfl rfl (by simp) rfl rfl rfl

theorem checkGo_keeps {b s : State} (h : Keeps b s) (v : W32) :
    Keeps b (checkGo v s) := by
  unfold checkGo
  try dsimp only
  repeat' first
    | with_reducible assumption
    | with_reducible apply Keeps.ite
    | with_reducible apply State.err_keeps
    | with_reducible apply State.setRegN_keeps
    | with_reducible apply State.idenKick_keeps
    | split
    | refine Keeps.upd ?_ rfl rfl (by simp) rfl rfl rfl

theorem checkDone_keeps {b s : State} (h : Keeps b s) :
    Keeps b (checkDone s) := by
  unfold checkDone
  try dsimp only
  repeat' first
    | with_reducible assumption
    | with_reducible apply Keeps.ite
    | with_reducible apply State.setRegN_keeps
    | with_reducible apply State.countEv_keeps
    | with_reducible apply State.err_keeps
    | with_reducible apply State.idenKick_keeps
    | (intro _; try dsimp only)
    | split
    | refine Keeps.upd ?_ rfl rfl (by simp) rfl rfl rfl

theorem State.dropBadTop_keeps {b s : State} (h : Keeps b s) :
    Keeps b (State.dropBadTop s) := by
  unfold State.dropBadTop
  try dsimp only
  repeat' first
    | with_reducible assumption
    | with_reducible apply State.rxDrop_keeps
    | with_reducible apply State.bump_keeps
    | (intro _; try dsimp only)
    | split
    | refine Keeps.upd ?_ rfl rfl (by simp) rfl rfl rfl

theorem State.rxTests_keeps {b s : State} (hk : Keeps b s) (p : Nat) (h : Hdr) (ce : Bool) (seg : Bytes) :
    Keeps b (State.rxTests s p h ce seg) := by
  unfold State.rxTests
  try dsimp only
  repeat' first
    | with_reducible assumption
    | with_reducible apply Keeps.ite
    | with_reducible apply State.fence_keeps
    | with_reducible apply State.bump_keeps
    | with_reducible apply State.stray_keeps
    | with_reducible apply State.rxStore_keeps
    | with_reducible apply State.dropBadTop_keeps
    | (intro _; try dsimp only)
    | split
    | refine Keeps.upd ?_ rfl rfl (by simp) rfl rfl rfl

theorem State.kx1Ack_keeps {b0 s : State} (hk : Keeps b0 s) (p : Nat) (c : Nat) (b : Nat) (ce : Bool) (h : Kx1) :
    Keeps b0 (State.kx1Ack s p c b ce h) := by
  unfold State.kx1Ack
  try dsimp only
  repeat' first
    | with_reducible assumption
    | with_reducible apply State.sendShot_keeps
    | refine Keeps.upd ?_ rfl rfl (by simp) rfl rfl rfl

theorem State.kx1Data_keeps {b0 s : State} (hk : Keeps b0 s) (p : Nat) (c : Nat) (b : Nat) (ce : Bool) (h : Kx1) (body : Bytes) :
    Keeps b0 (State.kx1Data s p c b ce h body) := by
  unfold State.kx1Data
  try dsimp only
  repeat' first
    | with_reducible assumption
    | with_reducible apply Keeps.ite
    | with_reducible apply State.kx1Ack_keeps
    | with_reducible apply State.bump_keeps
    | with_reducible apply State.putOpen_keeps
    | with_reducible apply State.contribOver_keeps
    | with_reducible apply State.refresh_keeps
    | with_reducible apply State.accessAcc_keeps
    | (intro _; try dsimp only)
    | split
    | refine Keeps.upd ?_ rfl rfl (by simp) rfl rfl rfl

theorem State.putCredit_keeps {b s : State} (h : Keeps b s) (k : Credit) :
    Keeps b (State.putCredit s k) := by
  unfold State.putCredit
  try dsimp only
  repeat' first
    | with_reducible assumption
    | with_reducible apply Keeps.ite
    | (intro _; try dsimp only)
    | split
    | refine Keeps.upd ?_ rfl rfl (by simp) rfl rfl rfl

theorem State.kx1Tests_keeps {b s : State} (hk : Keeps b s) (p : Nat) (ce : Bool) (h : Kx1) (body : Bytes) :
    Keeps b (State.kx1Tests s p ce h body) := by
  unfold State.kx1Tests
  try dsimp only
  repeat' first
    | with_reducible assumption
    | with_reducible apply Keeps.ite
    | with_reducible apply Keeps.foldl
    | with_reducible apply State.fence_keeps
    | with_reducible apply State.bump_keeps
    | with_reducible apply State.kx1Data_keeps
    | with_reducible apply State.kx1Ack_keeps
    | with_reducible apply State.stray_keeps
    | with_reducible apply State.answered_keeps
    | with_reducible apply State.charge_keeps
    | with_reducible apply State.markVerdict_keeps
    | with_reducible apply State.refresh_keeps
    | with_reducible apply State.putCredit_keeps
    | with_reducible apply State.grant_keeps
    | (intro _; try dsimp only)
    | split
    | refine Keeps.upd ?_ rfl rfl (by simp) rfl rfl rfl

theorem frameIn_keeps {b s : State} (h : Keeps b s) (p : Nat) (frame : Bytes) :
    Keeps b (frameIn p frame s) := by
  unfold frameIn
  try dsimp only
  repeat' first
    | with_reducible assumption
    | with_reducible apply Keeps.ite
    | with_reducible apply State.bump_keeps
    | with_reducible apply State.kx1Tests_keeps
    | with_reducible apply State.rxTests_keeps
    | (intro _; try dsimp only)
    | split
    | refine Keeps.upd ?_ rfl rfl (by simp) rfl rfl rfl

theorem State.ackCredit_keeps {b s : State} (h : Keeps b s) (r : Rx) :
    Keeps b (State.ackCredit s r) := by
  unfold State.ackCredit
  try dsimp only
  repeat' first
    | with_reducible assumption
    | with_reducible apply State.putCredit_keeps
    | (intro _; try dsimp only)
    | split
    | refine Keeps.upd ?_ rfl rfl (by simp) rfl rfl rfl

theorem State.afterCredit_keeps {b s : State} (h : Keeps b s) (k : MKey) :
    Keeps b (State.afterCredit s k) := by
  unfold State.afterCredit
  try dsimp only
  repeat' first
    | with_reducible assumption
    | with_reducible apply State.refresh_keeps
    | (intro _; try dsimp only)
    | split
    | refine Keeps.upd ?_ rfl rfl (by simp) rfl rfl rfl

theorem State.afterAck_keeps {b s : State} (h : Keeps b s) (r : Rx) (m : Msg) :
    Keeps b (State.afterAck s r m) := by
  unfold State.afterAck
  try dsimp only
  repeat' first
    | with_reducible assumption
    | with_reducible apply State.ackCredit_keeps
    | with_reducible apply State.markVerdict_keeps
    | with_reducible apply State.afterCredit_keeps
    | with_reducible apply State.guardAcked_keeps
    | with_reducible apply State.tngAcked_keeps
    | split
    | refine Keeps.upd ?_ rfl rfl (by simp) rfl rfl rfl

theorem ackRx_keeps {b s : State} (h : Keeps b s) :
    Keeps b (ackRx s) := by
  unfold ackRx
  try dsimp only
  repeat' first
    | with_reducible assumption
    | with_reducible apply Keeps.ite
    | with_reducible apply State.rxDrop_keeps
    | with_reducible apply State.stray_keeps
    | with_reducible apply State.answered_keeps
    | with_reducible apply State.afterAck_keeps
    | (intro _; try dsimp only)
    | split
    | refine Keeps.upd ?_ rfl rfl (by simp) rfl rfl rfl

theorem creditRx_keeps {b s : State} (h : Keeps b s) :
    Keeps b (creditRx s) := by
  unfold creditRx
  try dsimp only
  repeat' first
    | with_reducible assumption
    | with_reducible apply Keeps.ite
    | with_reducible apply State.rxDrop_keeps
    | with_reducible apply State.bump_keeps
    | with_reducible apply State.putCredit_keeps
    | with_reducible apply State.ack_keeps
    | (intro _; try dsimp only)
    | split
    | refine Keeps.upd ?_ rfl rfl (by simp) rfl rfl rfl

theorem State.endUnknown_keeps {b s : State} (h : Keeps b s) (m : Msg) :
    Keeps b (State.endUnknown s m) := by
  unfold State.endUnknown
  try dsimp only
  repeat' first
    | with_reducible assumption
    | with_reducible apply Keeps.ite
    | with_reducible apply State.endMsg_keeps
    | with_reducible apply State.afterCredit_keeps
    | with_reducible apply State.guardUnknown_keeps
    | with_reducible apply State.tngUnknown_keeps
    | with_reducible apply State.markVerdict_keeps
    | (intro _; try dsimp only)
    | split
    | refine Keeps.upd ?_ rfl rfl (by simp) rfl rfl rfl

theorem State.retry_keeps {b s : State} (h : Keeps b s) (m : Msg) :
    Keeps b (State.retry s m) := by
  unfold State.retry
  try dsimp only
  repeat' first
    | with_reducible assumption
    | with_reducible apply Keeps.ite
    | with_reducible apply State.onFlow_keeps
    | with_reducible apply State.bump_keeps
    | with_reducible apply State.err_keeps
    | with_reducible apply State.endUnknown_keeps
    | with_reducible apply State.putMsg_keeps
    | (intro _; try dsimp only)
    | split
    | refine Keeps.upd ?_ rfl rfl (by simp) rfl rfl rfl

theorem retryTimeout_keeps {b s : State} (h : Keeps b s) :
    Keeps b (retryTimeout s) := by
  unfold retryTimeout
  try dsimp only
  repeat' first
    | with_reducible assumption
    | with_reducible apply Keeps.foldl
    | with_reducible apply State.portless_keeps
    | with_reducible apply State.retry_keeps
    | (intro _; try dsimp only)

theorem lifetimeEnd_keeps {b s : State} (h : Keeps b s) :
    Keeps b (lifetimeEnd s) := by
  unfold lifetimeEnd
  try dsimp only
  repeat' first
    | with_reducible assumption
    | with_reducible apply Keeps.foldl
    | with_reducible apply State.endUnknown_keeps
    | (intro _; try dsimp only)

theorem coolingExpiry_keeps {b s : State} (h : Keeps b s) :
    Keeps b (coolingExpiry s) := by
  unfold coolingExpiry
  try dsimp only
  repeat' first
    | with_reducible assumption
    | with_reducible apply Keeps.foldl
    | with_reducible apply State.verdictEnd_keeps
    | (intro _; try dsimp only)
    | split
    | refine Keeps.upd ?_ rfl rfl (by simp) rfl rfl rfl

theorem genCoolingEnd_keeps {b s : State} (h : Keeps b s) :
    Keeps b (genCoolingEnd s) := by
  unfold genCoolingEnd
  try dsimp only
  repeat' first
    | with_reducible assumption
    | (intro _; try dsimp only)
    | refine Keeps.upd ?_ rfl rfl (by simp) rfl rfl rfl

theorem State.setHeld_keeps {b s : State} (h : Keeps b s) (k : Nat) (o : Option W32) :
    Keeps b (State.setHeld s k o) := by
  unfold State.setHeld
  try dsimp only
  repeat' first
    | with_reducible assumption
    | (intro _; try dsimp only)
    | refine Keeps.upd ?_ rfl rfl (by simp) rfl rfl rfl

theorem State.putRec_keeps {b s : State} (h : Keeps b s) (kind : Nat) (rec : Nat) (w : Nat) (v : W32) :
    Keeps b (State.putRec s kind rec w v) := by
  unfold State.putRec
  try dsimp only
  repeat' first
    | with_reducible assumption
    | split
    | refine Keeps.upd ?_ rfl rfl (by simp) rfl rfl rfl

theorem State.applyHeld_keeps {b s : State} (h : Keeps b s) (c : Nat) :
    Keeps b (State.applyHeld s c) := by
  unfold State.applyHeld
  try dsimp only
  repeat' first
    | with_reducible assumption
    | with_reducible apply Keeps.ite
    | with_reducible apply Keeps.foldl
    | with_reducible apply State.putRec_keeps
    | with_reducible apply State.setHeld_keeps
    | (intro _; try dsimp only)
    | split
    | refine Keeps.upd ?_ rfl rfl (by simp) rfl rfl rfl

theorem State.shareNow_keeps {b s : State} (h : Keeps b s) :
    Keeps b (State.shareNow s) := by
  unfold State.shareNow
  try dsimp only
  repeat' first
    | with_reducible assumption
    | with_reducible apply State.setRegN_keeps

theorem State.claimTiles_keeps {b s : State} (h : Keeps b s) (mask : Nat) :
    Keeps b (State.claimTiles s mask) := by
  unfold State.claimTiles
  try dsimp only
  repeat' first
    | with_reducible assumption
    | with_reducible apply Keeps.foldl
    | (intro _; try dsimp only)
    | refine Keeps.upd ?_ rfl rfl (by simp) rfl rfl rfl

theorem State.tmpFresh_keeps {b s : State} (h : Keeps b s) (c : Nat) :
    Keeps b (State.tmpFresh s c) := by
  unfold State.tmpFresh
  try dsimp only
  repeat' first
    | with_reducible assumption
    | (intro _; try dsimp only)
    | refine Keeps.upd ?_ rfl rfl (by simp) rfl rfl rfl

theorem loadCtx_keeps {b s : State} (h : Keeps b s) (c : Nat) (v : W32) :
    Keeps b (loadCtx c v s) := by
  unfold loadCtx
  try dsimp only
  repeat' first
    | with_reducible assumption
    | with_reducible apply Keeps.ite
    | with_reducible apply Keeps.foldl
    | with_reducible apply State.setCf_keeps
    | with_reducible apply State.err_keeps
    | with_reducible apply State.setHx_keeps
    | with_reducible apply State.setGx_keeps
    | with_reducible apply State.setCw_keeps
    | with_reducible apply State.tmpFresh_keeps
    | with_reducible apply State.claimTiles_keeps
    | with_reducible apply State.shareNow_keeps
    | with_reducible apply State.reloaded_keeps
    | (intro _; try dsimp only)
    | split
    | refine Keeps.upd ?_ rfl rfl (by simp) rfl rfl rfl

theorem contextReady_keeps {b s : State} (h : Keeps b s) (c : Nat) :
    Keeps b (contextReady c s) := by
  unfold contextReady
  try dsimp only
  repeat' first
    | with_reducible assumption
    | with_reducible apply Keeps.ite
    | with_reducible apply Keeps.foldl
    | with_reducible apply State.applyHeld_keeps
    | with_reducible apply State.err_keeps
    | with_reducible apply State.setHx_keeps
    | with_reducible apply State.setCState_keeps
    | with_reducible apply State.joinCheck_keeps
    | (intro _; try dsimp only)
    | split
    | refine Keeps.upd ?_ rfl rfl (by simp) rfl rfl rfl

theorem State.qcnReset_keeps {b s : State} (h : Keeps b s) (c : Nat) :
    Keeps b (State.qcnReset s c) := by
  unfold State.qcnReset
  try dsimp only
  repeat' first
    | with_reducible assumption
    | with_reducible apply Keeps.ite
    | (intro _; try dsimp only)
    | split
    | refine Keeps.upd ?_ rfl rfl (by simp) rfl rfl rfl

theorem State.mashReset_keeps {b s : State} (h : Keeps b s) (c : Nat) :
    Keeps b (State.mashReset s c) := by
  unfold State.mashReset
  try dsimp only
  repeat' first
    | with_reducible assumption
    | (intro _; try dsimp only)
    | refine Keeps.upd ?_ rfl rfl (by simp) rfl rfl rfl

theorem State.sortReset_keeps {b s : State} (h : Keeps b s) (c : Nat) :
    Keeps b (State.sortReset s c) := by
  unfold State.sortReset
  try dsimp only
  repeat' first
    | with_reducible assumption
    | with_reducible apply Keeps.ite
    | with_reducible apply State.sortNext_keeps
    | (intro _; try dsimp only)
    | split
    | refine Keeps.upd ?_ rfl rfl (by simp) rfl rfl rfl

theorem State.resetCmpl_keeps {b s : State} (h : Keeps b s) (c : Nat) (w : Waiting) :
    Keeps b (State.resetCmpl s c w) := by
  unfold State.resetCmpl
  try dsimp only
  repeat' first
    | with_reducible assumption
    | with_reducible apply State.writeCmpl_keeps

theorem State.codecDrain_keeps {b s : State} (h : Keeps b s) (c : Nat) :
    Keeps b (State.codecDrain s c) := by
  unfold State.codecDrain
  try dsimp only
  repeat' first
    | with_reducible assumption
    | with_reducible apply Keeps.foldl
    | with_reducible apply State.codeFront_keeps
    | (intro _; try dsimp only)
    | split
    | refine Keeps.upd ?_ rfl rfl (by simp) rfl rfl rfl

theorem State.completeAll_keeps {b s : State} (h : Keeps b s) (c : Nat) :
    Keeps b (State.completeAll s c) := by
  unfold State.completeAll
  try dsimp only
  repeat' first
    | with_reducible assumption
    | with_reducible apply Keeps.foldl
    | with_reducible apply complete_keeps
    | (intro _; try dsimp only)

theorem State.ctxFree_keeps {b s : State} (h : Keeps b s) (c : Nat) :
    Keeps b (State.ctxFree s c) := by
  unfold State.ctxFree
  refine Keeps.ite h ?_
  extract_lets s1 s2 s3 s4 s5
  have h1 : Keeps b s1 := Keeps.ite (State.sendFailrep_keeps h _ _) h
  have h2 : Keeps b s2 := State.completeAll_keeps h1 c
  have h3 : Keeps b s3 := by
    simp only [s3]
    split
    · exact State.resetCmpl_keeps h2 _ _
    · exact h2
  have h4 : Keeps b s4 := Keeps.foldl _ (fun _ _ k => State.queueReset_keeps k _) _ _ (State.qcnReset_keeps h3 _)
  clear_value s4
  have h5 : Keeps b s5 := State.applyHeld_keeps (State.sortReset_keeps (State.setHx_keeps (State.release_keeps
    (State.mashReset_keeps (State.codecDrain_keeps h4 _) _) _) _ _) _) _
  clear_value s5
  refine State.shareNow_keeps (State.setCf_keeps (State.setGx_keeps ?_ _ _) _ _ _ _ _)
  exact Keeps.upd h5 rfl rfl (Nat.le_refl _) rfl rfl rfl

theorem ctxReset_keeps {b s : State} (h : Keeps b s) (v : W32) :
    Keeps b (ctxReset v s) := by
  unfold ctxReset
  try dsimp only
  repeat' first
    | with_reducible assumption
    | with_reducible apply Keeps.ite
    | with_reducible apply State.setHx_keeps
    | with_reducible apply State.ctxFree_keeps
    | (intro _; try dsimp only)
    | split
    | refine Keeps.upd ?_ rfl rfl (by simp) rfl rfl rfl

theorem contextReset_keeps {b s : State} (h : Keeps b s) (c : Nat) :
    Keeps b (contextReset c s) := by
  unfold contextReset
  try dsimp only
  repeat' first
    | with_reducible assumption
    | with_reducible apply Keeps.ite
    | with_reducible apply State.ctxFree_keeps
    | split

theorem State.applyPck_keeps {b s : State} (h : Keeps b s) (c : Nat) (step : Nat) :
    Keeps b (State.applyPck s c step) := by
  unfold State.applyPck
  try dsimp only
  repeat' first
    | with_reducible assumption
    | with_reducible apply Keeps.ite
    | with_reducible apply Keeps.foldl
    | (intro _; try dsimp only)
    | split
    | refine Keeps.upd ?_ rfl rfl (by simp) rfl rfl rfl

theorem State.mashOpen_keeps {b s : State} (h : Keeps b s) (c : Nat) (step : Nat) :
    Keeps b (State.mashOpen s c step) := by
  unfold State.mashOpen
  try dsimp only
  repeat' first
    | with_reducible assumption
    | (intro _; try dsimp only)
    | refine Keeps.upd ?_ rfl rfl (by simp) rfl rfl rfl

theorem State.phaseOpen_keeps {b s : State} (h : Keeps b s) (c : Nat) :
    Keeps b (State.phaseOpen s c) := by
  unfold State.phaseOpen
  try dsimp only
  repeat' first
    | with_reducible assumption
    | with_reducible apply Keeps.ite
    | with_reducible apply State.writePhase_keeps
    | (intro _; try dsimp only)
    | split
    | refine Keeps.upd ?_ rfl rfl (by simp) rfl rfl rfl

theorem State.openStep_keeps {b s : State} (h : Keeps b s) (c : Nat) (w : Waiting) (free : Nat) :
    Keeps b (State.openStep s c w free) := by
  unfold State.openStep
  try dsimp only
  repeat' first
    | with_reducible assumption
    | with_reducible apply State.paceLaunch_keeps
    | with_reducible apply State.wearStep_keeps
    | with_reducible apply State.phaseOpen_keeps
    | with_reducible apply State.setC64_keeps
    | with_reducible apply State.setHx_keeps
    | with_reducible apply stepEnd_keeps
    | with_reducible apply State.applyPck_keeps
    | with_reducible apply State.mashOpen_keeps
    | with_reducible apply State.setGx_keeps
    | with_reducible apply State.stepCredits_keeps
    | with_reducible apply State.patStart_keeps
    | with_reducible apply State.endDesc_keeps
    | with_reducible apply State.guardOpen_keeps
    | (intro _; try dsimp only)
    | refine Keeps.upd ?_ rfl rfl (by simp) rfl rfl rfl

theorem stepEnd_keeps {b s : State} (h : Keeps b s) (c : Nat) :
    Keeps b (stepEnd c s) := by
  unfold stepEnd
  try dsimp only
  repeat' first
    | with_reducible assumption
    | with_reducible apply Keeps.ite
    | with_reducible apply State.openStep_keeps
    | split
    | refine Keeps.upd ?_ rfl rfl (by simp) rfl rfl rfl

theorem State.chargeRun_keeps {b s : State} (h : Keeps b s) (hc : Nat) :
    Keeps b (State.chargeRun s hc) := by
  unfold State.chargeRun
  try dsimp only
  repeat' first
    | with_reducible assumption
    | with_reducible apply Keeps.ite
    | with_reducible apply State.charge_keeps
    | (intro _; try dsimp only)
    | split
    | refine Keeps.upd ?_ rfl rfl (by simp) rfl rfl rfl

theorem windowEnd_keeps {b s : State} (h : Keeps b s) (run : Nat) :
    Keeps b (windowEnd run s) := by
  unfold windowEnd
  extract_lets back s1 s2 s3
  have h1 : Keeps b s1 := State.chargeRun_keeps h _
  have h2 : Keeps b s2 := Keeps.foldl _ (fun _ _ k => Keeps.ite (State.yieldEv_keeps k _ _ _) k) _ _ h1
  have h3 : Keeps b s3 := Keeps.foldl _ (fun _ _ k => State.setHx_keeps (State.setCw_keeps k _ _ _) _ _) _ _ h2
  exact Keeps.upd h3 rfl rfl (Nat.le_refl _) rfl rfl rfl

theorem State.setPw_keeps {b s : State} (h : Keeps b s) (i : Nat) (p : Nat) (w : Nat) (v : Nat) :
    Keeps b (State.setPw s i p w v) := by
  unfold State.setPw
  try dsimp only
  repeat' first
    | with_reducible assumption
    | refine Keeps.upd ?_ rfl rfl (by simp) rfl rfl rfl

theorem State.bumpPw_keeps {b s : State} (h : Keeps b s) (i : Nat) (p : Nat) (w : Nat) (n : Nat) :
    Keeps b (State.bumpPw s i p w n) := by
  unfold State.bumpPw
  try dsimp only
  repeat' first
    | with_reducible assumption
    | with_reducible apply State.setPw_keeps

theorem State.setTok_keeps {b s : State} (h : Keeps b s) (i : Nat) (c : Nat) (v : Int) :
    Keeps b (State.setTok s i c v) := by
  unfold State.setTok
  try dsimp only
  repeat' first
    | with_reducible assumption
    | refine Keeps.upd ?_ rfl rfl (by simp) rfl rfl rfl

theorem State.chargeTok_keeps {b s : State} (h : Keeps b s) (i : Nat) (c : Nat) (n : Nat) :
    Keeps b (State.chargeTok s i c n) := by
  unfold State.chargeTok
  try dsimp only
  repeat' first
    | with_reducible assumption
    | with_reducible apply State.setTok_keeps

theorem State.refillOne_keeps {b s : State} (h : Keeps b s) (i : Nat) :
    Keeps b (State.refillOne s i) := by
  unfold State.refillOne
  try dsimp only
  repeat' first
    | with_reducible assumption
    | with_reducible apply Keeps.ite
    | with_reducible apply Keeps.foldl
    | with_reducible apply State.setTok_keeps
    | with_reducible apply State.countEv_keeps
    | (intro _; try dsimp only)
    | split

theorem refill_keeps {b s : State} (h : Keeps b s) :
    Keeps b (refill s) := by
  unfold refill
  try dsimp only
  repeat' first
    | with_reducible assumption
    | with_reducible apply Keeps.foldl
    | with_reducible apply State.refillOne_keeps
    | (intro _; try dsimp only)

theorem maltRegWrite_keeps {b s : State} (h : Keeps b s) (i : Nat) (off : Nat) (v : W32) :
    Keeps b (maltRegWrite i off v s) := by
  unfold maltRegWrite
  try dsimp only
  repeat' first
    | with_reducible assumption
    | with_reducible apply Keeps.ite
    | with_reducible apply State.setRegN_keeps
    | with_reducible apply State.err_keeps
    | (intro _; try dsimp only)
    | split
    | refine Keeps.upd ?_ rfl rfl (by simp) rfl rfl rfl

theorem State.maltFail_keeps {b s : State} (h : Keeps b s) (i : Nat) (p : Nat) (k : Nat) :
    Keeps b (State.maltFail s i p k) := by
  unfold State.maltFail
  try dsimp only
  repeat' first
    | with_reducible assumption
    | with_reducible apply Keeps.ite
    | with_reducible apply State.bumpPw_keeps
    | with_reducible apply State.err_keeps
    | split

theorem State.maltSeal_keeps {b s : State} (h : Keeps b s) (i : Nat) (p : Nat) (n : Nat) (pt : Bytes) :
    Keeps b (State.maltSeal s i p n pt).2 := by
  unfold State.maltSeal
  try dsimp only
  repeat' first
    | with_reducible assumption
    | with_reducible apply Keeps.ite
    | (intro _; try dsimp only)
    | split
    | refine Keeps.upd ?_ rfl rfl (by simp) rfl rfl rfl

theorem State.maltTick_keeps {b s : State} (h : Keeps b s) :
    Keeps b (State.maltTick s).2 := by
  unfold State.maltTick
  try dsimp only
  repeat' first
    | with_reducible assumption
    | with_reducible apply Keeps.ite
    | refine Keeps.upd ?_ rfl rfl (by simp) rfl rfl rfl

theorem State.maltReq_keeps {b s : State} (h : Keeps b s) (i : Nat) (ch : Nat) (n : Nat) (k : MKind) :
    Keeps b (State.maltReq s i ch n k) := by
  unfold State.maltReq
  try dsimp only
  repeat' first
    | with_reducible assumption
    | with_reducible apply State.maltTick_keeps
    | (intro _; try dsimp only)
    | split
    | refine Keeps.upd ?_ rfl rfl (by simp) rfl rfl rfl

theorem State.dropEnt_keeps {b s : State} (h : Keeps b s) (e : MEnt) :
    Keeps b (State.dropEnt s e) := by
  unfold State.dropEnt
  try dsimp only
  repeat' first
    | with_reducible assumption
    | (intro _; try dsimp only)
    | refine Keeps.upd ?_ rfl rfl (by simp) rfl rfl rfl

theorem State.partialBase_keeps {b s : State} (h : Keeps b s) (e : MEnt) :
    Keeps b (State.partialBase s e).2 := by
  unfold State.partialBase
  try dsimp only
  repeat' first
    | with_reducible assumption
    | with_reducible apply Keeps.iteSnd
    | with_reducible apply Keeps.ite
    | with_reducible apply State.bumpPw_keeps
    | with_reducible apply State.err_keeps
    | with_reducible apply State.chargeTok_keeps
    | with_reducible apply State.maltFail_keeps
    | (intro _; try dsimp only)
    | split
    | refine Keeps.upd ?_ rfl rfl (by simp) rfl rfl rfl

theorem State.encodeNow_keeps {b s : State} (h : Keeps b s) (e : MEnt) :
    Keeps b (State.encodeNow s e) := by
  unfold State.encodeNow
  try dsimp only
  repeat' first
    | with_reducible assumption
    | with_reducible apply Keeps.ite
    | with_reducible apply State.partialBase_keeps
    | with_reducible apply State.bumpPw_keeps
    | with_reducible apply State.countEv_keeps
    | with_reducible apply State.dropEnt_keeps
    | with_reducible apply State.maltSeal_keeps
    | with_reducible apply State.maltReq_keeps
    | (intro _; try dsimp only)
    | split

theorem State.encodeEnt_keeps {b s : State} (h : Keeps b s) (e : MEnt) :
    ∀ z, State.encodeEnt s e = some z → Keeps b z := by
  intro z hz
  unfold State.encodeEnt at hz
  split at hz
  · cases hz; exact State.encodeNow_keeps h _
  · cases hz

theorem encodeWhole_keeps {b : State} (i : Nat) (l : List MEnt) : ∀ {s : State}, Keeps b s → Keeps b (encodeWhole i l s) := by
  induction l with
  | nil => intro s h; exact h
  | cons e l ih =>
    intro s h
    unfold encodeWhole
    refine Keeps.ite ?_ (ih h)
    split
    · rename_i t ht; exact ih (State.encodeEnt_keeps h _ _ ht)
    · exact h

theorem State.makeRoom_keeps {b s : State} (h : Keeps b s) (i : Nat) :
    ∀ z, State.makeRoom s i = some z → Keeps b z := by
  intro z hz
  unfold State.makeRoom at hz
  dsimp only at hz
  split at hz
  · cases hz; exact h
  · split at hz
    · cases hz; exact State.dropEnt_keeps h _
    · exact State.encodeEnt_keeps h _ _ hz
    · cases hz; exact h

theorem State.answerClient_keeps {b s : State} (h : Keeps b s) (i : Nat) (a : Nat) (k : Nat) (bs : Bytes) :
    Keeps b (State.answerClient s i a k bs) := by
  unfold State.answerClient
  try dsimp only
  repeat' first
    | with_reducible assumption
    | with_reducible apply State.emit_keeps

theorem State.clientErr_keeps {b s : State} (h : Keeps b s) (i : Nat) (p : Nat) (a : Nat) (w : Nat) :
    Keeps b (State.clientErr s i p a w) := by
  unfold State.clientErr
  try dsimp only
  repeat' first
    | with_reducible assumption
    | with_reducible apply State.bumpPw_keeps
    | with_reducible apply State.answerClient_keeps

theorem State.serveRead_keeps {b s : State} (h : Keeps b s) (i : Nat) (p : Nat) (n : Nat) (a : Nat) (len : Nat) (poison : Bool) :
    Keeps b (State.serveRead s i p n a len poison) := by
  unfold State.serveRead
  dsimp only
  refine Keeps.ite (State.clientErr_keeps h _ _ _ _) (Keeps.ite (State.answerClient_keeps (State.maltFail_keeps h _ _ _) _ _ _ _) ?_)
  split
  · exact State.answerClient_keeps (State.maltFail_keeps h _ _ _) _ _ _ _
  · rename_i bs _
    have h1 := State.answerClient_keeps (State.countEv_keeps h (mltReg i 0x1000) 0x11 1) i a 0
      ((bs.drop ((a - s.pAddr i p 1) % (s.mset i p).lb)).take len)
    refine Keeps.ite h1 ?_
    split
    · exact h1
    · rename_i s2 h2
      exact Keeps.upd (State.maltTick_keeps (State.makeRoom_keeps h1 _ _ h2)) rfl rfl (Nat.le_refl _) rfl rfl rfl

theorem State.perform_keeps {b s : State} (h : Keeps b s) (r : MReq) :
    Keeps b (State.perform s r) := by
  unfold State.perform
  try dsimp only
  repeat' first
    | with_reducible assumption
    | with_reducible apply State.busWrite_keeps
    | with_reducible apply State.serveRead_keeps
    | with_reducible apply State.countEv_keeps
    | with_reducible apply State.emit_keeps
    | (intro _; try dsimp only)
    | split
    | refine Keeps.upd ?_ rfl rfl (by simp) rfl rfl rfl

theorem State.walkOne_keeps {b s : State} (h : Keeps b s) (x : MWalk) :
    Keeps b (State.walkOne s x) := by
  unfold State.walkOne
  try dsimp only
  repeat' first
    | with_reducible assumption
    | with_reducible apply Keeps.ite
    | with_reducible apply State.maltTick_keeps
    | with_reducible apply State.maltSeal_keeps
    | with_reducible apply State.maltReq_keeps
    | with_reducible apply State.chargeTok_keeps
    | with_reducible apply State.busWrite_keeps
    | (intro _; try dsimp only)
    | split
    | refine Keeps.upd ?_ rfl rfl (by simp) rfl rfl rfl

theorem initOne_keeps {b s : State} (h : Keeps b s) (i : Nat) :
    Keeps b (initOne i s) :=
  Keeps.foldl _ (fun _ _ k => Keeps.ite (State.walkOne_keeps k _) k) _ _ h

theorem State.endWalk_keeps {b s : State} (h : Keeps b s) (i : Nat) (p : Nat) :
    Keeps b (State.endWalk s i p) := by
  unfold State.endWalk
  try dsimp only
  repeat' first
    | with_reducible assumption
    | (intro _; try dsimp only)
    | refine Keeps.upd ?_ rfl rfl (by simp) rfl rfl rfl

theorem initDone_keeps {b s : State} (h : Keeps b s) (i : Nat) (p : Nat) :
    Keeps b (initDone i p s) := by
  unfold initDone
  try dsimp only
  repeat' first
    | with_reducible assumption
    | with_reducible apply Keeps.ite
    | with_reducible apply State.endWalk_keeps
    | with_reducible apply State.setPw_keeps
    | split
    | refine Keeps.upd ?_ rfl rfl (by simp) rfl rfl rfl

theorem State.packStat_keeps {b s : State} (h : Keeps b s) (i : Nat) (result : Nat) (units : Nat) (ends : Bool) :
    Keeps b (State.packStat s i result units ends) := by
  unfold State.packStat
  try dsimp only
  repeat' first
    | with_reducible assumption
    | with_reducible apply Keeps.ite
    | with_reducible apply State.setRegN_keeps
    | with_reducible apply State.busWrite_keeps
    | (intro _; try dsimp only)
    | split

theorem State.packEnd_keeps {b s : State} (h : Keeps b s) (x : MWalk) (result : Nat) :
    Keeps b (State.packEnd s x result) := by
  unfold State.packEnd
  try dsimp only
  repeat' first
    | with_reducible assumption
    | with_reducible apply Keeps.ite
    | with_reducible apply State.endWalk_keeps
    | with_reducible apply State.setPw_keeps
    | with_reducible apply State.packStat_keeps
    | split

theorem packGo_keeps {b s : State} (h : Keeps b s) (i : Nat) (v : W32) :
    Keeps b (packGo i v s) := by
  unfold packGo
  try dsimp only
  repeat' first
    | with_reducible assumption
    | with_reducible apply Keeps.ite
    | with_reducible apply State.err_keeps
    | with_reducible apply State.setPw_keeps
    | with_reducible apply State.packStat_keeps
    | with_reducible apply State.maltTick_keeps
    | (intro _; try dsimp only)
    | split
    | refine Keeps.upd ?_ rfl rfl (by simp) rfl rfl rfl

theorem packPass1End_keeps {b s : State} (h : Keeps b s) (i : Nat) :
    Keeps b (packPass1End i s) := by
  unfold packPass1End
  try dsimp only
  repeat' first
    | with_reducible assumption
    | with_reducible apply Keeps.ite
    | with_reducible apply State.packEnd_keeps
    | (intro _; try dsimp only)
    | split
    | refine Keeps.upd ?_ rfl rfl (by simp) rfl rfl rfl

theorem packEndCmd_keeps {b s : State} (h : Keeps b s) (i : Nat) :
    Keeps b (packEndCmd i s) := by
  unfold packEndCmd
  try dsimp only
  repeat' first
    | with_reducible assumption
    | with_reducible apply Keeps.ite
    | with_reducible apply State.packEnd_keeps
    | (intro _; try dsimp only)
    | split
    | refine Keeps.upd ?_ rfl rfl (by simp) rfl rfl rfl

theorem State.present_keeps {b s : State} (h : Keeps b s) (i : Nat) (tun : Option Nat) :
    Keeps b (State.present s i tun) := by
  unfold State.present
  try dsimp only
  repeat' first
    | with_reducible assumption
    | with_reducible apply State.maltReq_keeps
    | with_reducible apply State.emit_keeps
    | split
    | refine Keeps.upd ?_ rfl rfl (by simp) rfl rfl rfl

theorem State.admitOne_keeps {b s : State} (h : Keeps b s) (i : Nat) :
    Keeps b (State.admitOne s i) := by
  unfold State.admitOne
  try dsimp only
  repeat' first
    | with_reducible assumption
    | with_reducible apply State.chargeTok_keeps
    | with_reducible apply State.perform_keeps
    | with_reducible apply State.walkOne_keeps
    | (intro _; try dsimp only)
    | split
    | refine Keeps.upd ?_ rfl rfl (by simp) rfl rfl rfl

theorem State.readPiece_keeps {b s : State} (h : Keeps b s) (i : Nat) (p : Nat) (poison : Bool) (x : Nat × Nat × Nat) :
    Keeps b (State.readPiece s i p poison x) := by
  unfold State.readPiece
  dsimp only
  have hold : ∀ hs, Keeps b { s with mlt := { s.mlt with held := hs } } := fun _ => Keeps.upd h rfl rfl (Nat.le_refl _) rfl rfl rfl
  refine Keeps.ite ?_ (Keeps.ite (hold _) ?_)
  · split
    · exact State.answerClient_keeps h _ _ _ _
    · exact State.maltReq_keeps (Keeps.ite h (State.countEv_keeps (Keeps.upd h rfl rfl (Nat.le_refl _) rfl rfl rfl) _ _ _)) _ _ _ _
  · split
    · exact State.maltReq_keeps h _ _ _ _
    · split
      · rename_i t ht
        exact State.maltReq_keeps (State.encodeEnt_keeps h _ _ ht) _ _ _ _
      · exact hold _

theorem State.retryHeld_keeps {b s : State} (h : Keeps b s) (i : Nat) :
    Keeps b (State.retryHeld s i) := by
  unfold State.retryHeld
  try dsimp only
  repeat' first
    | with_reducible assumption
    | with_reducible apply Keeps.foldl
    | with_reducible apply State.readPiece_keeps
    | (intro _; try dsimp only)
    | refine Keeps.upd ?_ rfl rfl (by simp) rfl rfl rfl

theorem channelAdmit_keeps {b s : State} (h : Keeps b s) (i : Nat) (tun : Option Nat) :
    Keeps b (channelAdmit i tun s) := by
  unfold channelAdmit
  try dsimp only
  repeat' first
    | with_reducible assumption
    | with_reducible apply initOne_keeps
    | with_reducible apply State.present_keeps
    | with_reducible apply State.admitOne_keeps
    | with_reducible apply encodeWhole_keeps
    | with_reducible apply State.retryHeld_keeps
    | (intro _; try dsimp only)

theorem clientRead_keeps {b s : State} (h : Keeps b s) (i : Nat) (a : Nat) (len : Nat) (poison : Bool) :
    Keeps b (clientRead i a len poison s) := by
  unfold clientRead
  try dsimp only
  repeat' first
    | with_reducible assumption
    | with_reducible apply Keeps.ite
    | with_reducible apply Keeps.foldl
    | with_reducible apply State.answerClient_keeps
    | with_reducible apply State.clientErr_keeps
    | with_reducible apply State.readPiece_keeps
    | (intro _; try dsimp only)
    | split
    | refine Keeps.upd ?_ rfl rfl (by simp) rfl rfl rfl

theorem State.writePiece_keeps {b s : State} (h : Keeps b s) (i : Nat) (p : Nat) (bs : Bytes) (a0 : Nat) (x : Nat × Nat × Nat) :
    ∀ z, State.writePiece s i p bs a0 x = some z → Keeps b z := by
  intro z hz
  have put : ∀ t : State, Keeps b t → ∀ (es : List MEnt) (e1 : MEnt), Keeps b
      (if e1.whole = true then ({ t with mlt := { t.mlt with ents := es } }.encodeEnt e1).getD
        { t with mlt := { t.mlt with ents := es } } else { t with mlt := { t.mlt with ents := es } }) := by
    intro t k es e1
    have h1 : Keeps b { t with mlt := { t.mlt with ents := es } } := Keeps.upd k rfl rfl (Nat.le_refl _) rfl rfl rfl
    refine Keeps.ite ?_ h1
    cases hz : State.encodeEnt { t with mlt := { t.mlt with ents := es } } e1 with
    | none => exact h1
    | some z => exact State.encodeEnt_keeps h1 _ _ hz
  unfold State.writePiece at hz
  dsimp only at hz
  split at hz
  · cases hz
  · split at hz
    · cases hz; exact put s h _ _
    · split at hz
      · cases hz
      · rename_i s1 h1
        cases hz
        exact put _ (Keeps.upd (State.maltTick_keeps (State.makeRoom_keeps h _ _ h1)) rfl rfl (Nat.le_refl _) rfl rfl rfl) _ _


theorem writePieces_keeps {b : State} (i p : Nat) (bs : Bytes) (a0 : Nat) (l : List (Nat × Nat × Nat)) :
    ∀ {s : State}, Keeps b s → ∀ z, writePieces i p bs a0 l s = some z → Keeps b z := by
  induction l with
  | nil => intro s h z hz; cases hz; exact h
  | cons x l ih =>
    intro s h z hz
    unfold writePieces at hz
    split at hz
    · rename_i t ht; exact ih (State.writePiece_keeps h _ _ _ _ _ _ ht) z hz
    · cases hz

theorem clientWrite_keeps {b s : State} (h : Keeps b s) (i : Nat) (a : Nat) (bs : Bytes) :
    Keeps b (clientWrite i a bs s) := by
  unfold clientWrite
  split
  · exact State.answerClient_keeps h _ _ _ _
  · refine Keeps.ite (State.clientErr_keeps h _ _ _ _) (Keeps.ite (State.clientErr_keeps h _ _ _ _) ?_)
    split
    · rename_i t ht; exact State.answerClient_keeps (writePieces_keeps _ _ _ _ _ h _ ht) _ _ _ _
    · exact h

theorem State.partEnable_keeps {b s : State} (h : Keeps b s) (i : Nat) (p : Nat) (w : W32) :
    Keeps b (State.partEnable s i p w) := by
  unfold State.partEnable
  try dsimp only
  repeat' first
    | with_reducible assumption
    | with_reducible apply Keeps.ite
    | with_reducible apply Keeps.foldl
    | with_reducible apply State.setPw_keeps
    | with_reducible apply State.err_keeps
    | with_reducible apply State.setTok_keeps
    | with_reducible apply State.maltTick_keeps
    | (intro _; try dsimp only)
    | split
    | refine Keeps.upd ?_ rfl rfl (by simp) rfl rfl rfl

theorem State.flushReqs_keeps {b s : State} (h : Keeps b s) (i : Nat) (p : Nat) :
    Keeps b (State.flushReqs s i p) := by
  unfold State.flushReqs
  try dsimp only
  repeat' first
    | with_reducible assumption
    | with_reducible apply Keeps.foldl
    | with_reducible apply State.chargeTok_keeps
    | with_reducible apply State.perform_keeps
    | (intro _; try dsimp only)

theorem State.partDisable_keeps {b s : State} (h : Keeps b s) (i : Nat) (p : Nat) (w : W32) :
    Keeps b (State.partDisable s i p w) := by
  unfold State.partDisable
  try dsimp only
  repeat' first
    | with_reducible assumption
    | with_reducible apply Keeps.ite
    | with_reducible apply Keeps.foldl
    | with_reducible apply State.encodeNow_keeps
    | with_reducible apply State.flushReqs_keeps
    | with_reducible apply State.readPiece_keeps
    | with_reducible apply State.endWalk_keeps
    | with_reducible apply State.packStat_keeps
    | with_reducible apply State.setPw_keeps
    | (intro _; try dsimp only)
    | split
    | refine Keeps.upd ?_ rfl rfl (by simp) rfl rfl rfl

theorem partWrite_keeps {b s : State} (h : Keeps b s) (i : Nat) (p : Nat) (w : Nat) (v0 : W32) :
    Keeps b (partWrite i p w v0 s) := by
  unfold partWrite
  try dsimp only
  repeat' first
    | with_reducible assumption
    | with_reducible apply Keeps.ite
    | with_reducible apply State.setPw_keeps
    | with_reducible apply State.err_keeps
    | with_reducible apply State.partDisable_keeps
    | with_reducible apply State.partEnable_keeps
    | (intro _; try dsimp only)
    | split

theorem State.setXing_keeps {b s : State} (h : Keeps b s) (k : Nat) (x : Xing) :
    Keeps b (State.setXing s k x) := by
  unfold State.setXing
  try dsimp only
  repeat' first
    | with_reducible assumption
    | refine Keeps.upd ?_ rfl rfl (by simp) rfl rfl rfl

theorem State.krefSettled_keeps {b s : State} (h : Keeps b s) (cls : Nat) :
    Keeps b (State.krefSettled s cls) := by
  unfold State.krefSettled
  try dsimp only
  repeat' first
    | with_reducible assumption
    | with_reducible apply Keeps.ite
    | split
    | refine Keeps.upd ?_ rfl rfl (by simp) rfl rfl rfl

theorem State.settle_keeps {b s : State} (h : Keeps b s) (cls : Nat) (idx : Nat) (x : Xing) :
    Keeps b (State.settle s cls idx x) := by
  unfold State.settle
  try dsimp only
  repeat' first
    | with_reducible assumption
    | with_reducible apply Keeps.ite
    | with_reducible apply State.err_keeps
    | with_reducible apply State.setXing_keeps
    | with_reducible apply State.krefSettled_keeps
    | with_reducible apply State.emit_keeps
    | with_reducible apply State.portGood_keeps
    | (intro _; try dsimp only)
    | split

theorem State.cmdStart_keeps {b s : State} (h : Keeps b s) (op : Nat) :
    Keeps b (State.cmdStart s op) := by
  unfold State.cmdStart
  try dsimp only
  repeat' first
    | with_reducible assumption
    | with_reducible apply krdyEdge_keeps
    | with_reducible apply State.setReg_keeps
    | with_reducible apply State.countEv_keeps
    | (intro _; try dsimp only)
    | refine Keeps.upd ?_ rfl rfl (by simp) rfl rfl rfl

theorem State.cmdEnd_keeps {b s : State} (h : Keeps b s) (result : Nat) :
    Keeps b (State.cmdEnd s result) := by
  unfold State.cmdEnd
  try dsimp only
  repeat' first
    | with_reducible assumption
    | with_reducible apply Keeps.ite
    | with_reducible apply State.setRegN_keeps
    | with_reducible apply State.err_keeps
    | with_reducible apply State.countEv_keeps
    | with_reducible apply krdyEdge_keeps
    | (intro _; try dsimp only)
    | split
    | refine Keeps.upd ?_ rfl rfl (by simp) rfl rfl rfl

theorem State.alignDone_keeps {b s : State} (h : Keeps b s) (cls : Nat) (idx : Nat) :
    Keeps b (State.alignDone s cls idx) := by
  unfold State.alignDone
  try dsimp only
  repeat' first
    | with_reducible assumption
    | with_reducible apply Keeps.ite
    | with_reducible apply State.countEv_keeps
    | with_reducible apply State.cmdEnd_keeps
    | split

theorem State.alignCmd_keeps {b s : State} (h : Keeps b s) (cls : Nat) (idx : Nat) :
    Keeps b (State.alignCmd s cls idx) := by
  unfold State.alignCmd
  try dsimp only
  repeat' first
    | with_reducible assumption
    | with_reducible apply Keeps.ite
    | with_reducible apply State.cmdEnd_keeps
    | with_reducible apply State.setXing_keeps
    | with_reducible apply State.settle_keeps
    | with_reducible apply State.alignDone_keeps
    | with_reducible apply State.portBad_keeps
    | (intro _; try dsimp only)
    | split

theorem State.setPower_keeps {b s : State} (h : Keeps b s) (v : Nat) :
    Keeps b (State.setPower s v) := by
  unfold State.setPower
  try dsimp only
  repeat' first
    | with_reducible assumption
    | refine Keeps.upd ?_ rfl rfl (by simp) rfl rfl rfl

theorem State.reopen_keeps {b s : State} (h : Keeps b s) (k : Nat) :
    Keeps b (State.reopen s k) := by
  unfold State.reopen
  try dsimp only
  repeat' first
    | with_reducible assumption
    | with_reducible apply Keeps.ite
    | with_reducible apply State.settle_keeps
    | with_reducible apply State.setXing_keeps
    | split

theorem State.sramGone_keeps {b s : State} (h : Keeps b s) : Keeps b (State.sramGone s) :=
  h.trans ⟨⟨rfl, id, Nat.le_refl s.fresh, List.suffix_refl s.out⟩, rfl, rfl⟩

theorem State.sramClear_grows {b s : State} (h : Grows b s) : Grows b (State.sramClear s) :=
  (h.step (State.sramGone_keeps (Keeps.refl s))).trans ⟨rfl, id, Nat.le_refl s.fresh, List.suffix_refl s.out⟩

theorem State.leavePark_keeps {b s : State} (h : Keeps b s) : Keeps b (State.leavePark s) := by
  refine krdyEdge_keeps (Keeps.foldl State.reopen (fun _ _ k => State.reopen_keeps k _) parkXings _ ?_) _
  exact Keeps.upd (State.setPower_keeps (State.sramGone_keeps h) 4) rfl rfl (Nat.le_refl _) rfl rfl rfl


theorem State.powerCmd_keeps {b s : State} (h : Keeps b s) (k : Nat) :
    Keeps b (State.powerCmd s k) := by
  unfold State.powerCmd
  try dsimp only
  repeat' first
    | with_reducible assumption
    | with_reducible apply Keeps.ite
    | with_reducible apply State.cmdEnd_keeps
    | with_reducible apply State.leavePark_keeps
    | with_reducible apply State.setPower_keeps
    | split

theorem ctlCmd_keeps {b s : State} (h : Keeps b s) (v : W32) :
    Keeps b (ctlCmd v s) := by
  unfold ctlCmd
  try dsimp only
  repeat' first
    | with_reducible assumption
    | with_reducible apply Keeps.ite
    | with_reducible apply State.cmdStart_keeps
    | with_reducible apply State.cmdEnd_keeps
    | with_reducible apply State.alignCmd_keeps
    | with_reducible apply State.powerCmd_keeps
    | (intro _; try dsimp only)
    | split

theorem keyEnds_grows {b s : State} (h : Grows b s) (op : Nat) :
    Grows b (keyEnds op s) := by
  unfold keyEnds
  refine Grows.ite h (Grows.ite (h.step (State.cmdEnd_keeps (Keeps.refl _) _))
    (Grows.step ?_ (State.cmdEnd_keeps (Keeps.refl _) _)))
  exact Grows.upd h rfl rfl (Nat.le_refl _) rfl

theorem scanEnds_keeps {b s : State} (h : Keeps b s) :
    Keeps b (scanEnds s) := by
  unfold scanEnds
  try dsimp only
  repeat' first
    | with_reducible assumption
    | with_reducible apply Keeps.ite
    | with_reducible apply State.scanReq_keeps
    | with_reducible apply State.cmdEnd_keeps
    | split

theorem abortCmd_keeps {b s : State} (h : Keeps b s) (v : W32) :
    Keeps b (abortCmd v s) := by
  unfold abortCmd
  try dsimp only
  repeat' first
    | with_reducible assumption
    | with_reducible apply Keeps.ite
    | with_reducible apply State.cmdEnd_keeps
    | with_reducible apply State.settle_keeps
    | with_reducible apply State.countEv_keeps
    | (intro _; try dsimp only)
    | split

theorem State.enterPark_grows {b s : State} (h : Grows b s)  :
    Grows b (State.enterPark s) := by
  unfold State.enterPark
  have h1 := Keeps.foldl (b := s) (fun t p => t.portBad p) (fun _ _ k => State.portBad_keeps k _) (List.range 16) _ (Keeps.refl s)
  have h2 := State.sramClear_grows (h.step h1)
  have h3 := fun t => Keeps.foldl (b := t) (fun t k => t.settle (k / 64) (k % 64) .absent)
    (fun _ _ k => State.settle_keeps k _ _ _) parkXings _ (Keeps.refl t)
  exact (h2.step (h3 _)).step (State.setPower_keeps (State.timeParks_keeps (Keeps.refl _)) _)


theorem powerDone_grows {b s : State} (h : Grows b s)  :
    Grows b (powerDone s) := by
  unfold powerDone
  refine Grows.ite h (Grows.ite ((State.enterPark_grows h).step (State.cmdEnd_keeps (Keeps.refl _) _)) (Grows.ite ?_ h))
  exact h.step (State.cmdEnd_keeps (State.timeWakes_keeps (State.setPower_keeps (Keeps.refl _) _)) _)

theorem State.phaseEnds_keeps {b s : State} (h : Keeps b s) (cls : Nat) (idx : Nat) (ph : Xing) (x : Xing) :
    Keeps b (State.phaseEnds s cls idx ph x) := by
  unfold State.phaseEnds
  try dsimp only
  repeat' first
    | with_reducible assumption
    | with_reducible apply Keeps.ite
    | with_reducible apply State.setXing_keeps
    | with_reducible apply State.settle_keeps
    | with_reducible apply State.alignDone_keeps
    | with_reducible apply krdyEdge_keeps
    | split

theorem alignPresence_keeps {b s : State} (h : Keeps b s) (edge : Bool) :
    Keeps b (alignPresence edge s) := by
  unfold alignPresence
  try dsimp only
  repeat' first
    | with_reducible assumption
    | with_reducible apply Keeps.ite
    | with_reducible apply Keeps.foldl
    | with_reducible apply State.settle_keeps
    | with_reducible apply State.alignDone_keeps
    | with_reducible apply krdyEdge_keeps
    | with_reducible apply State.setXing_keeps
    | (intro _; try dsimp only)
    | split

theorem State.blockReset_grows {b s : State} (h : Grows b s) (epoch : Nat) (t : TimeSt) :
    Grows b (State.blockReset s epoch t) := by
  have h1 : ∀ r : SMap W32, Grows b { State.reset with
      pending := s.pending, out := s.out, fresh := s.fresh, mem := s.mem, time := { t with tickHigh := 0 }, regs := r } :=
    fun r => h.trans ⟨rfl, id, Nat.le_refl _, List.suffix_refl _⟩
  unfold State.blockReset
  refine Grows.ite (Grows.step ?_ (State.emit_keeps (Keeps.refl _) _)) ?_ <;>
    exact Grows.ite ((h1 _).step (State.emit_keeps (Keeps.refl _) _)) (h1 _)

theorem coldReset_grows {b s : State} (h : Grows b s)  :
    Grows b (coldReset s) := by
  unfold coldReset
  try dsimp only
  repeat' first
    | with_reducible assumption
    | with_reducible apply Grows.ite
    | with_reducible apply State.blockReset_grows
    | (intro _; try dsimp only)
    | split
    | refine Grows.upd ?_ rfl rfl (by first | exact Nat.le_refl _ | exact Nat.le_succ _ | omega) rfl

theorem State.pulse_keeps {b s : State} (h : Keeps b s) (least : Nat) (cycles : Nat) :
    Keeps b (State.pulse s least cycles).2 := by
  unfold State.pulse
  try dsimp only
  repeat' first
    | with_reducible assumption
    | with_reducible apply Keeps.iteSnd
    | with_reducible apply Keeps.ite
    | split
    | refine Keeps.upd ?_ rfl rfl (by simp) rfl rfl rfl

theorem State.krdyDip_keeps {b s : State} (h : Keeps b s) :
    Keeps b (State.krdyDip s) := by
  unfold State.krdyDip
  try dsimp only
  repeat' first
    | with_reducible assumption
    | with_reducible apply Keeps.ite
    | with_reducible apply State.emit_keeps
    | with_reducible apply State.countEv_keeps
    | split

theorem warmReset_grows {b s : State} (h : Grows b s) (cycles : Nat) :
    Grows b (warmReset cycles s) := by
  unfold warmReset
  refine Grows.ite h ?_
  have h1 := h.step (State.pulse_keeps (Keeps.refl s) 100 cycles)
  exact Grows.ite (State.blockReset_grows h1 _ _) (h1.step (State.krdyDip_keeps (Keeps.refl _)))

theorem resetRelease_keeps {b s : State} (h : Keeps b s) :
    Keeps b (resetRelease s) := by
  unfold resetRelease
  try dsimp only
  repeat' first
    | with_reducible assumption
    | with_reducible apply Keeps.ite
    | split
    | refine Keeps.upd ?_ rfl rfl (by simp) rfl rfl rfl

theorem sramInitDone_keeps {b s : State} (h : Keeps b s) :
    Keeps b (sramInitDone s) := by
  unfold sramInitDone
  try dsimp only
  repeat' first
    | with_reducible assumption
    | with_reducible apply Keeps.ite
    | with_reducible apply krdyEdge_keeps
    | split
    | refine Keeps.upd ?_ rfl rfl (by simp) rfl rfl rfl

end Sys2Proof.Machine
end

