-- ==== Sys2Proof/Laws/KeepsKcp.lean ====
section
/-! SUPPORT. What windows and the control port keep of a state (Laws/Keeps): one lemma for each operation. -/
namespace Sys2Proof.Machine
open Sys2Proof

theorem State.holdMode_keeps {b s : State} (h : Keeps b s) (kind : Nat) (rec : Nat) (w : Nat) (c : Nat) (old : W32) (v : W32) :
    Keeps b (State.holdMode s kind rec w c old v).2 := by
  unfold State.holdMode
  try dsimp only
  repeat' first
    | with_reducible assumption
    | with_reducible apply Keeps.iteSnd
    | with_reducible apply Keeps.ite
    | with_reducible apply State.setHeld_keeps
    | (intro _; try dsimp only)
    | split

theorem State.recheck_keeps {b s : State} (h : Keeps b s) (c : Nat) :
    Keeps b (State.recheck s c) := by
  unfold State.recheck
  try dsimp only
  repeat' first
    | with_reducible assumption
    | with_reducible apply Keeps.ite
    | with_reducible apply State.setHx_keeps
    | split
    | refine Keeps.upd ?_ rfl rfl (by simp) rfl rfl rfl

theorem State.ctxPut_keeps {b s : State} (h : Keeps b s) (c : Nat) (w : Nat) (v : W32) :
    Keeps b (State.ctxPut s c w v) := by
  unfold State.ctxPut
  try dsimp only
  repeat' first
    | with_reducible assumption
    | with_reducible apply Keeps.ite
    | with_reducible apply State.recheck_keeps
    | with_reducible apply loadCtx_keeps
    | with_reducible apply State.setCf_keeps
    | with_reducible apply State.holdMode_keeps
    | with_reducible apply State.setCw_keeps
    | (intro _; try dsimp only)
    | split

theorem State.polPut_keeps {b s : State} (h : Keeps b s) (t : Nat) (w : Nat) (v : W32) :
    Keeps b (State.polPut s t w v) := by
  unfold State.polPut
  try dsimp only
  repeat' first
    | with_reducible assumption
    | with_reducible apply Keeps.ite
    | with_reducible apply State.holdMode_keeps
    | (intro _; try dsimp only)
    | split
    | refine Keeps.upd ?_ rfl rfl (by simp) rfl rfl rfl

theorem State.codecPut_keeps {b s : State} (h : Keeps b s) (t : Nat) (w : Nat) (v : W32) :
    Keeps b (State.codecPut s t w v) := by
  unfold State.codecPut
  try dsimp only
  repeat' first
    | with_reducible assumption
    | with_reducible apply Keeps.ite
    | with_reducible apply State.holdMode_keeps
    | (intro _; try dsimp only)
    | split
    | refine Keeps.upd ?_ rfl rfl (by simp) rfl rfl rfl

theorem State.mashPut_keeps {b s : State} (h : Keeps b s) (t : Nat) (w : Nat) (v : W32) :
    Keeps b (State.mashPut s t w v) := by
  unfold State.mashPut
  try dsimp only
  repeat' first
    | with_reducible assumption
    | with_reducible apply Keeps.ite
    | (intro _; try dsimp only)
    | split
    | refine Keeps.upd ?_ rfl rfl (by simp) rfl rfl rfl

theorem State.updFresh_keeps {b s : State} (h : Keeps b s) (u : Nat) (rule : Nat) :
    Keeps b (State.updFresh s u rule) := by
  unfold State.updFresh
  try dsimp only
  repeat' first
    | with_reducible assumption
    | with_reducible apply Keeps.ite
    | with_reducible apply State.setU64_keeps
    | with_reducible apply State.setUw_keeps
    | with_reducible apply State.setRegion_keeps
    | (intro _; try dsimp only)
    | split
    | refine Keeps.upd ?_ rfl rfl (by simp) rfl rfl rfl

theorem State.updPut_keeps {b s : State} (h : Keeps b s) (u : Nat) (w : Nat) (v : W32) :
    Keeps b (State.updPut s u w v) := by
  unfold State.updPut
  try dsimp only
  repeat' first
    | with_reducible assumption
    | with_reducible apply Keeps.ite
    | with_reducible apply State.holdMode_keeps
    | with_reducible apply State.updFresh_keeps
    | (intro _; try dsimp only)
    | split
    | refine Keeps.upd ?_ rfl rfl (by simp) rfl rfl rfl

theorem State.guardPut_keeps {b s : State} (h : Keeps b s) (c : Nat) (w : Nat) (v : W32) :
    Keeps b (State.guardPut s c w v) := by
  unfold State.guardPut
  try dsimp only
  repeat' first
    | with_reducible assumption
    | with_reducible apply Keeps.ite
    | with_reducible apply State.holdMode_keeps
    | (intro _; try dsimp only)
    | split
    | refine Keeps.upd ?_ rfl rfl (by simp) rfl rfl rfl

theorem State.keyPut_keeps {b s : State} (h : Keeps b s) (d : Nat) (lo : Option W32) (hi : W32) :
    Keeps b (State.keyPut s d lo hi) := by
  unfold State.keyPut
  try dsimp only
  repeat' first
    | with_reducible assumption
    | (intro _; try dsimp only)
    | split
    | refine Keeps.upd ?_ rfl rfl (by simp) rfl rfl rfl

theorem State.domPut_keeps {b s : State} (h : Keeps b s) (d : Nat) (w : Nat) (lo : Option W32) (v : W32) :
    Keeps b (State.domPut s d w lo v) := by
  unfold State.domPut
  try dsimp only
  repeat' first
    | with_reducible assumption
    | with_reducible apply Keeps.ite
    | with_reducible apply State.keyPut_keeps
    | with_reducible apply State.setDw_keeps
    | with_reducible apply State.err_keeps
    | with_reducible apply State.setArrival_keeps
    | (intro _; try dsimp only)
    | split
    | refine Keeps.upd ?_ rfl rfl (by simp) rfl rfl rfl

theorem State.winPut_keeps {b s : State} (h : Keeps b s) (a : Nat) (sel : Nat) (w : Nat) (lo : Option W32) (v : W32) :
    Keeps b (State.winPut s a sel w lo v) := by
  unfold State.winPut
  try dsimp only
  repeat' first
    | with_reducible assumption
    | with_reducible apply Keeps.ite
    | with_reducible apply State.ctxPut_keeps
    | with_reducible apply State.polPut_keeps
    | with_reducible apply State.codecPut_keeps
    | with_reducible apply State.mashPut_keeps
    | with_reducible apply State.updPut_keeps
    | with_reducible apply State.domPut_keeps
    | with_reducible apply State.setQw_keeps
    | with_reducible apply partWrite_keeps
    | with_reducible apply State.guardPut_keeps
    | (intro _; try dsimp only)
    | split
    | refine Keeps.upd ?_ rfl rfl (by simp) rfl rfl rfl

theorem winRefuse_busy {s : State} {no : Bool} {pg i : Nat} {t : State} {y : Bool} {b : State} (h : Keeps b s)
    (e : (if no = true then some (s.err pg i, true) else none) = some (t, y)) : Keeps b t := by
  split at e
  · cases e; exact State.err_keeps h _ _
  · cases e
theorem State.winRefuse_keeps {b s : State} (h : Keeps b s) (a sel w : Nat) (v : W32) (t : State) (y : Bool)
    (e : s.winRefuse a sel w v = some (t, y)) : Keeps b t := by
  unfold State.winRefuse at e
  dsimp only at e
  split at e
  · split at e
    · cases e
    · cases e; exact State.err_keeps h _ _
  · split at e
    · exact winRefuse_busy h e
    · exact winRefuse_busy h e
  all_goals first | exact winRefuse_busy h e | cases e

theorem State.setPair_keeps {b s : State} (h : Keeps b s) (k : Nat) (p : Pair) :
    Keeps b (State.setPair s k p) := by
  unfold State.setPair
  try dsimp only
  repeat' first
    | with_reducible assumption
    | refine Keeps.upd ?_ rfl rfl (by simp) rfl rfl rfl

theorem State.unstage_keeps {b s : State} (h : Keeps b s) (k : Nat) :
    Keeps b (State.unstage s k) := by
  unfold State.unstage
  try dsimp only
  repeat' first
    | with_reducible assumption
    | with_reducible apply Keeps.foldl
    | with_reducible apply State.setPair_keeps
    | (intro _; try dsimp only)
    | refine Keeps.upd ?_ rfl rfl (by simp) rfl rfl rfl

theorem State.winNext_keeps {b s : State} (h : Keeps b s) (a : Nat) (w : Win) :
    Keeps b (State.winNext s a w) := by
  unfold State.winNext
  try dsimp only
  repeat' first
    | with_reducible assumption
    | with_reducible apply State.setReg_keeps
    | (intro _; try dsimp only)

theorem State.readWin_keeps {b s : State} (h : Keeps b s) (a : Nat) (x : Win) :
    Keeps b (State.readWin s a x).2 := by
  unfold State.readWin
  try dsimp only
  repeat' first
    | with_reducible assumption
    | with_reducible apply Keeps.iteSnd
    | with_reducible apply Keeps.ite
    | with_reducible apply State.latch_keeps
    | with_reducible apply State.setPair_keeps
    | with_reducible apply State.winNext_keeps
    | (intro _; try dsimp only)
    | split
    | refine Keeps.upd ?_ rfl rfl (by simp) rfl rfl rfl

theorem State.writeWin_keeps {b s : State} (h : Keeps b s) (a : Nat) (x : Win) (v : W32) :
    Keeps b (State.writeWin s a x v).1 := by
  have put : ∀ t p, Keeps b t → Keeps b ((t.unstage a).setPair a p) :=
    fun _ _ k => State.setPair_keeps (State.unstage_keeps k _) _ _
  unfold State.writeWin
  dsimp only
  refine Keeps.iteFst (State.winNext_keeps h _ _) ?_
  split
  · rename_i t ht; exact State.winNext_keeps (put _ _ (State.winRefuse_keeps h _ _ _ _ _ _ ht)) _ _
  · rename_i t ht; exact State.winRefuse_keeps h _ _ _ _ _ _ ht
  · exact Keeps.iteFst (State.winNext_keeps (put _ _ h) _ _)
      (State.winNext_keeps (State.winPut_keeps (put _ _ h) _ _ _ _ _) _ _)

theorem State.quiesceOn_keeps {b s : State} (h : Keeps b s) (pg : Nat) :
    Keeps b (State.quiesceOn s pg) := by
  unfold State.quiesceOn
  try dsimp only
  repeat' first
    | with_reducible assumption
    | with_reducible apply Keeps.ite
    | with_reducible apply State.setRegN_keeps
    | split

theorem State.quiesceOff_keeps {b s : State} (h : Keeps b s) (pg : Nat) :
    Keeps b (State.quiesceOff s pg) := by
  unfold State.quiesceOff
  try dsimp only
  repeat' first
    | with_reducible assumption
    | with_reducible apply Keeps.ite
    | with_reducible apply State.setRegN_keeps
    | with_reducible apply State.idenKick_keeps
    | with_reducible apply State.ptFlush_keeps
    | (intro _; try dsimp only)
    | split
    | refine Keeps.upd ?_ rfl rfl (by simp) rfl rfl rfl

theorem quiescedEv_keeps {b s : State} (h : Keeps b s) (pg : Nat) :
    Keeps b (quiescedEv pg s) := by
  unfold quiescedEv
  try dsimp only
  repeat' first
    | with_reducible assumption
    | with_reducible apply Keeps.ite
    | with_reducible apply State.setRegN_keeps
    | split

theorem State.setWide_keeps {b s : State} (h : Keeps b s) (a : Nat) (v : Nat) :
    Keeps b (State.setWide s a v) := by
  unfold State.setWide
  try dsimp only
  repeat' first
    | with_reducible assumption
    | (intro _; try dsimp only)
    | refine Keeps.upd ?_ rfl rfl (by simp) rfl rfl rfl

theorem State.softFields_keeps {b s : State} (h : Keeps b s) (pg : Nat) :
    Keeps b (State.softFields s pg) := by
  unfold State.softFields
  try dsimp only
  repeat' first
    | with_reducible assumption
    | with_reducible apply State.syncOff_keeps
    | with_reducible apply State.setWide_keeps
    | split
    | refine Keeps.upd ?_ rfl rfl (by simp) rfl rfl rfl

theorem State.softReset_keeps {b s : State} (h : Keeps b s) (pg : Nat) :
    Keeps b (State.softReset s pg) := by
  unfold State.softReset
  try dsimp only
  repeat' first
    | with_reducible assumption
    | with_reducible apply State.softFields_keeps
    | with_reducible apply krdyEdge_keeps
    | (intro _; try dsimp only)
    | refine Keeps.upd ?_ rfl rfl (by simp) rfl rfl rfl

theorem State.unrecord_keeps {b s : State} (h : Keeps b s) (pg : Nat) (gone : Nat) :
    Keeps b (State.unrecord s pg gone) := by
  unfold State.unrecord
  try dsimp only
  repeat' first
    | with_reducible assumption
    | with_reducible apply Keeps.ite
    | with_reducible apply State.setRegN_keeps
    | (intro _; try dsimp only)
    | split
    | refine Keeps.upd ?_ rfl rfl (by simp) rfl rfl rfl

theorem State.errClear_keeps {b s : State} (h : Keeps b s) (pg : Nat) (v : W32) (meet : W32) :
    Keeps b (State.errClear s pg v meet) := by
  unfold State.errClear
  try dsimp only
  repeat' first
    | with_reducible assumption
    | with_reducible apply Keeps.ite
    | with_reducible apply State.err_keeps
    | with_reducible apply State.raise_keeps
    | with_reducible apply State.setRegN_keeps
    | with_reducible apply State.unrecord_keeps
    | with_reducible apply State.attend_keeps
    | (intro _; try dsimp only)
    | split
    | refine Keeps.upd ?_ rfl rfl (by simp) rfl rfl rfl

theorem State.attnClear_keeps {b s : State} (h : Keeps b s) (v : W32) (meet : W32) :
    Keeps b (State.attnClear s v meet) := by
  unfold State.attnClear
  try dsimp only
  repeat' first
    | with_reducible assumption
    | with_reducible apply Keeps.ite
    | with_reducible apply State.countEv_keeps
    | with_reducible apply krdyEdge_keeps
    | with_reducible apply State.setRegN_keeps
    | (intro _; try dsimp only)
    | split

theorem State.pgCtrl_keeps {b s : State} (h : Keeps b s) (pg : Nat) (v : W32) :
    Keeps b (State.pgCtrl s pg v).1 := by
  unfold State.pgCtrl
  try dsimp only
  repeat' first
    | with_reducible assumption
    | with_reducible apply Keeps.iteFst
    | with_reducible apply Keeps.ite
    | with_reducible apply State.softReset_keeps
    | with_reducible apply State.err_keeps
    | with_reducible apply State.setReg_keeps
    | with_reducible apply State.quiesceOn_keeps
    | with_reducible apply State.quiesceOff_keeps
    | (intro _; try dsimp only)
    | split

theorem State.setUnlock_keeps {b0 s : State} (h : Keeps b0 s) (pg : Nat) (b : Bool) :
    Keeps b0 (State.setUnlock s pg b) := by
  unfold State.setUnlock
  try dsimp only
  repeat' first
    | with_reducible assumption
    | (intro _; try dsimp only)
    | refine Keeps.upd ?_ rfl rfl (by simp) rfl rfl rfl

theorem State.headWrite_keeps {b s : State} (h : Keeps b s) (pg : Nat) (o : Nat) (v : W32) (meet : W32) :
    Keeps b (State.headWrite s pg o v meet).1 := by
  unfold State.headWrite
  try dsimp only
  repeat' first
    | with_reducible assumption
    | with_reducible apply Keeps.iteFst
    | with_reducible apply Keeps.ite
    | with_reducible apply State.setUnlock_keeps
    | with_reducible apply State.err_keeps
    | with_reducible apply State.pgCtrl_keeps
    | with_reducible apply State.errClear_keeps
    | with_reducible apply State.raise_keeps
    | with_reducible apply State.setRegN_keeps
    | split
    | refine Keeps.upd ?_ rfl rfl (by simp) rfl rfl rfl

theorem State.pairWrite_keeps {b s : State} (h : Keeps b s) (lo : Nat) (a : Nat) (m : Nat) (v : W32) :
    Keeps b (State.pairWrite s lo a m v) := by
  unfold State.pairWrite
  try dsimp only
  repeat' first
    | with_reducible assumption
    | with_reducible apply Keeps.ite
    | with_reducible apply State.unstage_keeps
    | with_reducible apply State.setPair_keeps
    | with_reducible apply State.setReg_keeps
    | with_reducible apply State.curtChange_keeps
    | (intro _; try dsimp only)
    | split
    | refine Keeps.upd ?_ rfl rfl (by simp) rfl rfl rfl

theorem State.unpair_keeps {b s : State} (h : Keeps b s) (a : Nat) :
    Keeps b (State.unpair s a) := by
  unfold State.unpair
  try dsimp only
  repeat' first
    | with_reducible assumption
    | with_reducible apply State.setPair_keeps
    | split
    | refine Keeps.upd ?_ rfl rfl (by simp) rfl rfl rfl

theorem State.afterReg_keeps {b s : State} (h : Keeps b s) (a : Nat) :
    Keeps b (State.afterReg s a) := by
  unfold State.afterReg
  try dsimp only
  repeat' first
    | with_reducible assumption
    | with_reducible apply Keeps.ite
    | with_reducible apply State.err_keeps
    | with_reducible apply State.watchStart_keeps
    | with_reducible apply State.curtChange_keeps
    | with_reducible apply State.unpair_keeps
    | split

theorem State.putReg_keeps {b s : State} (h : Keeps b s) (a : Nat) (v : W32) :
    Keeps b (State.putReg s a v) := by
  unfold State.putReg
  try dsimp only
  repeat' first
    | with_reducible assumption
    | with_reducible apply Keeps.ite
    | with_reducible apply State.err_keeps
    | with_reducible apply State.pairWrite_keeps
    | with_reducible apply State.setReg_keeps
    | with_reducible apply State.afterReg_keeps
    | split
    | refine Keeps.upd ?_ rfl rfl (by simp) rfl rfl rfl

theorem State.bodyWrite_keeps {b s : State} (h : Keeps b s) (a : Nat) (v : W32) (meet : W32) :
    Keeps b (State.bodyWrite s a v meet).1 := by
  unfold State.bodyWrite
  try dsimp only
  repeat' first
    | with_reducible assumption
    | with_reducible apply Keeps.iteFst
    | with_reducible apply Keeps.ite
    | with_reducible apply State.writeWin_keeps
    | with_reducible apply State.attnClear_keeps
    | with_reducible apply abortCmd_keeps
    | with_reducible apply ctlCmd_keeps
    | with_reducible apply timeCtrl_keeps
    | with_reducible apply timeHoldMax_keeps
    | with_reducible apply checkGo_keeps
    | with_reducible apply ringDb_keeps
    | with_reducible apply ctxReset_keeps
    | with_reducible apply tngDb_keeps
    | with_reducible apply State.queueReset_keeps
    | with_reducible apply packGo_keeps
    | with_reducible apply gctrlWrite_keeps
    | with_reducible apply verdictForce_keeps
    | with_reducible apply parkCmd_keeps
    | with_reducible apply wearCtrl_keeps
    | with_reducible apply wearSel_keeps
    | with_reducible apply wearData_keeps
    | with_reducible apply maltRegWrite_keeps
    | with_reducible apply State.putReg_keeps
    | (intro _; try dsimp only)
    | split
    | refine Keeps.upd ?_ rfl rfl (by simp) rfl rfl rfl

theorem State.countPg_keeps {b s : State} (h : Keeps b s) (pg : Nat) (ev : Nat) :
    Keeps b (State.countPg s pg ev) := by
  unfold State.countPg
  try dsimp only
  repeat' first
    | with_reducible assumption
    | with_reducible apply Keeps.ite
    | with_reducible apply State.countEv_keeps
    | split

theorem hostWrite_keeps {b s : State} (h : Keeps b s) (a0 : Nat) (v : W32) (meet : W32) :
    Keeps b (hostWrite a0 v meet s).1 := by
  unfold hostWrite
  try dsimp only
  repeat' first
    | with_reducible assumption
    | with_reducible apply Keeps.iteFst
    | with_reducible apply Keeps.ite
    | with_reducible apply State.setUnlock_keeps
    | with_reducible apply State.countPg_keeps
    | with_reducible apply State.err_keeps
    | with_reducible apply State.headWrite_keeps
    | with_reducible apply State.bodyWrite_keeps
    | with_reducible apply State.setRegN_keeps
    | (intro _; try dsimp only)
    | split

theorem hostRead_keeps {b s : State} (h : Keeps b s) (a0 : Nat) :
    Keeps b (hostRead a0 s).2 := by
  unfold hostRead
  try dsimp only
  repeat' first
    | with_reducible assumption
    | with_reducible apply Keeps.iteSnd
    | with_reducible apply Keeps.ite
    | with_reducible apply State.readWin_keeps
    | with_reducible apply State.wearRead_keeps
    | with_reducible apply State.setRegN_keeps
    | with_reducible apply State.setReg_keeps
    | with_reducible apply State.setPair_keeps
    | with_reducible apply State.latch_keeps
    | (intro _; try dsimp only)
    | split
    | refine Keeps.upd ?_ rfl rfl (by simp) rfl rfl rfl

theorem kcpDo_keeps {b s : State} (h : Keeps b s) (q : KcpReq) :
    Keeps b (kcpDo q s) := by
  unfold kcpDo
  try dsimp only
  repeat' first
    | with_reducible assumption
    | with_reducible apply Keeps.ite
    | with_reducible apply hostWrite_keeps
    | with_reducible apply hostRead_keeps
    | with_reducible apply State.err_keeps
    | with_reducible apply State.emit_keeps
    | (intro _; try dsimp only)
    | split

theorem kcp_keeps {b s : State} (h : Keeps b s) (q : KcpReq) :
    Keeps b (kcp q s) := by
  unfold kcp
  try dsimp only
  repeat' first
    | with_reducible assumption
    | with_reducible apply Keeps.ite
    | with_reducible apply kcpDo_keeps
    | split
    | refine Keeps.upd ?_ rfl rfl (by simp) rfl rfl rfl

theorem kcpAlign_keeps {b s : State} (h : Keeps b s) :
    Keeps b (kcpAlign s) := by
  unfold kcpAlign
  try dsimp only
  repeat' first
    | with_reducible assumption
    | with_reducible apply Keeps.ite
    | with_reducible apply krdyEdge_keeps
    | with_reducible apply kcpDo_keeps
    | (intro _; try dsimp only)
    | split
    | refine Keeps.upd ?_ rfl rfl (by simp) rfl rfl rfl

theorem kcpReset_keeps {b s : State} (h : Keeps b s) (cycles : Nat) (req : Option KcpReq) (reached : Bool) :
    Keeps b (kcpReset cycles req reached s) := by
  unfold kcpReset
  try dsimp only
  repeat' first
    | with_reducible assumption
    | with_reducible apply Keeps.ite
    | with_reducible apply State.pulse_keeps
    | with_reducible apply hostWrite_keeps
    | with_reducible apply krdyEdge_keeps
    | with_reducible apply kcp_keeps
    | (intro _; try dsimp only)
    | split
    | refine Keeps.upd ?_ rfl rfl (by simp) rfl rfl rfl

theorem kcpWrite_keeps {b s : State} (h : Keeps b s) (a : Nat) (v : W32) :
    Keeps b (kcpWrite a v s) := by
  unfold kcpWrite
  try dsimp only
  repeat' first
    | with_reducible assumption
    | with_reducible apply kcp_keeps
    | refine Keeps.upd ?_ rfl rfl (by simp) rfl rfl rfl

theorem kcpRead_keeps {b s : State} (h : Keeps b s) (a : Nat) :
    Keeps b (kcpRead a s) := by
  unfold kcpRead
  try dsimp only
  repeat' first
    | with_reducible assumption
    | with_reducible apply kcp_keeps
    | refine Keeps.upd ?_ rfl rfl (by simp) rfl rfl rfl

end Sys2Proof.Machine
end

