-- ==== Sys2Proof/Laws/Exec.lean ====
section
/-! SUPPORT. What every command leaves of a state: all but the six named by `movesTimeOrKeys` leave KTIME and the sealed keys as
they are (`Keeps`), and these six leave the queue and keep memory canonical (`Grows`). -/
namespace Sys2Proof.Machine
open Sys2Proof

/-- The commands that may move KTIME or change the sealed keys. -/
def movesTimeOrKeys : Instr → Bool
  | .keyLoad _ => true
  | .keyErase _ => true
  | .powerStateDone => true
  | .coldReset => true
  | .warmReset _ => true
  | .delayResp _ _ _ _ => true
  | _ => false

theorem done_keeps {s t u : State} (k : Keeps s t) (h : done t = .next u) : Keeps s u := by cases h; exact k
theorem done_grows {s t u : State} (k : Grows s t) (h : done t = .next u) : Grows s u := by cases h; exact k
theorem ofPort_keeps {s t u : State} {c i : Nat} (k : Keeps s t) (h : ofPort c i t = .next u) : Keeps s u := by
  unfold ofPort at h
  split at h
  · cases h; exact k
  · cases h

/-- Every command but six keeps the queue, canonical memory, the history, KTIME and the sealed keys. -/
theorem exec_keeps {i : Instr} {s t : State} (h : exec i s = .next t) (m : movesTimeOrKeys i = false) : Keeps s t := by
  cases i with
  | registerWrite a0 a1 => exact done_keeps (kcp_keeps (Keeps.refl _) _) h
  | kcpSelDropped a0 a1 a2 => exact done_keeps (kcp_keeps (Keeps.refl _) _) h
  | pgKey a0 a1 => exact done_keeps (kcpWrite_keeps (Keeps.refl _) _ _) h
  | quiesce a0 => exact done_keeps (kcpWrite_keeps (Keeps.refl _) _ _) h
  | quiesceClear a0 => exact done_keeps (kcpWrite_keeps (Keeps.refl _) _ _) h
  | quiesced a0 => exact done_keeps (quiescedEv_keeps (Keeps.refl _) _) h
  | softReset a0 => exact done_keeps (kcpWrite_keeps (Keeps.refl _) _ _) h
  | pgErrClear a0 a1 a2 => exact done_keeps (kcp_keeps (Keeps.refl _) _) h
  | pgErrSet a0 a1 => exact done_keeps (kcpWrite_keeps (Keeps.refl _) _ _) h
  | pgCntSel a0 a1 => exact done_keeps (kcpWrite_keeps (Keeps.refl _) _ _) h
  | ctlAttn a0 a1 => exact done_keeps (kcp_keeps (Keeps.refl _) _) h
  | ctlAbort a0 => exact done_keeps (kcpWrite_keeps (Keeps.refl _) _ _) h
  | keyLoad a0 => cases m
  | keyErase a0 => cases m
  | portAlign => exact done_keeps (kcpWrite_keeps (Keeps.refl _) _ _) h
  | identScan ph =>
    refine done_keeps ?_ h
    cases ph
    · exact kcpWrite_keeps (Keeps.refl _) _ _
    · exact scanEnds_keeps (Keeps.refl _)
  | powerState => exact done_keeps (kcpWrite_keeps (Keeps.refl _) _ _) h
  | badOpcode a0 => exact done_keeps (kcpWrite_keeps (Keeps.refl _) _ _) h
  | powerStateDone => cases m
  | ctlPortExpect a0 a1 => exact done_keeps (kcpWrite_keeps (Keeps.refl _) _ _) h
  | kcpReset a0 a1 a2 => exact done_keeps (kcpReset_keeps (Keeps.refl _) _ _ _) h
  | kcpAligned => exact done_keeps (kcpAlign_keeps (Keeps.refl _)) h
  | coldReset => cases m
  | warmReset a0 => cases m
  | sramInitDone => exact done_keeps (sramInitDone_keeps (Keeps.refl _)) h
  | alignPresence a0 => exact done_keeps (alignPresence_keeps (Keeps.refl _) _) h
  | alignFrequency a0 a1 a2 => exact ofPort_keeps (State.phaseEnds_keeps (Keeps.refl _) _ _ _ _) h
  | alignFill a0 a1 a2 => exact ofPort_keeps (State.phaseEnds_keeps (Keeps.refl _) _ _ _ _) h
  | alignLock a0 a1 a2 => exact ofPort_keeps (State.phaseEnds_keeps (Keeps.refl _) _ _ _ _) h
  | windowDataRead a0 => exact done_keeps (kcpRead_keeps (Keeps.refl _) _) h
  | windowDataWrite a0 a1 => exact done_keeps (kcpWrite_keeps (Keeps.refl _) _ _) h
  | readClear a0 => exact done_keeps (kcpRead_keeps (Keeps.refl _) _) h
  | load a0 => exact done_keeps (kcpWrite_keeps (Keeps.refl _) _ _) h
  | ringDoorbell a0 => exact done_keeps (kcpWrite_keeps (Keeps.refl _) _ _) h
  | contextReady a0 => exact done_keeps (contextReady_keeps (Keeps.refl _) _) h
  | hopCtxReset a0 => exact done_keeps (kcpWrite_keeps (Keeps.refl _) _ _) h
  | contextReset a0 => exact done_keeps (contextReset_keeps (Keeps.refl _) _) h
  | descriptorFetch a0 => exact done_keeps (fetch_keeps (Keeps.refl _) _) h
  | anvilGrant a0 => exact done_keeps (anvilGrant_keeps (Keeps.refl _) _) h
  | accountingWindowEnd a0 => exact done_keeps (windowEnd_keeps (Keeps.refl _) _) h
  | nop a0 => exact done_keeps (nopDesc_keeps (Keeps.refl _) _) h
  | step a0 => exact done_keeps (stepDesc_keeps (Keeps.refl _) _) h
  | stepEnd a0 => exact done_keeps (stepEnd_keeps (Keeps.refl _) _) h
  | waitCnt a0 => exact done_keeps (waitCnt_keeps (Keeps.refl _) _) h
  | waitCntMet a0 => exact done_keeps (waitCntMet_keeps (Keeps.refl _) _) h
  | writeImm a0 => exact done_keeps (writeImm_keeps (Keeps.refl _) _) h
  | vop a0 a1 => exact done_keeps (State.runAnv_keeps (Keeps.refl _) _ _ _ _ _ (fun _ _ k => vopWork_keeps k _)) h
  | vred a0 a1 => exact done_keeps (State.runAnv_keeps (Keeps.refl _) _ _ _ _ _ (fun _ _ k => vredWork_keeps k _)) h
  | sort a0 => exact done_keeps (sortDesc_keeps (Keeps.refl _) _) h
  | sortDone a0 => exact done_keeps (sortDone_keeps (Keeps.refl _) _ _) h
  | tload a0 a1 => exact done_keeps (State.runAnv_keeps (Keeps.refl _) _ _ _ _ _ (fun _ _ k => tloadWork_keeps k _)) h
  | tstore a0 a1 => exact done_keeps (State.runAnv_keeps (Keeps.refl _) _ _ _ _ _ (fun _ _ k => tstoreWork_keeps k _)) h
  | tbcast a0 a1 => exact done_keeps (State.runAnv_keeps (Keeps.refl _) _ _ _ _ _ (fun _ _ k => tbcastWork_keeps k _)) h
  | mmt a0 a1 => exact done_keeps (State.runAnv_keeps (Keeps.refl _) _ _ _ _ _ (fun _ _ k => mmtWork_keeps k _)) h
  | badOp a0 => exact done_keeps (badOp_keeps (Keeps.refl _) _) h
  | descriptorComplete a0 => exact done_keeps (complete_keeps (Keeps.refl _) _) h
  | uApply a0 a1 => exact done_keeps (State.runAnv_keeps (Keeps.refl _) _ _ _ _ _ (fun _ _ k => applyWork_keeps k _ _)) h
  | uPublish a0 => exact done_keeps (publish_keeps (Keeps.refl _) _) h
  | kDelta a0 a1 => exact done_keeps (State.runAnv_keeps (Keeps.refl _) _ _ _ _ _ (fun _ _ k => kDeltaWork_keeps k _)) h
  | uCaskOut a0 a1 => exact done_keeps (State.runAnv_keeps (Keeps.refl _) _ _ _ _ _ (fun _ _ k => caskOutWork_keeps k _)) h
  | uCaskIn a0 a1 => exact done_keeps (State.runAnv_keeps (Keeps.refl _) _ _ _ _ _ (fun _ _ k => caskInWork_keeps k _)) h
  | leafTile a0 a1 => exact done_keeps (leafTile_keeps (Keeps.refl _) _ _) h
  | groupDelivery a0 a1 => exact done_keeps (groupDelivery_keeps (Keeps.refl _) _ _) h
  | leafStall => exact done_keeps (leafStall_keeps (Keeps.refl _)) h
  | patternSource a0 => exact done_keeps (patternSource_keeps (Keeps.refl _) _) h
  | quantiseBlock a0 a1 => exact done_keeps (quantiseBlock_keeps (Keeps.refl _) _ _) h
  | originBlockSend a0 a1 => exact done_keeps (originBlockSend_keeps (Keeps.refl _) _ _) h
  | data => exact done_keeps (dataMsg_keeps (Keeps.refl _)) h
  | blockEmit a0 a1 a2 => exact done_keeps (blockEmit_keeps (Keeps.refl _) _ _ _) h
  | ownerFront => exact done_keeps (ownerFront_keeps (Keeps.refl _)) h
  | release a0 => exact done_keeps (release_keeps (Keeps.refl _) _) h
  | ack => exact done_keeps (ackRx_keeps (Keeps.refl _)) h
  | credit => exact done_keeps (creditRx_keeps (Keeps.refl _)) h
  | egressGrant a0 => exact done_keeps (egressGrant_keeps (Keeps.refl _) _) h
  | retryTimeout => exact done_keeps (retryTimeout_keeps (Keeps.refl _)) h
  | lifetimeEnd => exact done_keeps (lifetimeEnd_keeps (Keeps.refl _)) h
  | portDown a0 => exact done_keeps (portDown_keeps (Keeps.refl _) _) h
  | linkUp a0 => exact done_keeps (linkUp_keeps (Keeps.refl _) _) h
  | portUp a0 => exact done_keeps (portUp_keeps (Keeps.refl _) _) h
  | reassemblyTimeout => exact done_keeps (reassemblyTimeout_keeps (Keeps.refl _)) h
  | coolingExpiry => exact done_keeps (coolingExpiry_keeps (Keeps.refl _)) h
  | genCoolingEnd => exact done_keeps (genCoolingEnd_keeps (Keeps.refl _)) h
  | kx1Frame a0 a1 => exact done_keeps (frameIn_keeps (Keeps.refl _) _ _) h
  | tngQDb a0 => exact done_keeps (kcpWrite_keeps (Keeps.refl _) _ _) h
  | tngQReset a0 => exact done_keeps (kcpWrite_keeps (Keeps.refl _) _ _) h
  | queueNop a0 => exact done_keeps (queueStart_keeps (Keeps.refl _) _ _ _) h
  | queueWrite a0 a1 => exact done_keeps (queueStart_keeps (Keeps.refl _) _ _ _) h
  | queueRead a0 => exact done_keeps (queueStart_keeps (Keeps.refl _) _ _ _) h
  | waitLcnt a0 => exact done_keeps (queueStart_keeps (Keeps.refl _) _ _ _) h
  | waitLcntMet a0 => exact done_keeps (waitLcntMet_keeps (Keeps.refl _) _) h
  | waitRcnt a0 => exact done_keeps (queueStart_keeps (Keeps.refl _) _ _ _) h
  | queuePoll a0 => exact done_keeps (queuePoll_keeps (Keeps.refl _) _) h
  | pubchk a0 => exact done_keeps (queueStart_keeps (Keeps.refl _) _ _ _) h
  | tongsWrite => exact done_keeps (tongsWrite_keeps (Keeps.refl _)) h
  | tongsWriteDone => exact done_keeps (tongsWriteDone_keeps (Keeps.refl _)) h
  | tongsRead a0 => exact done_keeps (tongsRead_keeps (Keeps.refl _) _) h
  | cntRead => exact done_keeps (cntRead_keeps (Keeps.refl _)) h
  | rresp => exact done_keeps (rresp_keeps (Keeps.refl _)) h
  | cntResp => exact done_keeps (cntResp_keeps (Keeps.refl _)) h
  | nak => exact done_keeps (nakRx_keeps (Keeps.refl _)) h
  | doneExpiry => exact done_keeps (doneExpiry_keeps (Keeps.refl _)) h
  | keyHi a0 => exact done_keeps (kcpWrite_keeps (Keeps.refl _) _ _) h
  | keyClr a0 => exact done_keeps (kcpWrite_keeps (Keeps.refl _) _ _) h
  | arrivalCountClear a0 => exact done_keeps (kcpWrite_keeps (Keeps.refl _) _ _) h
  | partitionEnable a0 a1 => exact done_keeps (kcpWrite_keeps (Keeps.refl _) _ _) h
  | partitionDisable a0 a1 => exact done_keeps (kcpWrite_keeps (Keeps.refl _) _ _) h
  | initDone a0 a1 => exact done_keeps (initDone_keeps (Keeps.refl _) _ _) h
  | mltPackGo a0 a1 => exact done_keeps (kcpWrite_keeps (Keeps.refl _) _ _) h
  | packPass1End a0 => exact done_keeps (packPass1End_keeps (Keeps.refl _) _) h
  | packEnd a0 => exact done_keeps (packEndCmd_keeps (Keeps.refl _) _) h
  | clientRead a0 a1 a2 a3 => exact done_keeps (clientRead_keeps (Keeps.refl _) _ _ _ _) h
  | clientWrite a0 a1 a2 => exact done_keeps (clientWrite_keeps (Keeps.refl _) _ _ _) h
  | refill => exact done_keeps (refill_keeps (Keeps.refl _)) h
  | channelAdmit a0 a1 => exact done_keeps (channelAdmit_keeps (Keeps.refl _) _ _) h
  | regulatorWrite a0 a1 => exact done_keeps (kcpWrite_keeps (Keeps.refl _) _ _) h
  | heartbeatPeriod => exact done_keeps (heartbeatPeriod_keeps (Keeps.refl _)) h
  | heartbeat => exact done_keeps (heartbeat_keeps (Keeps.refl _)) h
  | heartbeatTimeout => exact done_keeps (heartbeatTimeout_keeps (Keeps.refl _)) h
  | failrep => exact done_keeps (failrep_keeps (Keeps.refl _)) h
  | vupSend a0 => exact done_keeps (vupSend_keeps (Keeps.refl _) _) h
  | vup => exact done_keeps (vup_keeps (Keeps.refl _)) h
  | vdown => exact done_keeps (vdown_keeps (Keeps.refl _)) h
  | scalesReady a0 => exact done_keeps (scalesReady_keeps (Keeps.refl _) _) h
  | vwaitExpiry a0 => exact done_keeps (vwaitExpiry_keeps (Keeps.refl _) _) h
  | vquery => exact done_keeps (vquery_keeps (Keeps.refl _)) h
  | adopt => exact done_keeps (adopt_keeps (Keeps.refl _)) h
  | incarn => exact done_keeps (incarn_keeps (Keeps.refl _)) h
  | recoveryTransfer a0 a1 => exact done_keeps (recoveryTransfer_keeps (Keeps.refl _) _ _) h
  | readySend => exact done_keeps (readySend_keeps (Keeps.refl _)) h
  | ready => exact done_keeps (ready_keeps (Keeps.refl _)) h
  | resume => exact done_keeps (resume_keeps (Keeps.refl _)) h
  | resync => exact done_keeps (resync_keeps (Keeps.refl _)) h
  | join => exact done_keeps (joinRx_keeps (Keeps.refl _)) h
  | locksig => exact done_keeps (locksig_keeps (Keeps.refl _)) h
  | lslist => exact done_keeps (lslist_keeps (Keeps.refl _)) h
  | park a0 => exact done_keeps (kcpWrite_keeps (Keeps.refl _) _ _) h
  | wake a0 => exact done_keeps (kcpWrite_keeps (Keeps.refl _) _ _) h
  | grdVerdictForce a0 => exact done_keeps (kcpWrite_keeps (Keeps.refl _) _ _) h
  | syncInterval a0 a1 => exact done_keeps (syncInterval_keeps (Keeps.refl _) _ _) h
  | sync a0 a1 a2 a3 => exact done_keeps (syncRx_keeps (Keeps.refl _) _ _ _ _) h
  | followUp a0 a1 a2 a3 a4 => exact done_keeps (followUp_keeps (Keeps.refl _) _ _ _ _ _) h
  | delayReq a0 a1 a2 a3 => exact done_keeps (delayReq_keeps (Keeps.refl _) _ _ _ _) h
  | delayResp a0 a1 a2 a3 => cases m
  | announce => exact done_keeps (Keeps.refl _) h
  | syncLoss a0 => exact done_keeps (syncLoss_keeps (Keeps.refl _) _) h
  | holdMaxReached => exact done_keeps (holdMax_keeps (Keeps.refl _)) h
  | syncEn a0 => exact done_keeps (kcpWrite_keeps (Keeps.refl _) _ _) h
  | timeHoldMax a0 => exact done_keeps (kcpWrite_keeps (Keeps.refl _) _ _) h
  | ktick => exact done_keeps (ktick_keeps (Keeps.refl _)) h
  | scanDone a0 a1 => exact done_keeps (scanDone_keeps (Keeps.refl _) _ _) h
  | ksclStuck a0 => exact done_keeps (busStuck_keeps (Keeps.refl _) _) h
  | ksdaStuck a0 => exact done_keeps (busHang_keeps (Keeps.refl _) _) h
  | autoScan => exact done_keeps (autoScan_keeps (Keeps.refl _)) h
  | idenCheckGo a0 => exact done_keeps (kcpWrite_keeps (Keeps.refl _) _ _) h
  | checkDone => exact done_keeps (checkDone_keeps (Keeps.refl _)) h
  | telemetrySample a0 a1 => exact done_keeps (telemetry_keeps (Keeps.refl _) _ _) h
  | wearAdvance => exact done_keeps (wearAdvance_keeps (Keeps.refl _)) h
  | kcurtChange a0 => exact done_keeps (kcurtChange_keeps (Keeps.refl _) _) h
  | gridEvent => exact done_keeps (State.curtChange_keeps (Keeps.refl _)) h
  | dmpWearSel a0 => exact done_keeps (kcpWrite_keeps (Keeps.refl _) _ _) h
  | dmpWearData a0 => exact done_keeps (kcpWrite_keeps (Keeps.refl _) _ _) h
  | loaded a0 => exact done_keeps (kcpWrite_keeps (Keeps.refl _) _ _) h
  | segment a0 a1 => exact done_keeps (frameIn_keeps (Keeps.refl _) _ _) h
  | hbEn a0 => exact done_keeps (kcpWrite_keeps (Keeps.refl _) _ _) h
  | resetRelease => exact done_keeps (resetRelease_keeps (Keeps.refl _)) h
  | localWriteAck => exact done_keeps (localWriteAck_keeps (Keeps.refl _)) h
/-- Every command leaves the queue, keeps memory canonical and only adds to the history. -/
theorem exec_grows {i : Instr} {s t : State} (h : exec i s = .next t) : Grows s t := by
  cases m : movesTimeOrKeys i with
  | false => exact (exec_keeps h m).toGrows
  | true =>
    cases i <;> try (cases m; done)
    case keyLoad ph =>
      refine done_grows ?_ h
      cases ph
      · exact (kcpWrite_keeps (Keeps.refl _) _ _).toGrows
      · exact keyEnds_grows (Grows.refl _) _
    case keyErase ph =>
      refine done_grows ?_ h
      cases ph
      · exact (kcpWrite_keeps (Keeps.refl _) _ _).toGrows
      · exact keyEnds_grows (Grows.refl _) _
    case powerStateDone => exact done_grows (powerDone_grows (Grows.refl _)) h
    case coldReset => exact done_grows (coldReset_grows (Grows.refl _)) h
    case warmReset n => exact done_grows (warmReset_grows (Grows.refl _) _) h
    case delayResp a b c d => exact done_grows (delayResp_grows (Grows.refl _) _ _ _ _) h
/-- One step: the queue is the queue's rest, memory stays canonical, the history only grows. -/
theorem step_grows {s t : State} (h : step s = .next t) : Grows { s with pending := s.pending.tail } t := by
  unfold step at h
  split at h
  · rename_i e
    cases h
    have k : Grows s { s with pending := s.pending.tail } := ⟨by simp [e], id, Nat.le_refl _, List.suffix_refl _⟩
    have g := krefEdge_grows (Grows.refl s)
    refine ⟨?_, g.mem, g.fresh, g.out⟩
    rw [g.pending, e]; rfl
  · rename_i c cs e
    have g := exec_grows h
    simpa [e] using g

end Sys2Proof.Machine
end

