-- ==== Sys2Proof/Laws/State.lean ====
section
/-! SUPPORT. The laws of the stores of State: each setter against each field it leaves, and a read after a write. -/
namespace Sys2Proof.Machine
open Sys2Proof

section
variable (s : State) (a : Nat) (v : W32)
@[simp] theorem State.setReg_pending : (s.setReg a v).pending = s.pending := rfl
@[simp] theorem State.setReg_out : (s.setReg a v).out = s.out := rfl
@[simp] theorem State.setReg_fresh : (s.setReg a v).fresh = s.fresh := rfl
@[simp] theorem State.setReg_mem : (s.setReg a v).mem = s.mem := rfl
@[simp] theorem State.setReg_ctxR : (s.setReg a v).ctxR = s.ctxR := rfl
@[simp] theorem State.setReg_ptR : (s.setReg a v).ptR = s.ptR := rfl
@[simp] theorem State.setReg_polR : (s.setReg a v).polR = s.polR := rfl
@[simp] theorem State.setReg_bslR : (s.setReg a v).bslR = s.bslR := rfl
@[simp] theorem State.setReg_pckR : (s.setReg a v).pckR = s.pckR := rfl
@[simp] theorem State.setReg_mshR : (s.setReg a v).mshR = s.mshR := rfl
@[simp] theorem State.setReg_updR : (s.setReg a v).updR = s.updR := rfl
@[simp] theorem State.setReg_domR : (s.setReg a v).domR = s.domR := rfl
@[simp] theorem State.setReg_tqR : (s.setReg a v).tqR = s.tqR := rfl
@[simp] theorem State.setReg_partR : (s.setReg a v).partR = s.partR := rfl
@[simp] theorem State.setReg_grdR : (s.setReg a v).grdR = s.grdR := rfl
@[simp] theorem State.setReg_ctl : (s.setReg a v).ctl = s.ctl := rfl
@[simp] theorem State.setReg_hop : (s.setReg a v).hop = s.hop := rfl
@[simp] theorem State.setReg_tmp : (s.setReg a v).tmp = s.tmp := rfl
@[simp] theorem State.setReg_pck : (s.setReg a v).pck = s.pck := rfl
@[simp] theorem State.setReg_msh : (s.setReg a v).msh = s.msh := rfl
@[simp] theorem State.setReg_upd : (s.setReg a v).upd = s.upd := rfl
@[simp] theorem State.setReg_qcn : (s.setReg a v).qcn = s.qcn := rfl
@[simp] theorem State.setReg_tng : (s.setReg a v).tng = s.tng := rfl
@[simp] theorem State.setReg_mlt : (s.setReg a v).mlt = s.mlt := rfl
@[simp] theorem State.setReg_grd : (s.setReg a v).grd = s.grd := rfl
@[simp] theorem State.setReg_time : (s.setReg a v).time = s.time := rfl
@[simp] theorem State.setReg_iden : (s.setReg a v).iden = s.iden := rfl
@[simp] theorem State.setReg_dmp : (s.setReg a v).dmp = s.dmp := rfl
end
section
variable (s : State) (a v : Nat)
@[simp] theorem State.setRegN_pending : (s.setRegN a v).pending = s.pending := rfl
@[simp] theorem State.setRegN_out : (s.setRegN a v).out = s.out := rfl
@[simp] theorem State.setRegN_fresh : (s.setRegN a v).fresh = s.fresh := rfl
@[simp] theorem State.setRegN_mem : (s.setRegN a v).mem = s.mem := rfl
@[simp] theorem State.setRegN_ctxR : (s.setRegN a v).ctxR = s.ctxR := rfl
@[simp] theorem State.setRegN_ptR : (s.setRegN a v).ptR = s.ptR := rfl
@[simp] theorem State.setRegN_polR : (s.setRegN a v).polR = s.polR := rfl
@[simp] theorem State.setRegN_bslR : (s.setRegN a v).bslR = s.bslR := rfl
@[simp] theorem State.setRegN_pckR : (s.setRegN a v).pckR = s.pckR := rfl
@[simp] theorem State.setRegN_mshR : (s.setRegN a v).mshR = s.mshR := rfl
@[simp] theorem State.setRegN_updR : (s.setRegN a v).updR = s.updR := rfl
@[simp] theorem State.setRegN_domR : (s.setRegN a v).domR = s.domR := rfl
@[simp] theorem State.setRegN_tqR : (s.setRegN a v).tqR = s.tqR := rfl
@[simp] theorem State.setRegN_partR : (s.setRegN a v).partR = s.partR := rfl
@[simp] theorem State.setRegN_grdR : (s.setRegN a v).grdR = s.grdR := rfl
@[simp] theorem State.setRegN_ctl : (s.setRegN a v).ctl = s.ctl := rfl
@[simp] theorem State.setRegN_hop : (s.setRegN a v).hop = s.hop := rfl
@[simp] theorem State.setRegN_tmp : (s.setRegN a v).tmp = s.tmp := rfl
@[simp] theorem State.setRegN_pck : (s.setRegN a v).pck = s.pck := rfl
@[simp] theorem State.setRegN_msh : (s.setRegN a v).msh = s.msh := rfl
@[simp] theorem State.setRegN_upd : (s.setRegN a v).upd = s.upd := rfl
@[simp] theorem State.setRegN_qcn : (s.setRegN a v).qcn = s.qcn := rfl
@[simp] theorem State.setRegN_tng : (s.setRegN a v).tng = s.tng := rfl
@[simp] theorem State.setRegN_mlt : (s.setRegN a v).mlt = s.mlt := rfl
@[simp] theorem State.setRegN_grd : (s.setRegN a v).grd = s.grd := rfl
@[simp] theorem State.setRegN_time : (s.setRegN a v).time = s.time := rfl
@[simp] theorem State.setRegN_iden : (s.setRegN a v).iden = s.iden := rfl
@[simp] theorem State.setRegN_dmp : (s.setRegN a v).dmp = s.dmp := rfl
end
section
variable (s : State) (c w : Nat) (v : W32)
@[simp] theorem State.setCw_pending : (s.setCw c w v).pending = s.pending := rfl
@[simp] theorem State.setCw_out : (s.setCw c w v).out = s.out := rfl
@[simp] theorem State.setCw_fresh : (s.setCw c w v).fresh = s.fresh := rfl
@[simp] theorem State.setCw_mem : (s.setCw c w v).mem = s.mem := rfl
@[simp] theorem State.setCw_regs : (s.setCw c w v).regs = s.regs := rfl
@[simp] theorem State.setCw_ptR : (s.setCw c w v).ptR = s.ptR := rfl
@[simp] theorem State.setCw_polR : (s.setCw c w v).polR = s.polR := rfl
@[simp] theorem State.setCw_bslR : (s.setCw c w v).bslR = s.bslR := rfl
@[simp] theorem State.setCw_pckR : (s.setCw c w v).pckR = s.pckR := rfl
@[simp] theorem State.setCw_mshR : (s.setCw c w v).mshR = s.mshR := rfl
@[simp] theorem State.setCw_updR : (s.setCw c w v).updR = s.updR := rfl
@[simp] theorem State.setCw_domR : (s.setCw c w v).domR = s.domR := rfl
@[simp] theorem State.setCw_tqR : (s.setCw c w v).tqR = s.tqR := rfl
@[simp] theorem State.setCw_partR : (s.setCw c w v).partR = s.partR := rfl
@[simp] theorem State.setCw_grdR : (s.setCw c w v).grdR = s.grdR := rfl
@[simp] theorem State.setCw_ctl : (s.setCw c w v).ctl = s.ctl := rfl
@[simp] theorem State.setCw_hop : (s.setCw c w v).hop = s.hop := rfl
@[simp] theorem State.setCw_tmp : (s.setCw c w v).tmp = s.tmp := rfl
@[simp] theorem State.setCw_pck : (s.setCw c w v).pck = s.pck := rfl
@[simp] theorem State.setCw_msh : (s.setCw c w v).msh = s.msh := rfl
@[simp] theorem State.setCw_upd : (s.setCw c w v).upd = s.upd := rfl
@[simp] theorem State.setCw_qcn : (s.setCw c w v).qcn = s.qcn := rfl
@[simp] theorem State.setCw_tng : (s.setCw c w v).tng = s.tng := rfl
@[simp] theorem State.setCw_mlt : (s.setCw c w v).mlt = s.mlt := rfl
@[simp] theorem State.setCw_grd : (s.setCw c w v).grd = s.grd := rfl
@[simp] theorem State.setCw_time : (s.setCw c w v).time = s.time := rfl
@[simp] theorem State.setCw_iden : (s.setCw c w v).iden = s.iden := rfl
@[simp] theorem State.setCw_dmp : (s.setCw c w v).dmp = s.dmp := rfl
end
section
variable (s : State) (c : Nat) (h : HopCtx)
@[simp] theorem State.setHx_pending : (s.setHx c h).pending = s.pending := rfl
@[simp] theorem State.setHx_out : (s.setHx c h).out = s.out := rfl
@[simp] theorem State.setHx_fresh : (s.setHx c h).fresh = s.fresh := rfl
@[simp] theorem State.setHx_mem : (s.setHx c h).mem = s.mem := rfl
@[simp] theorem State.setHx_regs : (s.setHx c h).regs = s.regs := rfl
@[simp] theorem State.setHx_ctxR : (s.setHx c h).ctxR = s.ctxR := rfl
@[simp] theorem State.setHx_ptR : (s.setHx c h).ptR = s.ptR := rfl
@[simp] theorem State.setHx_polR : (s.setHx c h).polR = s.polR := rfl
@[simp] theorem State.setHx_bslR : (s.setHx c h).bslR = s.bslR := rfl
@[simp] theorem State.setHx_pckR : (s.setHx c h).pckR = s.pckR := rfl
@[simp] theorem State.setHx_mshR : (s.setHx c h).mshR = s.mshR := rfl
@[simp] theorem State.setHx_updR : (s.setHx c h).updR = s.updR := rfl
@[simp] theorem State.setHx_domR : (s.setHx c h).domR = s.domR := rfl
@[simp] theorem State.setHx_tqR : (s.setHx c h).tqR = s.tqR := rfl
@[simp] theorem State.setHx_partR : (s.setHx c h).partR = s.partR := rfl
@[simp] theorem State.setHx_grdR : (s.setHx c h).grdR = s.grdR := rfl
@[simp] theorem State.setHx_ctl : (s.setHx c h).ctl = s.ctl := rfl
@[simp] theorem State.setHx_tmp : (s.setHx c h).tmp = s.tmp := rfl
@[simp] theorem State.setHx_pck : (s.setHx c h).pck = s.pck := rfl
@[simp] theorem State.setHx_msh : (s.setHx c h).msh = s.msh := rfl
@[simp] theorem State.setHx_upd : (s.setHx c h).upd = s.upd := rfl
@[simp] theorem State.setHx_qcn : (s.setHx c h).qcn = s.qcn := rfl
@[simp] theorem State.setHx_tng : (s.setHx c h).tng = s.tng := rfl
@[simp] theorem State.setHx_mlt : (s.setHx c h).mlt = s.mlt := rfl
@[simp] theorem State.setHx_grd : (s.setHx c h).grd = s.grd := rfl
@[simp] theorem State.setHx_time : (s.setHx c h).time = s.time := rfl
@[simp] theorem State.setHx_iden : (s.setHx c h).iden = s.iden := rfl
@[simp] theorem State.setHx_dmp : (s.setHx c h).dmp = s.dmp := rfl
end
section
variable (s : State) (c : Nat) (g : GCtx)
@[simp] theorem State.setGx_pending : (s.setGx c g).pending = s.pending := rfl
@[simp] theorem State.setGx_out : (s.setGx c g).out = s.out := rfl
@[simp] theorem State.setGx_fresh : (s.setGx c g).fresh = s.fresh := rfl
@[simp] theorem State.setGx_mem : (s.setGx c g).mem = s.mem := rfl
@[simp] theorem State.setGx_regs : (s.setGx c g).regs = s.regs := rfl
@[simp] theorem State.setGx_ctxR : (s.setGx c g).ctxR = s.ctxR := rfl
@[simp] theorem State.setGx_ptR : (s.setGx c g).ptR = s.ptR := rfl
@[simp] theorem State.setGx_polR : (s.setGx c g).polR = s.polR := rfl
@[simp] theorem State.setGx_bslR : (s.setGx c g).bslR = s.bslR := rfl
@[simp] theorem State.setGx_pckR : (s.setGx c g).pckR = s.pckR := rfl
@[simp] theorem State.setGx_mshR : (s.setGx c g).mshR = s.mshR := rfl
@[simp] theorem State.setGx_updR : (s.setGx c g).updR = s.updR := rfl
@[simp] theorem State.setGx_domR : (s.setGx c g).domR = s.domR := rfl
@[simp] theorem State.setGx_tqR : (s.setGx c g).tqR = s.tqR := rfl
@[simp] theorem State.setGx_partR : (s.setGx c g).partR = s.partR := rfl
@[simp] theorem State.setGx_grdR : (s.setGx c g).grdR = s.grdR := rfl
@[simp] theorem State.setGx_ctl : (s.setGx c g).ctl = s.ctl := rfl
@[simp] theorem State.setGx_hop : (s.setGx c g).hop = s.hop := rfl
@[simp] theorem State.setGx_tmp : (s.setGx c g).tmp = s.tmp := rfl
@[simp] theorem State.setGx_pck : (s.setGx c g).pck = s.pck := rfl
@[simp] theorem State.setGx_msh : (s.setGx c g).msh = s.msh := rfl
@[simp] theorem State.setGx_upd : (s.setGx c g).upd = s.upd := rfl
@[simp] theorem State.setGx_qcn : (s.setGx c g).qcn = s.qcn := rfl
@[simp] theorem State.setGx_tng : (s.setGx c g).tng = s.tng := rfl
@[simp] theorem State.setGx_mlt : (s.setGx c g).mlt = s.mlt := rfl
@[simp] theorem State.setGx_time : (s.setGx c g).time = s.time := rfl
@[simp] theorem State.setGx_iden : (s.setGx c g).iden = s.iden := rfl
@[simp] theorem State.setGx_dmp : (s.setGx c g).dmp = s.dmp := rfl
end
section
variable (s : State) (u w v : Nat)
@[simp] theorem State.setUw_pending : (s.setUw u w v).pending = s.pending := rfl
@[simp] theorem State.setUw_out : (s.setUw u w v).out = s.out := rfl
@[simp] theorem State.setUw_fresh : (s.setUw u w v).fresh = s.fresh := rfl
@[simp] theorem State.setUw_mem : (s.setUw u w v).mem = s.mem := rfl
@[simp] theorem State.setUw_regs : (s.setUw u w v).regs = s.regs := rfl
@[simp] theorem State.setUw_ctxR : (s.setUw u w v).ctxR = s.ctxR := rfl
@[simp] theorem State.setUw_ptR : (s.setUw u w v).ptR = s.ptR := rfl
@[simp] theorem State.setUw_polR : (s.setUw u w v).polR = s.polR := rfl
@[simp] theorem State.setUw_bslR : (s.setUw u w v).bslR = s.bslR := rfl
@[simp] theorem State.setUw_pckR : (s.setUw u w v).pckR = s.pckR := rfl
@[simp] theorem State.setUw_mshR : (s.setUw u w v).mshR = s.mshR := rfl
@[simp] theorem State.setUw_domR : (s.setUw u w v).domR = s.domR := rfl
@[simp] theorem State.setUw_tqR : (s.setUw u w v).tqR = s.tqR := rfl
@[simp] theorem State.setUw_partR : (s.setUw u w v).partR = s.partR := rfl
@[simp] theorem State.setUw_grdR : (s.setUw u w v).grdR = s.grdR := rfl
@[simp] theorem State.setUw_ctl : (s.setUw u w v).ctl = s.ctl := rfl
@[simp] theorem State.setUw_hop : (s.setUw u w v).hop = s.hop := rfl
@[simp] theorem State.setUw_tmp : (s.setUw u w v).tmp = s.tmp := rfl
@[simp] theorem State.setUw_pck : (s.setUw u w v).pck = s.pck := rfl
@[simp] theorem State.setUw_msh : (s.setUw u w v).msh = s.msh := rfl
@[simp] theorem State.setUw_upd : (s.setUw u w v).upd = s.upd := rfl
@[simp] theorem State.setUw_qcn : (s.setUw u w v).qcn = s.qcn := rfl
@[simp] theorem State.setUw_tng : (s.setUw u w v).tng = s.tng := rfl
@[simp] theorem State.setUw_mlt : (s.setUw u w v).mlt = s.mlt := rfl
@[simp] theorem State.setUw_grd : (s.setUw u w v).grd = s.grd := rfl
@[simp] theorem State.setUw_time : (s.setUw u w v).time = s.time := rfl
@[simp] theorem State.setUw_iden : (s.setUw u w v).iden = s.iden := rfl
@[simp] theorem State.setUw_dmp : (s.setUw u w v).dmp = s.dmp := rfl
end
section
variable (s : State) (q w v : Nat)
@[simp] theorem State.setQw_pending : (s.setQw q w v).pending = s.pending := rfl
@[simp] theorem State.setQw_out : (s.setQw q w v).out = s.out := rfl
@[simp] theorem State.setQw_fresh : (s.setQw q w v).fresh = s.fresh := rfl
@[simp] theorem State.setQw_mem : (s.setQw q w v).mem = s.mem := rfl
@[simp] theorem State.setQw_regs : (s.setQw q w v).regs = s.regs := rfl
@[simp] theorem State.setQw_ctxR : (s.setQw q w v).ctxR = s.ctxR := rfl
@[simp] theorem State.setQw_ptR : (s.setQw q w v).ptR = s.ptR := rfl
@[simp] theorem State.setQw_polR : (s.setQw q w v).polR = s.polR := rfl
@[simp] theorem State.setQw_bslR : (s.setQw q w v).bslR = s.bslR := rfl
@[simp] theorem State.setQw_pckR : (s.setQw q w v).pckR = s.pckR := rfl
@[simp] theorem State.setQw_mshR : (s.setQw q w v).mshR = s.mshR := rfl
@[simp] theorem State.setQw_updR : (s.setQw q w v).updR = s.updR := rfl
@[simp] theorem State.setQw_domR : (s.setQw q w v).domR = s.domR := rfl
@[simp] theorem State.setQw_partR : (s.setQw q w v).partR = s.partR := rfl
@[simp] theorem State.setQw_grdR : (s.setQw q w v).grdR = s.grdR := rfl
@[simp] theorem State.setQw_ctl : (s.setQw q w v).ctl = s.ctl := rfl
@[simp] theorem State.setQw_hop : (s.setQw q w v).hop = s.hop := rfl
@[simp] theorem State.setQw_tmp : (s.setQw q w v).tmp = s.tmp := rfl
@[simp] theorem State.setQw_pck : (s.setQw q w v).pck = s.pck := rfl
@[simp] theorem State.setQw_msh : (s.setQw q w v).msh = s.msh := rfl
@[simp] theorem State.setQw_upd : (s.setQw q w v).upd = s.upd := rfl
@[simp] theorem State.setQw_qcn : (s.setQw q w v).qcn = s.qcn := rfl
@[simp] theorem State.setQw_tng : (s.setQw q w v).tng = s.tng := rfl
@[simp] theorem State.setQw_mlt : (s.setQw q w v).mlt = s.mlt := rfl
@[simp] theorem State.setQw_grd : (s.setQw q w v).grd = s.grd := rfl
@[simp] theorem State.setQw_time : (s.setQw q w v).time = s.time := rfl
@[simp] theorem State.setQw_iden : (s.setQw q w v).iden = s.iden := rfl
@[simp] theorem State.setQw_dmp : (s.setQw q w v).dmp = s.dmp := rfl
end
section
variable (s : State) (d w v : Nat)
@[simp] theorem State.setDw_pending : (s.setDw d w v).pending = s.pending := rfl
@[simp] theorem State.setDw_out : (s.setDw d w v).out = s.out := rfl
@[simp] theorem State.setDw_fresh : (s.setDw d w v).fresh = s.fresh := rfl
@[simp] theorem State.setDw_mem : (s.setDw d w v).mem = s.mem := rfl
@[simp] theorem State.setDw_regs : (s.setDw d w v).regs = s.regs := rfl
@[simp] theorem State.setDw_ctxR : (s.setDw d w v).ctxR = s.ctxR := rfl
@[simp] theorem State.setDw_ptR : (s.setDw d w v).ptR = s.ptR := rfl
@[simp] theorem State.setDw_polR : (s.setDw d w v).polR = s.polR := rfl
@[simp] theorem State.setDw_bslR : (s.setDw d w v).bslR = s.bslR := rfl
@[simp] theorem State.setDw_pckR : (s.setDw d w v).pckR = s.pckR := rfl
@[simp] theorem State.setDw_mshR : (s.setDw d w v).mshR = s.mshR := rfl
@[simp] theorem State.setDw_updR : (s.setDw d w v).updR = s.updR := rfl
@[simp] theorem State.setDw_tqR : (s.setDw d w v).tqR = s.tqR := rfl
@[simp] theorem State.setDw_partR : (s.setDw d w v).partR = s.partR := rfl
@[simp] theorem State.setDw_grdR : (s.setDw d w v).grdR = s.grdR := rfl
@[simp] theorem State.setDw_ctl : (s.setDw d w v).ctl = s.ctl := rfl
@[simp] theorem State.setDw_hop : (s.setDw d w v).hop = s.hop := rfl
@[simp] theorem State.setDw_tmp : (s.setDw d w v).tmp = s.tmp := rfl
@[simp] theorem State.setDw_pck : (s.setDw d w v).pck = s.pck := rfl
@[simp] theorem State.setDw_msh : (s.setDw d w v).msh = s.msh := rfl
@[simp] theorem State.setDw_upd : (s.setDw d w v).upd = s.upd := rfl
@[simp] theorem State.setDw_qcn : (s.setDw d w v).qcn = s.qcn := rfl
@[simp] theorem State.setDw_tng : (s.setDw d w v).tng = s.tng := rfl
@[simp] theorem State.setDw_mlt : (s.setDw d w v).mlt = s.mlt := rfl
@[simp] theorem State.setDw_grd : (s.setDw d w v).grd = s.grd := rfl
@[simp] theorem State.setDw_time : (s.setDw d w v).time = s.time := rfl
@[simp] theorem State.setDw_iden : (s.setDw d w v).iden = s.iden := rfl
@[simp] theorem State.setDw_dmp : (s.setDw d w v).dmp = s.dmp := rfl
end
section
variable (s : State) (i p w v : Nat)
@[simp] theorem State.setPw_pending : (s.setPw i p w v).pending = s.pending := rfl
@[simp] theorem State.setPw_out : (s.setPw i p w v).out = s.out := rfl
@[simp] theorem State.setPw_fresh : (s.setPw i p w v).fresh = s.fresh := rfl
@[simp] theorem State.setPw_mem : (s.setPw i p w v).mem = s.mem := rfl
@[simp] theorem State.setPw_regs : (s.setPw i p w v).regs = s.regs := rfl
@[simp] theorem State.setPw_ctxR : (s.setPw i p w v).ctxR = s.ctxR := rfl
@[simp] theorem State.setPw_ptR : (s.setPw i p w v).ptR = s.ptR := rfl
@[simp] theorem State.setPw_polR : (s.setPw i p w v).polR = s.polR := rfl
@[simp] theorem State.setPw_bslR : (s.setPw i p w v).bslR = s.bslR := rfl
@[simp] theorem State.setPw_pckR : (s.setPw i p w v).pckR = s.pckR := rfl
@[simp] theorem State.setPw_mshR : (s.setPw i p w v).mshR = s.mshR := rfl
@[simp] theorem State.setPw_updR : (s.setPw i p w v).updR = s.updR := rfl
@[simp] theorem State.setPw_domR : (s.setPw i p w v).domR = s.domR := rfl
@[simp] theorem State.setPw_tqR : (s.setPw i p w v).tqR = s.tqR := rfl
@[simp] theorem State.setPw_grdR : (s.setPw i p w v).grdR = s.grdR := rfl
@[simp] theorem State.setPw_ctl : (s.setPw i p w v).ctl = s.ctl := rfl
@[simp] theorem State.setPw_hop : (s.setPw i p w v).hop = s.hop := rfl
@[simp] theorem State.setPw_tmp : (s.setPw i p w v).tmp = s.tmp := rfl
@[simp] theorem State.setPw_pck : (s.setPw i p w v).pck = s.pck := rfl
@[simp] theorem State.setPw_msh : (s.setPw i p w v).msh = s.msh := rfl
@[simp] theorem State.setPw_upd : (s.setPw i p w v).upd = s.upd := rfl
@[simp] theorem State.setPw_qcn : (s.setPw i p w v).qcn = s.qcn := rfl
@[simp] theorem State.setPw_tng : (s.setPw i p w v).tng = s.tng := rfl
@[simp] theorem State.setPw_mlt : (s.setPw i p w v).mlt = s.mlt := rfl
@[simp] theorem State.setPw_grd : (s.setPw i p w v).grd = s.grd := rfl
@[simp] theorem State.setPw_time : (s.setPw i p w v).time = s.time := rfl
@[simp] theorem State.setPw_iden : (s.setPw i p w v).iden = s.iden := rfl
@[simp] theorem State.setPw_dmp : (s.setPw i p w v).dmp = s.dmp := rfl
end
section
variable (s : State) (k : Nat) (x : Xing)
@[simp] theorem State.setXing_pending : (s.setXing k x).pending = s.pending := rfl
@[simp] theorem State.setXing_out : (s.setXing k x).out = s.out := rfl
@[simp] theorem State.setXing_fresh : (s.setXing k x).fresh = s.fresh := rfl
@[simp] theorem State.setXing_mem : (s.setXing k x).mem = s.mem := rfl
@[simp] theorem State.setXing_regs : (s.setXing k x).regs = s.regs := rfl
@[simp] theorem State.setXing_ctxR : (s.setXing k x).ctxR = s.ctxR := rfl
@[simp] theorem State.setXing_ptR : (s.setXing k x).ptR = s.ptR := rfl
@[simp] theorem State.setXing_polR : (s.setXing k x).polR = s.polR := rfl
@[simp] theorem State.setXing_bslR : (s.setXing k x).bslR = s.bslR := rfl
@[simp] theorem State.setXing_pckR : (s.setXing k x).pckR = s.pckR := rfl
@[simp] theorem State.setXing_mshR : (s.setXing k x).mshR = s.mshR := rfl
@[simp] theorem State.setXing_updR : (s.setXing k x).updR = s.updR := rfl
@[simp] theorem State.setXing_domR : (s.setXing k x).domR = s.domR := rfl
@[simp] theorem State.setXing_tqR : (s.setXing k x).tqR = s.tqR := rfl
@[simp] theorem State.setXing_partR : (s.setXing k x).partR = s.partR := rfl
@[simp] theorem State.setXing_grdR : (s.setXing k x).grdR = s.grdR := rfl
@[simp] theorem State.setXing_hop : (s.setXing k x).hop = s.hop := rfl
@[simp] theorem State.setXing_tmp : (s.setXing k x).tmp = s.tmp := rfl
@[simp] theorem State.setXing_pck : (s.setXing k x).pck = s.pck := rfl
@[simp] theorem State.setXing_msh : (s.setXing k x).msh = s.msh := rfl
@[simp] theorem State.setXing_upd : (s.setXing k x).upd = s.upd := rfl
@[simp] theorem State.setXing_qcn : (s.setXing k x).qcn = s.qcn := rfl
@[simp] theorem State.setXing_tng : (s.setXing k x).tng = s.tng := rfl
@[simp] theorem State.setXing_mlt : (s.setXing k x).mlt = s.mlt := rfl
@[simp] theorem State.setXing_grd : (s.setXing k x).grd = s.grd := rfl
@[simp] theorem State.setXing_time : (s.setXing k x).time = s.time := rfl
@[simp] theorem State.setXing_iden : (s.setXing k x).iden = s.iden := rfl
@[simp] theorem State.setXing_dmp : (s.setXing k x).dmp = s.dmp := rfl
end
section
variable (s : State) (p : Nat) (x : MacPort)
@[simp] theorem State.setPort_pending : (s.setPort p x).pending = s.pending := rfl
@[simp] theorem State.setPort_out : (s.setPort p x).out = s.out := rfl
@[simp] theorem State.setPort_fresh : (s.setPort p x).fresh = s.fresh := rfl
@[simp] theorem State.setPort_mem : (s.setPort p x).mem = s.mem := rfl
@[simp] theorem State.setPort_regs : (s.setPort p x).regs = s.regs := rfl
@[simp] theorem State.setPort_ctxR : (s.setPort p x).ctxR = s.ctxR := rfl
@[simp] theorem State.setPort_ptR : (s.setPort p x).ptR = s.ptR := rfl
@[simp] theorem State.setPort_polR : (s.setPort p x).polR = s.polR := rfl
@[simp] theorem State.setPort_bslR : (s.setPort p x).bslR = s.bslR := rfl
@[simp] theorem State.setPort_pckR : (s.setPort p x).pckR = s.pckR := rfl
@[simp] theorem State.setPort_mshR : (s.setPort p x).mshR = s.mshR := rfl
@[simp] theorem State.setPort_updR : (s.setPort p x).updR = s.updR := rfl
@[simp] theorem State.setPort_domR : (s.setPort p x).domR = s.domR := rfl
@[simp] theorem State.setPort_tqR : (s.setPort p x).tqR = s.tqR := rfl
@[simp] theorem State.setPort_partR : (s.setPort p x).partR = s.partR := rfl
@[simp] theorem State.setPort_grdR : (s.setPort p x).grdR = s.grdR := rfl
@[simp] theorem State.setPort_ctl : (s.setPort p x).ctl = s.ctl := rfl
@[simp] theorem State.setPort_hop : (s.setPort p x).hop = s.hop := rfl
@[simp] theorem State.setPort_tmp : (s.setPort p x).tmp = s.tmp := rfl
@[simp] theorem State.setPort_pck : (s.setPort p x).pck = s.pck := rfl
@[simp] theorem State.setPort_msh : (s.setPort p x).msh = s.msh := rfl
@[simp] theorem State.setPort_upd : (s.setPort p x).upd = s.upd := rfl
@[simp] theorem State.setPort_tng : (s.setPort p x).tng = s.tng := rfl
@[simp] theorem State.setPort_mlt : (s.setPort p x).mlt = s.mlt := rfl
@[simp] theorem State.setPort_grd : (s.setPort p x).grd = s.grd := rfl
@[simp] theorem State.setPort_time : (s.setPort p x).time = s.time := rfl
@[simp] theorem State.setPort_iden : (s.setPort p x).iden = s.iden := rfl
@[simp] theorem State.setPort_dmp : (s.setPort p x).dmp = s.dmp := rfl
end
section
variable (s : State) (pg : Nat) (b : Bool)
@[simp] theorem State.setUnlock_pending : (s.setUnlock pg b).pending = s.pending := rfl
@[simp] theorem State.setUnlock_out : (s.setUnlock pg b).out = s.out := rfl
@[simp] theorem State.setUnlock_fresh : (s.setUnlock pg b).fresh = s.fresh := rfl
@[simp] theorem State.setUnlock_mem : (s.setUnlock pg b).mem = s.mem := rfl
@[simp] theorem State.setUnlock_regs : (s.setUnlock pg b).regs = s.regs := rfl
@[simp] theorem State.setUnlock_ctxR : (s.setUnlock pg b).ctxR = s.ctxR := rfl
@[simp] theorem State.setUnlock_ptR : (s.setUnlock pg b).ptR = s.ptR := rfl
@[simp] theorem State.setUnlock_polR : (s.setUnlock pg b).polR = s.polR := rfl
@[simp] theorem State.setUnlock_bslR : (s.setUnlock pg b).bslR = s.bslR := rfl
@[simp] theorem State.setUnlock_pckR : (s.setUnlock pg b).pckR = s.pckR := rfl
@[simp] theorem State.setUnlock_mshR : (s.setUnlock pg b).mshR = s.mshR := rfl
@[simp] theorem State.setUnlock_updR : (s.setUnlock pg b).updR = s.updR := rfl
@[simp] theorem State.setUnlock_domR : (s.setUnlock pg b).domR = s.domR := rfl
@[simp] theorem State.setUnlock_tqR : (s.setUnlock pg b).tqR = s.tqR := rfl
@[simp] theorem State.setUnlock_partR : (s.setUnlock pg b).partR = s.partR := rfl
@[simp] theorem State.setUnlock_grdR : (s.setUnlock pg b).grdR = s.grdR := rfl
@[simp] theorem State.setUnlock_hop : (s.setUnlock pg b).hop = s.hop := rfl
@[simp] theorem State.setUnlock_tmp : (s.setUnlock pg b).tmp = s.tmp := rfl
@[simp] theorem State.setUnlock_pck : (s.setUnlock pg b).pck = s.pck := rfl
@[simp] theorem State.setUnlock_msh : (s.setUnlock pg b).msh = s.msh := rfl
@[simp] theorem State.setUnlock_upd : (s.setUnlock pg b).upd = s.upd := rfl
@[simp] theorem State.setUnlock_qcn : (s.setUnlock pg b).qcn = s.qcn := rfl
@[simp] theorem State.setUnlock_tng : (s.setUnlock pg b).tng = s.tng := rfl
@[simp] theorem State.setUnlock_mlt : (s.setUnlock pg b).mlt = s.mlt := rfl
@[simp] theorem State.setUnlock_grd : (s.setUnlock pg b).grd = s.grd := rfl
@[simp] theorem State.setUnlock_time : (s.setUnlock pg b).time = s.time := rfl
@[simp] theorem State.setUnlock_iden : (s.setUnlock pg b).iden = s.iden := rfl
@[simp] theorem State.setUnlock_dmp : (s.setUnlock pg b).dmp = s.dmp := rfl
end
section
variable (s : State) (a : Nat) (bs : Bytes)
@[simp] theorem State.poke_pending : (s.poke a bs).pending = s.pending := rfl
@[simp] theorem State.poke_out : (s.poke a bs).out = s.out := rfl
@[simp] theorem State.poke_fresh : (s.poke a bs).fresh = s.fresh := rfl
@[simp] theorem State.poke_regs : (s.poke a bs).regs = s.regs := rfl
@[simp] theorem State.poke_ctxR : (s.poke a bs).ctxR = s.ctxR := rfl
@[simp] theorem State.poke_ptR : (s.poke a bs).ptR = s.ptR := rfl
@[simp] theorem State.poke_polR : (s.poke a bs).polR = s.polR := rfl
@[simp] theorem State.poke_bslR : (s.poke a bs).bslR = s.bslR := rfl
@[simp] theorem State.poke_pckR : (s.poke a bs).pckR = s.pckR := rfl
@[simp] theorem State.poke_mshR : (s.poke a bs).mshR = s.mshR := rfl
@[simp] theorem State.poke_updR : (s.poke a bs).updR = s.updR := rfl
@[simp] theorem State.poke_domR : (s.poke a bs).domR = s.domR := rfl
@[simp] theorem State.poke_tqR : (s.poke a bs).tqR = s.tqR := rfl
@[simp] theorem State.poke_partR : (s.poke a bs).partR = s.partR := rfl
@[simp] theorem State.poke_grdR : (s.poke a bs).grdR = s.grdR := rfl
@[simp] theorem State.poke_ctl : (s.poke a bs).ctl = s.ctl := rfl
@[simp] theorem State.poke_hop : (s.poke a bs).hop = s.hop := rfl
@[simp] theorem State.poke_tmp : (s.poke a bs).tmp = s.tmp := rfl
@[simp] theorem State.poke_pck : (s.poke a bs).pck = s.pck := rfl
@[simp] theorem State.poke_msh : (s.poke a bs).msh = s.msh := rfl
@[simp] theorem State.poke_upd : (s.poke a bs).upd = s.upd := rfl
@[simp] theorem State.poke_qcn : (s.poke a bs).qcn = s.qcn := rfl
@[simp] theorem State.poke_tng : (s.poke a bs).tng = s.tng := rfl
@[simp] theorem State.poke_mlt : (s.poke a bs).mlt = s.mlt := rfl
@[simp] theorem State.poke_grd : (s.poke a bs).grd = s.grd := rfl
@[simp] theorem State.poke_time : (s.poke a bs).time = s.time := rfl
@[simp] theorem State.poke_iden : (s.poke a bs).iden = s.iden := rfl
@[simp] theorem State.poke_dmp : (s.poke a bs).dmp = s.dmp := rfl
end
section
variable (s : State) (o : Output)
@[simp] theorem State.emit_pending : (s.emit o).pending = s.pending := rfl
@[simp] theorem State.emit_fresh : (s.emit o).fresh = s.fresh := rfl
@[simp] theorem State.emit_mem : (s.emit o).mem = s.mem := rfl
@[simp] theorem State.emit_regs : (s.emit o).regs = s.regs := rfl
@[simp] theorem State.emit_ctxR : (s.emit o).ctxR = s.ctxR := rfl
@[simp] theorem State.emit_ptR : (s.emit o).ptR = s.ptR := rfl
@[simp] theorem State.emit_polR : (s.emit o).polR = s.polR := rfl
@[simp] theorem State.emit_bslR : (s.emit o).bslR = s.bslR := rfl
@[simp] theorem State.emit_pckR : (s.emit o).pckR = s.pckR := rfl
@[simp] theorem State.emit_mshR : (s.emit o).mshR = s.mshR := rfl
@[simp] theorem State.emit_updR : (s.emit o).updR = s.updR := rfl
@[simp] theorem State.emit_domR : (s.emit o).domR = s.domR := rfl
@[simp] theorem State.emit_tqR : (s.emit o).tqR = s.tqR := rfl
@[simp] theorem State.emit_partR : (s.emit o).partR = s.partR := rfl
@[simp] theorem State.emit_grdR : (s.emit o).grdR = s.grdR := rfl
@[simp] theorem State.emit_ctl : (s.emit o).ctl = s.ctl := rfl
@[simp] theorem State.emit_hop : (s.emit o).hop = s.hop := rfl
@[simp] theorem State.emit_tmp : (s.emit o).tmp = s.tmp := rfl
@[simp] theorem State.emit_pck : (s.emit o).pck = s.pck := rfl
@[simp] theorem State.emit_msh : (s.emit o).msh = s.msh := rfl
@[simp] theorem State.emit_upd : (s.emit o).upd = s.upd := rfl
@[simp] theorem State.emit_qcn : (s.emit o).qcn = s.qcn := rfl
@[simp] theorem State.emit_tng : (s.emit o).tng = s.tng := rfl
@[simp] theorem State.emit_mlt : (s.emit o).mlt = s.mlt := rfl
@[simp] theorem State.emit_grd : (s.emit o).grd = s.grd := rfl
@[simp] theorem State.emit_time : (s.emit o).time = s.time := rfl
@[simp] theorem State.emit_iden : (s.emit o).iden = s.iden := rfl
@[simp] theorem State.emit_dmp : (s.emit o).dmp = s.dmp := rfl
end

/-! ### A read after a write -/

theorem State.reg_setReg (s : State) (a x : Nat) (v : W32) : (s.setReg a v).reg x = if x = a then v else s.reg x :=
  SMap.get_set _ _ _ _ _
theorem State.reg_setRegN (s : State) (a v x : Nat) :
    (s.setRegN a v).reg x = if x = a then BitVec.ofNat 32 v else s.reg x := SMap.get_set _ _ _ _ _
theorem State.hx_setHx (s : State) (c d : Nat) (h : HopCtx) : (s.setHx c h).hx d = if d = c then h else s.hx d :=
  SMap.get_set _ _ _ _ _
theorem State.gx_setGx (s : State) (c d : Nat) (g : GCtx) : (s.setGx c g).gx d = if d = c then g else s.gx d :=
  SMap.get_set _ _ _ _ _
theorem State.cw_setCw (s : State) (c w d x : Nat) (v : W32) :
    (s.setCw c w v).cw d x = if d * 128 + x = c * 128 + w then v else s.cw d x := SMap.get_set _ _ _ _ _
theorem State.uw_setUw (s : State) (u w v d x : Nat) :
    (s.setUw u w v).uw d x = if 48 * d + x = 48 * u + w then BitVec.ofNat 32 v else s.uw d x := SMap.get_set _ _ _ _ _
theorem State.qw_setQw (s : State) (q w v d x : Nat) :
    (s.setQw q w v).qw d x = if 16 * d + x = 16 * q + w then BitVec.ofNat 32 v else s.qw d x := SMap.get_set _ _ _ _ _
theorem State.dw_setDw (s : State) (u w v d x : Nat) :
    (s.setDw u w v).dw d x = if 48 * d + x = 48 * u + w then BitVec.ofNat 32 v else s.dw d x := SMap.get_set _ _ _ _ _
theorem State.pw_setPw (s : State) (i p w v j q x : Nat) :
    (s.setPw i p w v).pw j q x = if (8 * j + q) * 24 + x = (8 * i + p) * 24 + w then BitVec.ofNat 32 v else s.pw j q x :=
  SMap.get_set _ _ _ _ _
theorem State.xing_setXing (s : State) (k cls idx : Nat) (x : Xing) :
    (s.setXing k x).xing cls idx = if xKey cls idx = k then x else s.xing cls idx := SMap.get_set _ _ _ _ _
theorem State.byte_emit (s : State) (o : Output) (a : Nat) : (s.emit o).byte a = s.byte a := rfl
theorem State.byte_setReg (s : State) (r : Nat) (v : W32) (a : Nat) : (s.setReg r v).byte a = s.byte a := rfl

end Sys2Proof.Machine
end

