-- ==== Sys2Proof/Laws/Host.lean ====
section
/-! SUPPORT. What an acknowledged access to a register does: the write of a page header, of a page body and of a window, the registers
that counting, routing and raising an error change, and the records that they leave as they are. -/
namespace Sys2Proof.Machine
open Sys2Proof
/-- The host's accesses reach a block with no reset, an aligned KCP and KRDY. -/
theorem hostUp_iff {s : State} : s.hostUp = true ↔ s.ctl.rstLow = false ∧ s.ctl.kcpAligned = true ∧ s.krdy = true := by
  unfold State.hostUp State.krdy; cases s.ctl.rstLow <;> simp [Bool.and_eq_true]
/-- A transfer that writes is performed and answered. -/
theorem kcp_write {s : State} (h : s.kcpUp = true) (a v meet) :
    kcp ⟨true, a, v, false, meet⟩ s = (hostWrite a.toNat v meet s).1.emit (.kcp (hostWrite a.toNat v meet s).2 0) := by
  unfold State.kcpUp at h; simp only [Bool.and_eq_true, Bool.not_eq_true'] at h
  simp [kcp, h, kcpDo]
/-- A transfer that reads is performed and answered. -/
theorem kcp_read {s : State} (h : s.kcpUp = true) (a) :
    kcp ⟨false, a, 0, false, 0⟩ s = (hostRead a.toNat s).2.emit (.kcp true (hostRead a.toNat s).1) := by
  unfold State.kcpUp at h; simp only [Bool.and_eq_true, Bool.not_eq_true'] at h
  simp [kcp, h, kcpDo]
theorem hostUp_kcpUp {s : State} (h : s.hostUp = true) : s.kcpUp = true := by
  rw [hostUp_iff] at h; simp [State.kcpUp, h]
theorem countPg_def (s : State) (a e) : s.countPg (pageOf a) e = s.countPg (pageOf a) e := rfl
/-- An acknowledged write to a page body. -/
theorem hostWrite_body {s : State} (h : s.hostUp = true) {a : Nat} {v meet : W32} (ha : a % 4 = 0) (hp : (pageRow a).isSome = true)
    (ho : 0x40 ≤ offOf a) (hpr : s.isProtected a v = false ∨ s.ctl.unlock.get (fun _ => false) (pageOf a) = true)
    {t : State} (e : (s.locked a).bodyWrite a v meet = (t, true)) :
    (hostWrite a v meet s).1.emit (.kcp (hostWrite a v meet s).2 0) = t.acked a := by
  rw [hostUp_iff] at h
  have h4 : a / 4 * 4 = a := by omega
  unfold State.locked at e
  have hn : (pageRow a).isNone = false := by cases hh : pageRow a <;> simp_all
  have hpp : (s.isProtected a v && !s.ctl.unlock.get (fun _ => false) (pageOf a)) = false := by
    rcases hpr with h | h <;> simp [h]
  unfold hostWrite
  simp only [h4, h.2.2, hn, hpp, show ¬ offOf a = 0xC by omega, show ¬ offOf a < 0x40 by omega, Bool.not_true, Bool.false_and,
    if_false, Bool.false_eq_true, e, if_true, State.acked]
/-- The same before the answer is recorded. -/
theorem hostWrite_body_fst {s : State} (h : s.hostUp = true) {a : Nat} {v meet : W32} (ha : a % 4 = 0) (hp : (pageRow a).isSome = true)
    (ho : 0x40 ≤ offOf a) (hpr : s.isProtected a v = false ∨ s.ctl.unlock.get (fun _ => false) (pageOf a) = true)
    {t : State} (e : (s.locked a).bodyWrite a v meet = (t, true)) :
    hostWrite a v meet s = (((t.setRegN 0x00004C (t.regN 0x00004C + 1)).setRegN 0x000050 a).countPg (pageOf a) 4, true) := by
  rw [hostUp_iff] at h
  have h4 : a / 4 * 4 = a := by omega
  unfold State.locked at e
  have hn : (pageRow a).isNone = false := by cases hh : pageRow a <;> simp_all
  have hpp : (s.isProtected a v && !s.ctl.unlock.get (fun _ => false) (pageOf a)) = false := by
    rcases hpr with h | h <;> simp [h]
  unfold hostWrite
  simp only [h4, h.2.2, hn, hpp, show ¬ offOf a = 0xC by omega, show ¬ offOf a < 0x40 by omega, Bool.not_true, Bool.false_and,
    if_false, Bool.false_eq_true, e, if_true]
theorem regRow_page {a : Nat} {r : RegRow} (h : regRow a = some r) : (pageRow a).isSome = true := by
  unfold regRow at h; split at h
  · cases h
  · rename_i h2; simp [h2]
theorem inst0_off (a : Nat) : offOf (inst0 a) = offOf a := by unfold inst0 offOf instOf; omega
theorem find_off {a : Nat} {r : RegRow} (h : regRow a = some r) : r ∈ regRows ∧ r.addr = inst0 (a / 4 * 4) := by
  unfold regRow at h; split at h
  · cases h
  · exact ⟨List.mem_of_find?_eq_some h, by simpa using List.find?_some h⟩
/-- Every register of the table lies in a page body. -/
theorem rows_off : regRows.all (fun r => decide (0x40 ≤ offOf r.addr)) = true := by decide +kernel
theorem regRow_off {a : Nat} {r : RegRow} (h : regRow a = some r) : 0x40 ≤ offOf a := by
  obtain ⟨h1, h2⟩ := find_off h
  have := List.all_eq_true.1 rows_off r h1
  rw [decide_eq_true_eq, h2, inst0_off] at this
  have e : offOf (a / 4 * 4) = offOf a := by unfold offOf; omega
  omega
theorem plain_off {a : Nat} (h : plainReg a = true) : 0x40 ≤ offOf a := by
  unfold plainReg hasAcc at h
  simp only [Bool.and_eq_true] at h
  cases hr : regRow a with
  | none => simp [hr] at h
  | some r => exact regRow_off hr
theorem plain_acts {a : Nat} (h : plainReg a = true) : actingReg (inst0 a) = false := by
  unfold plainReg at h; simp only [Bool.and_eq_true, Bool.not_eq_true'] at h; exact h.1.2
theorem inst0_eq {a k : Nat} (hk : inst0 k = k) (h : a = k) : inst0 a = k := by rw [h, hk]
theorem plain_prot {s : State} {a : Nat} {v : W32} (h : plainReg a = true) : s.isProtected a v = false := by
  have h1 := plain_off h
  have h2 := plain_acts h
  have h3 : winOf a = none := by unfold plainReg at h; simp only [Bool.and_eq_true] at h; simpa using h.1.1.1.1
  unfold State.isProtected
  have e1 : ¬ offOf a = 0x1C := by omega
  have e2 : ¬ a = 0x1040 := by intro e; rw [e] at h2; revert h2; decide
  have e3 : ¬ a = 0xE01054 := by intro e; rw [e] at h2; revert h2; decide
  have e4 : ¬ a = 0xC00048 := by intro e; rw [e] at h3; revert h3; decide
  simp [e1, e2, e3, e4]
theorem refuses_locked (s : State) (p : Nat) (b : Bool) (a n : Nat) : (s.setUnlock p b).refuses a n = s.refuses a n := by
  unfold State.refuses; rfl
/-- A write of a register with no effect of its own stores the bits the register holds. -/
theorem body_plain {s : State} {a : Nat} {v meet : W32} {r : RegRow} (hr : regRow a = some r) (hp : plainReg a = true)
    (hf : s.refuses a (masked r.mask v).toNat = none) :
    (s.locked a).bodyWrite a v meet = ((s.locked a).setReg a (masked r.mask v), true) := by
  have h2 := plain_acts hp
  have h0 := hp
  unfold plainReg at hp
  simp only [Bool.and_eq_true, Bool.not_eq_true', Option.isNone_iff_eq_none, Bool.or_eq_true] at hp
  obtain ⟨⟨⟨⟨w, ac⟩, pr⟩, _⟩, sel⟩ := hp
  have acc : (r.acc != .rw && r.acc != .rws) = false := by
    unfold hasAcc at ac; rw [hr] at ac; rcases ac with h | h <;> simp_all
  unfold actingReg at h2
  simp only [Bool.or_eq_false_iff, decide_eq_false_iff_not] at h2
  obtain ⟨⟨⟨⟨l, k1⟩, k2⟩, k3⟩, k4⟩ := h2
  have put : (s.locked a).putReg a v = (s.locked a).setReg a (masked r.mask v) := by
    unfold State.putReg
    have hf2 : (s.locked a).refuses a (masked r.mask v).toNat = none := by unfold State.locked; rw [refuses_locked]; exact hf
    rw [hr]; dsimp only
    rw [acc, hf2, pr]
    simp only [Bool.false_eq_true, if_false]
    unfold State.afterReg State.unpair
    rw [sel]
    have i1 : ¬ (0x002050 ≤ a ∧ a < 0x002060) := by
      intro h; apply k3
      have : inst0 a = a := by unfold inst0 instOf; omega
      omega
    have i2 : ¬ (0xE00080 ≤ a ∧ a < 0xE000A0) := by
      intro h; apply k4
      have : inst0 a = a := by unfold inst0 instOf; omega
      omega
    have i3 : ¬ a = 0xF0007C := by intro e; rw [e] at l; revert l; decide
    have i4 : ¬ a = 0xF00080 := by intro e; rw [e] at l; revert l; decide
    simp [i1, i2, i3, i4]
  unfold State.bodyWrite
  rw [w]
  dsimp only
  have i5 : ¬ (0x001060 ≤ a ∧ a < 0x001080) := by
    intro h; apply k1
    have : inst0 a = a := by unfold inst0 instOf; omega
    omega
  split <;> first
    | (rename_i e; rw [e] at l; exact absurd l (by decide))
    | (simp only [Bool.and_eq_true, decide_eq_true_eq, i5, k2, if_false, put])
theorem inPage_lt (page : Page) (o : Nat) (h : o < 4096) : inPage page o < 2 ^ 24 := by
  unfold inPage; have := page.isLt; omega
theorem pageOf_inPage (page : Page) (o : Nat) (h : o < 4096) : pageOf (inPage page o) = page.toNat * 4096 := by
  unfold inPage pageOf; omega
theorem offOf_inPage (page : Page) (o : Nat) (h : o < 4096) (h4 : o % 4 = 0) : offOf (inPage page o) = o := by
  unfold inPage offOf; omega
theorem pageRow_inPage (page : Page) (o : Nat) (h : o < 4096) : pageRow (inPage page o) = pageRow (page.toNat * 4096) := by
  unfold pageRow
  have h1 : pageOf (inPage page o) = pageOf (page.toNat * 4096) := by unfold inPage pageOf; omega
  have h2 : instOf (inPage page o) = instOf (page.toNat * 4096) := by unfold inPage instOf; omega
  rw [h1, h2]
theorem kcpWrite_eq {s : State} (h : s.kcpUp = true) {a : Nat} (ha : a < 2 ^ 24) (v : W32) :
    kcpWrite a v s = (hostWrite a v 0 s).1.emit (.kcp (hostWrite a v 0 s).2 0) := by
  unfold kcpWrite; rw [kcp_write h, BitVec.toNat_ofNat, Nat.mod_eq_of_lt ha]
/-- An acknowledged write to a page header. -/
theorem hostWrite_head {s : State} (h : s.hostUp = true) {page : Page} {o : Nat} {v meet : W32} (ho : o < 0x40) (h4 : o % 4 = 0)
    (hk : o ≠ 0x0C) (hp : (pageRow (page.toNat * 4096)).isSome = true)
    (hpr : o ≠ 0x1C ∨ s.ctl.unlock.get (fun _ => false) (page.toNat * 4096) = true)
    {t : State} (e : (s.setUnlock (page.toNat * 4096) false).headWrite (page.toNat * 4096) o v meet = (t, true)) :
    (hostWrite (inPage page o) v meet s).1.emit (.kcp (hostWrite (inPage page o) v meet s).2 0) = t.acked (inPage page o) := by
  rw [hostUp_iff] at h
  have h5 : inPage page o / 4 * 4 = inPage page o := by unfold inPage; omega
  have hn : (pageRow (inPage page o)).isNone = false := by
    rw [pageRow_inPage page o (by omega)]; cases hh : pageRow (page.toNat * 4096) <;> simp_all
  have hoff := offOf_inPage page o (by omega) h4
  have hpg := pageOf_inPage page o (by omega)
  have hpp : (s.isProtected (inPage page o) v && !s.ctl.unlock.get (fun _ => false) (page.toNat * 4096)) = false := by
    rcases hpr with h | h
    · have e1 : ¬ inPage page o = 0x1040 := by intro e; rw [e] at hoff; have : offOf 0x1040 = 0x40 := by decide
                                               omega
      have e2 : ¬ inPage page o = 0xE01054 := by intro e; rw [e] at hoff; have : offOf 0xE01054 = 0x54 := by decide
                                                 omega
      have e3 : ¬ inPage page o = 0xC00048 := by intro e; rw [e] at hoff; have : offOf 0xC00048 = 0x48 := by decide
                                                 omega
      simp [State.isProtected, hoff, h, e1, e2, e3]
    · simp [h]
  unfold hostWrite
  simp only [h5, hoff, hpg, h.2.2, hn, hpp, hk, ho, Bool.not_true, Bool.false_and, if_false, Bool.false_eq_true, if_true, e, State.acked]
/-- A write of PG_KEY unlocks its page, or sets KEY_FAIL (02 R35). -/
theorem hostWrite_pgKey {s : State} (h : s.hostUp = true) {page : Page} {v meet : W32} 
    (hp : (pageRow (page.toNat * 4096)).isSome = true) :
    (hostWrite (inPage page 0x0C) v meet s).1.emit (.kcp (hostWrite (inPage page 0x0C) v meet s).2 0) =
      (if fld v 0 16 = 0xC3A5 then s.setUnlock (page.toNat * 4096) true
        else (s.setUnlock (page.toNat * 4096) false).err (page.toNat * 4096) 0).acked (inPage page 0x0C) := by
  rw [hostUp_iff] at h
  have h5 : inPage page 0x0C / 4 * 4 = inPage page 0x0C := by unfold inPage; omega
  have hn : (pageRow (inPage page 0x0C)).isNone = false := by
    rw [pageRow_inPage page 0x0C (by omega)]; cases hh : pageRow (page.toNat * 4096) <;> simp_all
  have hoff := offOf_inPage page 0x0C (by omega) (by omega)
  have hpg := pageOf_inPage page 0x0C (by omega)
  have hpp : s.isProtected (inPage page 0x0C) v = false := by
      have e1 : ¬ inPage page 0x0C = 0x1040 := by intro e; rw [e] at hoff; exact absurd hoff (by decide)
      have e2 : ¬ inPage page 0x0C = 0xE01054 := by intro e; rw [e] at hoff; exact absurd hoff (by decide)
      have e3 : ¬ inPage page 0x0C = 0xC00048 := by intro e; rw [e] at hoff; exact absurd hoff (by decide)
      simp [State.isProtected, hoff, e1, e2, e3]
  unfold hostWrite
  simp [h5, hoff, hpg, h.2.2, hn, hpp, State.acked, State.headWrite]
/-- Counting an event changes only the page's event counter. -/
theorem reg_countEv (s : State) (pg e n a : Nat) (h : a ≠ pg + 0x2C) : (s.countEv pg e n).reg a = s.reg a := by
  unfold State.countEv; split
  · rw [State.reg_setRegN, if_neg h]
  · rfl
theorem reg_countPg (s : State) (pg e a : Nat) (h : a ≠ pg + 0x2C) : (s.countPg pg e).reg a = s.reg a := by
  unfold State.countPg; split
  · exact reg_countEv _ _ _ _ _ h
  · rfl
theorem reg_krdyEdge (w : Bool) (s : State) (a : Nat) (h : a ≠ 0x2C) : (krdyEdge w s).reg a = s.reg a := by
  unfold krdyEdge; split
  · rw [reg_countEv _ _ _ _ _ (by omega)]; rfl
  · split <;> rfl
theorem reg_acked (s : State) (x a : Nat) (h1 : a ≠ 0x4C) (h2 : a ≠ 0x50) (h3 : a ≠ pageOf x + 0x2C) : (s.acked x).reg a = s.reg a := by
  unfold State.acked
  show (State.countPg _ _ _).reg a = _
  rw [reg_countPg _ _ _ _ h3, State.reg_setRegN, if_neg h2, State.reg_setRegN, if_neg h1]
/-- Memory and the records that windows hold. -/
def recs (s : State) := (s.mem, s.ctxR, s.polR, s.updR, s.domR, s.tqR, s.partR, s.grdR)
theorem countEv_recs (s : State) (pg e n : Nat) : recs (s.countEv pg e n) = recs s := by unfold State.countEv; split <;> rfl
theorem countEv_ctl (s : State) (pg e n : Nat) : (s.countEv pg e n).ctl = s.ctl := by unfold State.countEv; split <;> rfl
theorem countPg_ctl (s : State) (pg e : Nat) : (s.countPg pg e).ctl = s.ctl := by
  unfold State.countPg; split
  · exact countEv_ctl _ _ _ _
  · rfl
theorem countPg_recs (s : State) (pg e : Nat) : recs (s.countPg pg e) = recs s := by
  unfold State.countPg; split
  · exact countEv_recs _ _ _ _
  · rfl
theorem krdyEdge_recs (w : Bool) (s : State) : recs (krdyEdge w s) = recs s := by
  unfold krdyEdge; split
  · rw [countEv_recs]; rfl
  · split <;> rfl
theorem krdyEdge_ctl (w : Bool) (s : State) : (krdyEdge w s).ctl = s.ctl := by
  unfold krdyEdge; split
  · rw [countEv_ctl]; rfl
  · split <;> rfl
theorem acked_ctl (s : State) (x : Nat) : (s.acked x).ctl = s.ctl := by
  unfold State.acked; show (State.countPg _ _ _).ctl = _; rw [countPg_ctl]; rfl
theorem acked_recs' (s : State) (x : Nat) : recs (s.acked x) = recs s := by
  unfold State.acked; show recs (State.countPg _ _ _) = _; rw [countPg_recs]; rfl
theorem tickHold_recs (s : State) : recs s.tickHold = recs s := by
  unfold State.tickHold; split <;> rfl
theorem syncOff_recs (s : State) : recs s.syncOff = recs s :=
  tickHold_recs _
theorem softFields_recs (s : State) (pg : Nat) : recs (s.softFields pg) = recs s := by
  unfold State.softFields
  split <;> first
    | rfl
    | exact syncOff_recs s
theorem softReset_recs' (s : State) (pg : Nat) : recs (s.softReset pg) = recs s := by
  unfold State.softReset
  rw [krdyEdge_recs]
  exact softFields_recs s pg
theorem get_filter_page (s : State) {pg : Nat} (a : Nat) (ha : pageOf a = pg) :
    SMap.get regReset (s.regs.filter (fun e => pageOf e.1 != pg || keepReg e.1)) a = if keepReg a then s.reg a else regReset a := by
  split
  · rename_i h
    exact SMap.get_filter regReset (fun e => pageOf e != pg || keepReg e) s.regs a (by simp [h])
  · rename_i h
    refine SMap.get_none regReset (fun e he => ?_)
    have := (List.mem_filter.1 he).2
    intro e2; rw [e2] at this; simp [ha, h] at this
theorem rows_err : pageRows.all (fun p => decide (p.err < 2 ^ 32)) = true := by decide
theorem pageRow_err {a : Nat} {p : PageRow} (h : pageRow a = some p) : p.err < 2 ^ 32 := by
  unfold pageRow at h
  split at h
  · rename_i q hq
    split at h
    · cases h
      have := List.all_eq_true.1 rows_err p (List.mem_of_find?_eq_some hq)
      simpa using this
    · cases h
  · cases h
/-- Reading a register back. -/
theorem regN_setRegN (s : State) (a v x : Nat) : (s.setRegN a v).regN x = if x = a then v % 2 ^ 32 else s.regN x := by
  unfold State.regN; rw [State.reg_setRegN]; split
  · rw [BitVec.toNat_ofNat]
  · rfl
theorem regN_lt (s : State) (a : Nat) : s.regN a < 2 ^ 32 := (s.reg a).isLt
theorem regN_krdyEdge (w : Bool) (s : State) (a : Nat) (h : a ≠ 0x2C) : (krdyEdge w s).regN a = s.regN a := by
  unfold State.regN; rw [reg_krdyEdge _ _ _ h]
theorem reg_attend (s : State) (n a : Nat) (h : a ≠ 0x2C) : (s.attend n).reg a = if a = 0x44 then BitVec.ofNat 32 (s.regN 0x44 ||| 2 ^ n) else s.reg a := by
  unfold State.attend; rw [reg_krdyEdge _ _ _ h, State.reg_setRegN]
/-- Raising an error changes four registers at most. -/
theorem reg_raise (s : State) (pg bits a : Nat) (h : a ∉ [pg + 0x18, pg + 0x24, 0x2C, 0x44]) : (s.raise pg bits).reg a = s.reg a := by
  simp only [List.mem_cons, List.not_mem_nil, or_false, not_or] at h
  unfold State.raise
  dsimp only
  repeat' split
  all_goals simp [reg_attend, State.reg_setRegN, h]
/-- What raising errors does to PG_ERR, PG_ERR_FIRST and the attention register (02 R36, R39). -/
theorem regN_raise_all (s : State) (pg bits : Nat) (p : PageRow) (hp : pageRow pg = some p) (h1 : pg % 4096 = 0) :
    (s.raise pg bits).regN (pg + 0x18) = s.regN (pg + 0x18) ||| (bits &&& p.err)
    ∧ (s.raise pg bits).regN (pg + 0x24) = (if s.regN (pg + 0x18) = 0 ∧ bits &&& p.err ≠ 0 then
        (2 ^ 31 + lowBit (bits &&& p.err) * 2 ^ 24 + nfld s.time.ktime 10 24) % 2 ^ 32 else s.regN (pg + 0x24))
    ∧ (s.raise pg bits).regN 0x000044 = (if (bits &&& p.err) &&& (s.regN (pg + 0x18) ^^^ 0xFFFFFFFF) &&& s.regN (pg + 0x20) ≠ 0 then
        (s.regN 0x000044 ||| 2 ^ subOf pg) % 2 ^ 32 else s.regN 0x000044) := by
  have e1 : ¬ pg + 0x18 = 0x44 := by omega
  have e2 : ¬ pg + 0x24 = 0x44 := by omega
  have e3 : ¬ pg + 0x18 = 0x2C := by omega
  have e4 : ¬ pg + 0x24 = 0x2C := by omega
  have m0 : s.regN (pg + 0x18) ||| (bits &&& p.err) < 2 ^ 32 :=
    Nat.or_lt_two_pow (regN_lt _ _) (Nat.lt_of_le_of_lt Nat.and_le_right (pageRow_err hp))
  have m1 : (s.regN (pg + 0x18) ||| (bits &&& p.err)) % 2 ^ 32 = s.regN (pg + 0x18) ||| (bits &&& p.err) :=
    Nat.mod_eq_of_lt m0
  have A : ∀ (t : State) (n a : Nat), a ≠ 0x2C → (t.attend n).regN a = if a = 0x44 then (t.regN 0x44 ||| 2 ^ n) % 2 ^ 32 else t.regN a := by
    intro t n a h; unfold State.regN; rw [reg_attend _ _ _ h]; split
    · rw [BitVec.toNat_ofNat]; rfl
    · rfl
  unfold State.raise
  rw [hp]; dsimp only
  refine ⟨?_, ?_, ?_⟩
  · split <;> split <;> first
      | (simp [A, regN_setRegN, e1, e3, m1]; done)
      | (simp [A, regN_setRegN, e1, e3]; exact m0)
  · by_cases c : s.regN (pg + 0x18) = 0 ∧ bits &&& p.err ≠ 0
    · split <;> simp_all [A, regN_setRegN]
    · rw [if_neg c]
      have c2 : (decide (s.regN (pg + 0x18) = 0) && bits &&& p.err != 0) = false := by
        rw [Bool.eq_false_iff]; intro h; apply c; simpa using h
      simp only [c2, Bool.false_eq_true, if_false]
      split <;> simp [A, regN_setRegN, e2, e4]
  · by_cases c : (bits &&& p.err) &&& (s.regN (pg + 0x18) ^^^ 0xFFFFFFFF) &&& s.regN (pg + 0x20) ≠ 0
    · rw [if_pos c, if_pos (by simpa using c)]
      split <;> simp [A, regN_setRegN, e1, e2, Ne.symm e1, Ne.symm e2]
    · rw [if_neg c, if_neg (by simpa using c)]
      split <;> simp [regN_setRegN, Ne.symm e1, Ne.symm e2]
theorem lowBitF_lt : ∀ k i x, lowBitF k i x ≤ i + k := by
  intro k; induction k with
  | zero => intro i x; unfold lowBitF; omega
  | succ k ih => intro i x; unfold lowBitF; split
                 · omega
                 · have := ih (i + 1) x; omega
theorem subOf_lt (a : Nat) : subOf a < 16 := Nat.mod_lt _ (by decide)
theorem raise_ctl (t : State) (p i : Nat) : (t.raise p i).ctl = t.ctl := by
  unfold State.raise State.attend
  dsimp only
  repeat' split
  all_goals first | rfl | (rw [krdyEdge_ctl]; rfl)
theorem raise_recs (t : State) (p i : Nat) : recs (t.raise p i) = recs t := by
  unfold State.raise State.attend
  dsimp only
  repeat' split
  all_goals first | rfl | (rw [krdyEdge_recs]; rfl)
theorem err_ctl (t : State) (p i : Nat) : (t.err p i).ctl = t.ctl := raise_ctl t p _
theorem win_off {n : Nat} {x : Win} (hw : winOf n = some x) : 0x40 ≤ offOf n := by
  revert hw; unfold winOf; intro hw
  rw [← inst0_off]
  dsimp only at hw
  split at hw <;> first
    | (rename_i e; rw [e]; decide)
    | cases hw
/-- An acknowledged write of a window word. -/
theorem win_write {s : State} (hu : s.hostUp = true) {n : Nat} {x : Win} {v : W32} (hl : n < 2 ^ 24) (h4 : n % 4 = 0)
    (hp : (pageRow n).isSome = true) (hw : winOf n = some x) (hro : hasAcc n .ro = false)
    (hpr : s.isProtected n v = false ∨ s.ctl.unlock.get (fun _ => false) (pageOf n) = true) {t : State}
    (ht : (s.locked n).writeWin n x v = (t, true)) : kcpWrite n v s = t.acked n := by
  rw [kcpWrite_eq (hostUp_kcpUp hu) hl, hostWrite_body hu h4 hp (win_off hw) hpr (t := t)]
  unfold State.bodyWrite; simp [hw, hro]; exact ht
/-- An acknowledged write of a page body. -/
theorem body_write {s : State} (hu : s.hostUp = true) {n : Nat} {v : W32} (hl : n < 2 ^ 24) (h4 : n % 4 = 0)
    (hp : (pageRow n).isSome = true) (ho : 0x40 ≤ offOf n) 
    (hpr : s.isProtected n v = false ∨ s.ctl.unlock.get (fun _ => false) (pageOf n) = true) {t : State}
    (ht : (s.locked n).bodyWrite n v 0 = (t, true)) : kcpWrite n v s = t.acked n := by
  rw [kcpWrite_eq (hostUp_kcpUp hu) hl, hostWrite_body hu h4 hp ho hpr ht]
end Sys2Proof.Machine
end

