-- ==== Sys2Proof/Tests/Slice0.lean ====
section
/-! SUPPORT. Tests of single commands on small states, the well-formedness smoke test, and for every statement with
hypotheses a state and operands that meet them. Expected values come from the spec's words. -/
namespace Sys2Proof.Tests
open Sys2Proof Sys2Proof.Machine
set_option Elab.async false

/-! ### Small states -/

/-- After start-up: no reset, every crossing OPEN, KRDY high. -/
def up : State := { State.reset with ctl := { State.reset.ctl with
  rstLow := false, kcpAligned := true, sramInit := false, krefDone := true, xing := xAll.map (fun k => (k, .opened)) } }
/-- The same with KRDY low. -/
def busy : State := { up with ctl := { up.ctl with sramInit := true } }
/-- The state after a command; the same state where it answers none. -/
def nx (i : Instr) (s : State) : State := match exec i s with | .next t => t | _ => s
/-- Set words of a context record. -/
def cset (s : State) (c : Nat) (ws : List (Nat × Nat)) : State :=
  ws.foldl (fun s w => s.setCw c w.1 (BitVec.ofNat 32 w.2)) s
/-- A context in a state, with a 16-entry ring at 0x10000, completions at 0x20000 and a window of 1 MiB at 0. -/
def ctx (s : State) (c st : Nat) : State :=
  cset s c [(0, st), (5, 0x40000), (8, 0x10000), (10, 0x20000), (14, 0x100000)]
/-- A descriptor of four 64-bit words at the head of the ring of `ctx`, already copied. -/
def desc (s : State) (c : Nat) (q : List Nat) : State :=
  (s.setCf c 30 16 16 1).setHx c { s.hx c with copies := [⟨0, (q.map (leBytes 8)).flatten ++ zeros (64 - 8 * q.length), false⟩] }


/-! ### Hypotheses that states meet: the control port, resets and windows -/

/-- 15 Table 15-3: CTL_ARG0 (0x001044) is a plain register; every bit of it is listed. -/
theorem wit_plain : up.hostUp = true ∧ (0x001044 : Nat) % 4 = 0 ∧ (regRow 0x001044).isSome = true ∧ plainReg 0x001044 = true
    ∧ up.refuses 0x001044 0xFFFFFFFF = none := by decide +kernel
theorem wit_refused : busy.kcpUp = true ∧ busy.krdy = false ∧ offOf 0x001044 ≠ 0x0C ∧ up.hostUp = true
    ∧ (pageRow 0x10001C).isSome = true ∧ up.isProtected 0x10001C 1 = true
    ∧ up.ctl.unlock.get (fun _ => false) (pageOf 0x10001C) = false := by decide +kernel
theorem wit_header : up.hostUp = true ∧ (pageRow 0xF01000).isSome = true
    ∧ (up.setUnlock 0xF01000 true).hostUp = true
    ∧ (up.setUnlock 0xF01000 true).ctl.unlock.get (fun _ => false) 0xF01000 = true := by decide +kernel
/-- A page that quiesces while work is in flight, and then without. -/
def quiesced0 : State := nx (.quiesce 0x300) (ctx up 1 stReady)
theorem wit_quiesce : up.quiescing 0x300000 = false ∧ bit (up.reg 0x300010) 2 = false ∧ atOnce 0x300000 = false
    ∧ atOnce 0xF01000 = true ∧ quiesced0.quiescing 0x300000 = true ∧ quiesced0.hostUp = true
    ∧ fld (quiesced0.reg 0x300014) 4 4 = 4
    ∧ (nx (.quiesce 0x300) up).inFlight 0x300000 = false ∧ (nx (.quiesce 0x300) up).quiescing 0x300000 = true
    ∧ fld ((nx (.quiesce 0x300) up).reg 0x300014) 4 4 = 4 := by decide +kernel
theorem wit_soft : (nx (.quiesced 0x300) (nx (.quiesce 0x300) up)).quiesced 0x300000 = true
    ∧ (nx (.quiesced 0x300) (nx (.quiesce 0x300) up)).hostUp = true ∧ up.quiesced 0x300000 = false := by decide +kernel
theorem wit_busy : busy.kcpUp = true ∧ busy.krdy = false ∧ busy.hostUp = false := by decide +kernel
theorem wit_error : (up.err 0x300000 8).hostUp = true ∧ (pageRow 0x300000).isSome = true
    ∧ (up.err 0x300000 8).regN 0x300018 = 2 ^ 8 := by decide +kernel
/-- Control commands: unlocked, free to start; running; aborted. -/
theorem wit_command : up.hostUp = true ∧ bit (up.reg 0x001010) 1 = false
    ∧ (up.setUnlock 0x001000 true).ctl.unlock.get (fun _ => false) 0x001000 = true
    ∧ (up.setUnlock 0x001000 true).hostUp = true ∧ (up.setUnlock 0x001000 true).slotInUse 0 = false
    ∧ (ctx up 1 stReady).slotInUse 0 = true ∧ (ctx up 1 stReady).hostUp = true := by decide +kernel
theorem wit_command_ends : (up.cmdStart 1).ctl.cmd = some 1 ∧ (up.cmdStart 2).ctl.cmd = some 2
    ∧ (up.cmdStart 4).ctl.cmd = some 4 ∧ (up.cmdStart 3).ctl.cmd = some 3 ∧ (up.cmdStart 5).ctl.cmd = some 5
    ∧ (up.cmdStart 1).kcpUp = true ∧ (up.cmdStart 3).kcpUp = true ∧ up.ctl.cmd = none := by decide +kernel
/-- Every page of MSH, UPD and the Malt instances quiesced. -/
def still : State :=
  ([0x900000, 0xA00000] ++ ((List.range 16).map (fun i => [mltReg i 0, mltReg i 0x1000])).flatten).foldl
    (fun s a => s.setRegN (a + 0x14) 0x52) up
theorem wit_align : up.alignFree 1 = false ∧ up.alignFree 4 = false ∧ still.alignFree 1 = true ∧ still.alignFree 2 = true
    ∧ still.alignFree 4 = true ∧ still.xing 0 0 = .opened ∧ (still.setXing 0 .absent).xing 0 0 ≠ .opened
    ∧ (still.setXing 0 .absent).alignFree 4 = true ∧ portsOf 1 = 64 ∧ portsOf 2 = 16 ∧ portsOf 4 = 16 := by decide +kernel
theorem wit_power : up.dmp.power = 0 ∧ up.mayPark = true ∧ (ctx up 1 stReady).mayPark = false
    ∧ (up.setPower 2).dmp.power = 2 ∧ ((up.setPower 3).cmdStart 5).dmp.power = 3
    ∧ ((up.setPower 3).cmdStart 5).ctl.cmd = some 5 ∧ ((up.setPower 4).cmdStart 5).dmp.power = 4
    ∧ ((up.setPower 4).cmdStart 5).ctl.sramInit = false
    ∧ (∀ k ∈ xAll, (((up.setPower 4).cmdStart 5).ctl.xing.get xing0 k).final = true) := by decide +kernel
theorem wit_reset : up.ctl.rstLow = false ∧ State.reset.ctl.rstLow = true ∧ up.krdy = true
    ∧ ({ up with ctl := { up.ctl with kcpAligned := false } } : State).ctl.kcpAligned = false
    ∧ (regRow 0x002050).isSome = true ∧ (regRow 0x00205C).isSome = true := by decide +kernel
/-- Each phase of a crossing, at the ends of the counts that 02 Table 2-8 accepts for MAC. -/
theorem wit_crossing : countedPort 3 15 = true ∧ countedPort 1 63 = true
    ∧ (up.setXing (xKey 3 15) .frequency).xing 3 15 = .frequency ∧ (up.setXing (xKey 3 15) .fill).xing 3 15 = .fill
    ∧ (up.setXing (xKey 3 15) .lock).xing 3 15 = .lock ∧ (up.setXing 0 .presence).xing 0 0 = .presence
    ∧ (up.setXing 0 .presence).aligning 0 0 = false ∧ accepted 3 = (63936, 64064) := by decide +kernel
/-- Word 8 of a context record is the low word of RING_BASE; word 5 is no part of a pair. -/
def at_ (w : Nat) : State := up.setRegN 0x300044 (4 * w)
theorem wit_window : (winOf 0x300048).isSome = true ∧ (pageRow 0x300048).isSome = true ∧ (at_ 8).hostUp = true
    ∧ ((winOf 0x300048).map (at_ 8).winWord = some 8) ∧ (8 ∈ winLows 0x300048 0) ∧ ((at_ 8).pair 0x300048).latch = none
    ∧ hasAcc 0x300048 .ro = false ∧ (at_ 8).isProtected 0x300048 0 = false ∧ (at_ 8).winRefuse 0x300048 0 8 0 = none
    ∧ (winOf 0x300048).map (at_ 127).winWord = some 127 ∧ winWrap 0x300048 0 = 128 ∧ (5 ∉ winLows 0x300048 0)
    ∧ (4 ∉ winLows 0x300048 0) ∧ (at_ 5).winRefuse 0x300048 0 5 0 = none ∧ (9 ∉ winLows 0x300048 0)
    ∧ ((at_ 9).setPair 0x300048 ⟨none, some (8, 7)⟩).pair 0x300048 = ⟨none, some (8, 7)⟩
    ∧ ((at_ 9).setPair 0x300048 ⟨none, some (8, 7)⟩).winRefuse 0x300048 0 9 0 = none := by decide +kernel
theorem wit_readClear : (regRows.any (fun r => r.acc == .rc && r.addr != 0x300054 && r.addr != 0x50004C)) = true := by
  decide +kernel

/-! ### Records, doorbells, Malt and the host's registers -/

/-- The Tongs domain window at a word of domain 7, unlocked. -/
def dom (w : Nat) : State := ((up.setRegN 0xC00040 7).setRegN 0xC00044 (4 * w)).setUnlock 0xC00000 true
/-- The partition window of instance 2 at word 0 of partition 1. -/
def part0 : State := up.setRegN 0xD21040 1
theorem wit_records : (winOf 0x300048).map (at_ 0).winWord = some 0 ∧ (at_ 0).cState 0 = stFree ∧ bit (8 : W32) 3 = true
    ∧ (dom 6).hostUp = true ∧ (winOf 0xC00048).map (dom 6).winWord = some 6
    ∧ ((dom 6).setPair 0xC00048 ⟨none, some (5, 1)⟩).ctl.unlock.get (fun _ => false) 0xC00000 = true
    ∧ (((dom 6).setPair 0xC00048 ⟨none, some (5, 1)⟩).pair 0xC00048).stage = some (5, 1)
    ∧ (winOf 0xC00048).map (dom 4).winWord = some 4 ∧ (cset (dom 4) 1 [(0, 0x70002)]).domActive 7 = true
    ∧ (cset (dom 4) 1 [(0, 0x70002)]).regN 0xC00040 = 7 ∧ (winOf 0xC00048).map (dom 16).winWord = some 16
    ∧ (winOf 0xC00048).map (dom 47).winWord = some 47 ∧ (dom 16).domActive 7 = false
    ∧ mltReg 2 0x1048 = 0xD21048 ∧ (winOf 0xD21048).map part0.winWord = some 0 ∧ (winOf 0xD21048).map part0.winSel = some 1
    ∧ part0.pEn 2 1 = false ∧ (part0.setPw 2 1 0 1).pEn 2 1 = true ∧ part0.hostUp = true := by decide +kernel
/-- LOAD with shares of 256 given out already, and without. -/
theorem wit_load : (cset up 1 [(0, 1), (2, 256)]).cState 2 = stFree
    ∧ 256 < ((cset (cset up 1 [(0, 1), (2, 256)]) 2 [(2, 1)]).setCf 2 0 16 12 0).shareSum + 1
    ∧ (cset up 2 [(2, 256)]).shareSum = 0 ∧ (cset up 2 [(2, 256)]).cShare 2 = 256 ∧ up.claimed = 0 := by decide +kernel
/-- A queue of context 1 with its ring at 0x8000, four positions log2, not CYCLIC; and CYCLIC. -/
def queue (cyc : Nat) : State :=
  ((cset (ctx up 1 stReady) 1 [(5, 0x40002)]).setQw 3 0 (1 + cyc * 2 ^ 13 + 4 * 2 ^ 16)).setQw 3 1 0x8000
theorem wit_doorbell : (ctx up 1 stReady).hostUp = true ∧ (ctx up 1 stReady).cState 1 ≠ stFree
    ∧ (ctx up 1 stReady).cRing 1 = 16 ∧ (ctx up 1 stReady).below 1 0 ≤ (15 + 16 - 0) % 16 ∧ up.cState 1 = stFree
    ∧ (queue 0).hostUp = true ∧ (queue 0).qCtx 3 = 1 ∧ (queue 0).qState 3 = 0 ∧ (queue 0).queueOk 3 = true
    ∧ (queue 0).qCyclic 3 = false ∧ (queue 0).qRing 3 = 16 ∧ (queue 1).queueOk 3 = true ∧ (queue 1).qCyclic 3 = true
    ∧ (queue 1).qState 3 = 0 ∧ (queue 1).cState 1 ≠ stFree ∧ up.cRunnable 1 = false ∧ (ctx up 1 stReady).cRunnable 1 = true
    ∧ ((ctx up 1 stReady).setHx 1 { hopCtx0 1 with resetReq := true }).hx 1 = { hopCtx0 1 with resetReq := true } := by
  decide +kernel
/-- A pack that runs at instance 2, and one for a partition that is not enabled. -/
theorem wit_pack : (up.reg (mltReg 2 0x1010)).getLsbD 1 = false ∧ up.pEn 2 1 = false
    ∧ ({ up with mlt := { up.mlt with walks := [⟨2, 1, 1, 0, 0, false, 0⟩] } } : State).mlt.walks.any
        (fun x => x.inst == 2 && x.pass != 0) = true
    ∧ up.mlt.walks.any (fun x => x.inst == 2 && x.pass != 0) = false
    ∧ regulatorReg 0xD20060 = true ∧ regulatorReg 0xDF0070 = true ∧ instOf 0xDF0070 = 15 := by decide +kernel
/-- The root: node 0 and ROOT_ID 0. -/
theorem wit_park : up.quiescing 0xE01000 = false ∧ up.atRoot 5 = true ∧ (up.gx 5).asked = none ∧ (up.gx 5).agreed = false
    ∧ up.cStep 5 ≤ up.reg64 0xE01070 % 2 ^ 48 ∧ (up.verdictOf 5 0).isSome = false ∧ (up.gx 5).vlog = []
    ∧ (up.gx 5).decided = none ∧ ((up.setGx 5 { gctx0 5 with asked := some (3, 1) }).gx 5).asked = some (3, 1)
    ∧ (up.setGx 5 { gctx0 5 with asked := some (3, 1) }).hostUp = true
    ∧ ((up.setGx 5 { gctx0 5 with agreed := true }).gx 5).agreed = true
    ∧ ((up.setGx 5 { gctx0 5 with agreed := true }).gx 5).asked = none := by decide +kernel
/-- A context that waits in VERDICT. -/
def waiting : State := (ctx up 1 stReady).setHx 1 { hopCtx0 1 with opened := 1 }
theorem wit_force : (up.setUnlock 0xE01000 true).ctl.unlock.get (fun _ => false) 0xE01000 = true
    ∧ ((waiting.setUnlock 0xE01000 true).err 0xE01000 9).regN 0xE01018 = 2 ^ 9
    ∧ ((waiting.setUnlock 0xE01000 true).err 0xE01000 9).hostUp = true ∧ waiting.cActive 1 = true
    ∧ (waiting.hx 1).opened ≠ 0 ∧ waiting.noVerdict 1 = true ∧ fld (0x20001 : W32) 16 2 = 2
    ∧ (waiting.regN 0xE01018).testBit 9 = false := by decide +kernel
theorem wit_registers : up.hbEn = false ∧ (up.setRegN 0xE00040 1).hbEn = true ∧ (up.setRegN 0xE0004C 1).regN 0xE0004C = 1
    ∧ up.regN 0xE0004C ≠ 1 ∧ up.syncEn = false ∧ (up.setRegN 0x10004C 1).syncEn = true
    ∧ (up.setRegN 0x10004C 1).hostUp = true ∧ up.iden.check = 0
    ∧ ({ up with iden := { up.iden with check := 1 } } : State).iden.check ≠ 0 ∧ up.wearLoaded = false
    ∧ (up.setRegN 0xF01040 1).wearLoaded = true ∧ (up.setRegN 0xF01040 1).hostUp = true := by decide +kernel
/-- Channel 0 at 20,000, and a partition of instance 2: logical range of 4 KiB at 0x40000, store of 8 KiB at 0x80000, RATE 1. -/
def part_ (w0 : Nat) : State :=
  ((((((up.setRegN 0xD2006C 20000).setPw 2 1 0 w0).setPw 2 1 1 0x40000).setPw 2 1 3 4096).setPw 2 1 5 0x80000).setPw 2 1 7 8192).setPw 2 1 11 1
/-- Where the ranges of instance 2 allow it, a pack of a VR partition may start, and an FR partition may be enabled. -/
theorem wit_pack_starts (h2 : Config.maltRange 2 2 = 0) (h3 : Config.maltRange 2 3 = 0x100000) :
    ¬ (1 = 0 ∨ (part_ 5).pEn 2 1 = false ∨ ((part_ 5).mset 2 1).mode ≠ 2 ∨ (part_ 5).reg64 (mltReg 2 0x1050) % 4096 ≠ 0
      ∨ (part_ 5).reg64 (mltReg 2 0x1050) < maltFix 2 2
      ∨ maltFix 2 2 + maltFix 2 3 < (part_ 5).reg64 (mltReg 2 0x1050) + (part_ 5).pAddr 2 1 3
      ∨ (part_ 5).inFootprint ((part_ 5).reg64 (mltReg 2 0x1050)) ((part_ 5).pAddr 2 1 3) = true) := by
  unfold maltFix; rw [h2, h3]; decide +kernel
theorem wit_enable (h0 : Config.maltRange 2 0 = 0) (h1 : Config.maltRange 2 1 = 0x100000)
    (h2 : Config.maltRange 2 2 = 0) (h3 : Config.maltRange 2 3 = 0x100000) :
    (part_ 0).partOk 2 1 1 = true ∧ (part_ 0).partOk 2 1 0x61 = false := by
  unfold State.partOk maltFix; dsimp only; rw [h0, h1, h2, h3]; decide +kernel

/-! ### The machine, the Hopper, contexts and descriptors -/

theorem wit_machine : up.pending = [] ∧ up.time.frac < 2 ^ 40 ∧ -(2 ^ 40 : Int) < up.rate ∧ up.rate = 0
    ∧ (up.setRegN 0x100064 0xFFFFFFFF).rate ≠ 5 ∧ Memory.wf up.mem = true ∧ (Instr.release 0).wf = true
    ∧ built 1 64 = false ∧ built 6 1 = false := by decide +kernel
/-- A first valid exchange that acquires from time 0 with a parent at 1,000,000,000 ns. -/
theorem wit_ktime : (∃ t, exec (.delayResp 0 0 0 ⟨0, 0, false⟩) up = .next t) ∧ (∃ t, exec (.keyLoad .ends) up = .next t)
    ∧ (∃ t, exec .coldReset up = .next t) ∧ (∃ t, step up = .next t) := ⟨⟨_, rfl⟩, ⟨_, rfl⟩, ⟨_, rfl⟩, ⟨_, rfl⟩⟩
/-- Context 1 with a descriptor at the head of its ring; and the same context holding the Anvil, with all of Hearth. -/
def one (q : List Nat) : State := desc (ctx up 1 stReady) 1 q
def anv (q : List Nat) : State :=
  let s := desc (cset (ctx up 1 stRunning) 1 [(7, 0xFFFFFFFF)]) 1 q
  { s with hop := { s.hop with owner := some 1 } }
/-- The descriptor that is free to start. -/
def wt (s : State) : Waiting := (s.ready 1).getD ⟨99, 0, false, 0⟩
/-- The state while a descriptor waits. -/
def waits (s : State) : State := s.setHx 1 { s.hx 1 with waiting := some (wt s) }
theorem wit_hopper : (one [0]).cRunnable 1 = true ∧ up.quiescing 0x300000 = false ∧ up.hop.owner = none ∧ up.cands = []
    ∧ (ctx up 1 stReady).cands = [] ∧ ((anv [8, 0x40, 0, 0, 0x80, 1]).sliceOver 1 0 = false)
    ∧ (anv [8, 0x40, 0, 0, 0x80, 1]).hop.owner = some 1
    ∧ ({ anv [8, 0x40, 0, 0, 0x80, 1] with hop := { (anv [8, 0x40, 0, 0, 0x80, 1]).hop with owner := none } } : State).cands = [1]
    ∧ (anv [0]).sliceOver 1 0 = true ∧ (anv [0]).endSlice 1 ≠ anv [0] := by decide +kernel
/-- A LOADED context of one package whose checks pass, and one with a route slot missing its stage. -/
def loaded1 : State := (cset (ctx up 1 stLoaded) 1 [(23, 0x10004)]).setCf 1 30 16 16 1
theorem wit_contextReady : loaded1.cState 1 = stLoaded ∧ loaded1.cHead 1 ≠ loaded1.cTail 1 ∧ (loaded1.hx 1).checkFailed = false
    ∧ (cset loaded1 1 [(10, 0x10000)]).cState 1 = stLoaded ∧ (loaded1.hx 1).opened = 0
    ∧ loaded1.failedChecks 1 = [] ∧ loaded1.ctxStatus 1 % 128 = 0
    ∧ (loaded1.setRegN 0x100048 0).failedChecks 1 = []
    ∧ ({ loaded1 with polR := loaded1.polR.setList zero32 0 [0x80000000, 1] } : State).failedChecks 1 ≠ [] := by decide +kernel
theorem wit_endDesc : (Fin.plain 0).status = 0 ∧ (one [0]).cRing 1 = 16 := by decide +kernel
theorem wit_control : (one [0]).ready 1 = some (wt (one [0])) ∧ dOp (wt (one [0])).d = 0
    ∧ (one [0]).decode 1 (wt (one [0])) (decNop 0) = 0 ∧ (one [0, 1]).ready 1 = some (wt (one [0, 1]))
    ∧ dOp (wt (one [0, 1])).d = 0 ∧ (one [0, 1]).decode 1 (wt (one [0, 1])) (decNop (wt (one [0, 1])).d) = 3
    ∧ dOp (wt (one [1, 1])).d = 1 ∧ (one [1, 1]).decode 1 (wt (one [1, 1])) (decStep 0 (wt (one [1, 1])).d) = 0
    ∧ (one [1, 2]).decode 1 (wt (one [1, 2])) (decStep 0 (wt (one [1, 2])).d) = 3
    ∧ dOp (wt (one [2, 0, 0])).d = 2 ∧ (one [2, 0, 0]).decode 1 (wt (one [2, 0, 0])) (decWaitCnt (wt (one [2, 0, 0])).d) = 0
    ∧ (one [2, 4096]).decode 1 (wt (one [2, 4096])) (decWaitCnt (wt (one [2, 4096])).d) = 3
    ∧ dOp (wt (one [3, 2 ^ 48, 7])).d = 3
    ∧ (one [3, 2 ^ 48, 7]).decode 1 (wt (one [3, 2 ^ 48, 7])) (decWriteImm (wt (one [3, 2 ^ 48, 7])).d) = 0
    ∧ (one [3, 2 ^ 48 + 0x100000, 7]).decode 1 (wt (one [3, 2 ^ 48 + 0x100000, 7]))
        (decWriteImm (wt (one [3, 2 ^ 48 + 0x100000, 7])).d) = 6
    ∧ dOp (wt (one [4])).d = 4 ∧ knownOp 4 = false := by decide +kernel
/-- A sort of two pairs, loaded and running. -/
def sorting : State := nx (.sort 1) (one [0x0A, 0x100, 0x200, 2])
theorem wit_waiting : (waits (one [2, 0, 0])).waitingOp 1 2 = some (wt (one [2, 0, 0]))
    ∧ dq (wt (one [2, 0, 0])).d 2 0 48 ≤ (waits (one [2, 0, 0])).cCmplCnt (dq (wt (one [2, 0, 0])).d 1 0 12)
    ∧ (waits (one [1, 1])).waitingOp 1 1 = some (wt (one [1, 1]))
    ∧ ((waits (one [1, 1])).stepFree 1 (wt (one [1, 1]))).isSome = true ∧ (waits (one [1, 1])).paceAt 1 = none
    ∧ (one [0x0A, 0x100, 0x200, 2]).ready 1 = some (wt (one [0x0A, 0x100, 0x200, 2]))
    ∧ dOp (wt (one [0x0A, 0x100, 0x200, 2])).d = 0x0A ∧ (one [0]).quiescing 0x700000 = false
    ∧ (one [0x0A, 0x100, 0x200, 2]).decode 1 (wt (one [0x0A, 0x100, 0x200, 2])) (decSort (wt (one [0x0A, 0x100, 0x200, 2])).d) = 0
    ∧ sorting.hop.sort = some (1, [0, 0]) ∧ sorting.waitingOp 1 0x0A = some (wt (one [0x0A, 0x100, 0x200, 2]))
    ∧ ((nx (.nop 1) (one [0])).hx 1).ended ≠ [] := by decide +kernel
/-- A descriptor of the Anvil that is free to start passes its checks. -/
def passes (s : State) (k : Nat → State → Dec) : Bool :=
  s.ready 1 == some (wt s) && s.decode 1 (wt s) (k (wt s).d s) == 0 && s.hop.owner == some 1 && s.cState 1 == stRunning
    && !s.quiescing 0x400000 && !s.quiescing 0xA00000
theorem wit_vop : passes (anv [8, 0x40 + 2 ^ 49, 0, 0, 0x80 + 2 ^ 49, 1]) decVop = true := by decide +kernel
theorem wit_vop_refused : let s := anv [8, 0x40 + 2 ^ 49, 0, 0, 0x80 + 2 ^ 49, 0]; s.ready 1 = some (wt s)
    ∧ s.decode 1 (wt s) (decVop (wt s).d s) = 3 := by decide +kernel
theorem wit_vred : passes (anv [9, 0x40 + 2 ^ 49, 0x80 + 2 ^ 49, 1, 1 + 2 ^ 24]) decVred = true := by decide +kernel
theorem wit_tload : passes (anv [0x10, 0x100 + 2 ^ 49, 1, 1 + 2 ^ 9 + 2 ^ 28]) (decTload 1) = true := by decide +kernel
theorem wit_tstore : passes (anv [0x11, 0x100 + 2 ^ 49, 1, 1 + 2 ^ 9 + 2 ^ 28]) (decTstore 1) = true := by decide +kernel
theorem wit_tbcast : passes (anv [0x12, 0, 0, 1 + 2 ^ 9 + 2 ^ 28, 0x100 + 2 ^ 49]) (decTbcast 1) = true := by decide +kernel
theorem wit_mmt : passes (anv [0x13, 0x100, 0x200, 0x300 + 2 ^ 49, 1 + 2 ^ 32, 1, 1 + 2 ^ 20 + 2 ^ 34, 32]) (decMmt 1) = true := by
  decide +kernel
/-- Update record 0 of slot 0 of context 1: rule r, eight owned elements; bank, masters and banks of working copies at 0x30000,
0x34000 and 0x36000, a Kiln of 256 B; the gradient bank of step 0 complete, and its verdict COMMIT. -/
def uset (s : State) (ws : List (Nat × Nat)) : State := ws.foldl (fun t w => t.setUw 0 w.1 w.2) s
def urec (r : Nat) (q : List Nat) : State :=
  let s := uset (anv q) [(0, 2 ^ 31 + r * 2 ^ 16), (8, 1), (12, 8), (13, 1), (14, 0x30000), (16, 0x34000), (18, 0x36000)]
  let t := { s with upd := { s.upd with banks := [⟨0, 0, 8⟩] } }
  t.setGx 1 { t.gx 1 with verd := [(0, some 0)] }
theorem wit_apply : passes (urec 0 [0x40, 0, 0, 0, 0]) (decApply 1) = true
    ∧ (urec 0 [0x40, 0, 0, 0, 0]).applyFree 1 (wt (urec 0 [0x40, 0, 0, 0, 0])).d = true := by decide +kernel
theorem wit_delta : passes (urec 5 [0x48, 0, 0x100, 1]) (decKDelta 1) = true := by decide +kernel
theorem wit_caskOut : passes (urec 0 [0x50, 0, 0x1000]) (decCaskOut 1) = true := by decide +kernel
theorem wit_caskIn : passes ((urec 0 [0x51, 0, 0x1000]).poke 0x1000 ((urec 0 [0x50, 0, 0x1000]).caskOut 0)) (decCaskIn 1) = true := by
  decide +kernel
theorem wit_publish : let s := urec 0 [0x41, 0, 0x1000]; s.ready 1 = some (wt s) ∧ dOp (wt s).d = 0x41
    ∧ s.decode 1 (wt s) (decPublish (wt s).d) = 0 ∧ s.verdictOf 1 0 = some 0 := by decide +kernel

/-! ### Mash and the codec -/

/-- Context 1, READY, in its step 0, of node 0: slot 0 of a raw tensor (FP32 groups, 256 elements, leaf 0), and one route record
at 0x30000 for block 0 with the given parent, lane and children. -/
def job (parent lane : Nat) (kids : List Nat) : State :=
  let s := cset ((ctx up 1 stReady).setHx 1 { hopCtx0 1 with opened := 1 }) 1 [(16, 0x30000), (18, 1), (19, 0x31000), (21, 0x40000), (23, 0x10004)]
  let rec0 := 2 ^ 36 + parent * 2 ^ 56 + kids.length * 2 ^ 74 + lane * 2 ^ 82 + 2 ^ 88
  let t : State := { s with
    polR := (s.polR.set zero32 0 (BitVec.ofNat 32 (2 ^ 31 + 5 * 2 ^ 24))).set zero32 1 1
    pckR := (s.pckR.set zero32 0 0x20).set zero32 1 256
    mshR := s.mshR.set zero32 2 1 }
  (t.poke 0x30000 (leBytes 16 rec0)).poke 0x31000 ((kids.map (leBytes 8)).flatten)
/-- A leaf tile: slot, element, step, context and 256 values of four bytes. -/
def tile (slot elem step c : Nat) : Bytes :=
  leBytes 32 (slot + elem * 2 ^ 16 + step * 2 ^ 64 + c * 2 ^ 112) ++ zeros 1024
theorem wit_leaf : (job 0 0 []).xing 1 0 = .opened ∧ (job 0 0 []).quiescing 0x900000 = false
    ∧ (job 0 0 []).tileBad 0 (tileOf (tile 0 0 0 1)) = none ∧ (job 0 0 []).tileBad 0 (tileOf (tile 0 0 0 2)) = some 0
    ∧ (job 0 0 []).tileBad 0 (tileOf (tile 1 0 0 1)) = some 1 ∧ (job 0 0 []).tileBad 1 (tileOf (tile 0 0 0 1)) = some 2
    ∧ (job 0 0 []).tileBad 0 (tileOf (tile 0 256 0 1)) = some 3 ∧ (job 0 0 []).tileBad 0 (tileOf (tile 0 0 2 1)) = some 4
    ∧ (job 0 0 []).tileBad 0 (tileOf (tile 0 0 1 1)) = none
    ∧ (nx (.leafTile 0 (tile 0 0 0 1)) (job 0 0 [])).msh.tiles.length = 1
    ∧ (nx (.leafTile 0 (tile 0 0 0 1)) (job 0 0 [])).groupDone 0 0 0 = true ∧ (job 0 0 []).quantOk 1 0 = true
    ∧ (job 0 0 []).leafMask 0 ≠ 0 := by decide +kernel
/-- A boundary that waits for Temper, a pattern source, and a block whose group is at the codec's front. -/
def boundary1 : State := { job 0 0 [] with tmp := { (job 0 0 []).tmp with bound := [(1, some ⟨0, 0, false, [], [], none⟩)] } }
def front1 : State := { job 0 0 [] with pck := { (job 0 0 []).pck with front := [⟨1, 0, 0, 0, false, zeros 256 |>.map (·.toNat)⟩] } }
theorem wit_scales : boundary1.tmp.bound.get (fun _ => none) 1 = some ⟨0, 0, false, [], [], none⟩
    ∧ boundary1.quiescing 0x500000 = false := by decide +kernel
theorem wit_pattern : ({ job 0 0 [] with msh := { (job 0 0 []).msh with pat := [(1, some ⟨0, 0, 0⟩)] } } : State).msh.pat.get
    (fun _ => none) 1 = some ⟨0, 0, 0⟩ ∧ (job 0 0 []).quantOk 1 0 = true := by decide +kernel
theorem wit_quantise : front1.quiescing 0x800000 = false ∧ (front1.eff 0).rot = false ∧ (front1.eff 0).topk = false
    ∧ front1.used 0 = true ∧ front1.quantOk (front1.slotCtx 0) (front1.cStep 1) = true ∧ (front1.frontOf 0 0 0).isSome = true
    ∧ front1.policy 1 = 0 := by decide +kernel
/-- The package's own quantised block. -/
def own1 (parent lane : Nat) (kids : List Nat) : State := nx (.quantiseBlock 0 0)
  { job parent lane kids with pck := { (job parent lane kids).pck with
    front := [⟨1, 0, 0, 0, false, zeros 256 |>.map (·.toNat)⟩] } }
/-- The same with credit from node 3, its parent. -/
def sends1 : State := { own1 3 0 [] with qcn := { (own1 3 0 []).qcn with credits := [⟨3, 1, 0, 0, 0, 1, 0, 1⟩] } }
theorem wit_own : (own1 3 0 []).cActive 1 = true ∧ ((own1 3 0 []).hx 1).opened ≠ 0
    ∧ ((own1 3 0 []).pck.own.find? (fun o => o.ctx == 1 && o.bslot == 0 && o.blk == 0 && o.step == 0)).isSome = true
    ∧ ((own1 3 0 []).routeFor 1 0 0).isSome = true ∧ (((own1 3 0 []).routeFor 1 0 0).map (fun r => (r.final, r.children.length, r.parent)) =
      some (false, 0, 3)) ∧ ((own1 3 3 []).routeFor 1 0 0).map (·.final) = some true
    ∧ ((own1 0 0 []).routeFor 1 0 0).map (·.parent) = some (own1 0 0 []).node ∧ (own1 3 0 []).carriedIn 1 0 0 = false
    ∧ (sends1.pck.own.map (fun o => (sends1.trySend 1 0 0 3 0 false none o.g).isSome) = [true]) := by decide +kernel
/-- A hand-over of the sums of block 0. -/
theorem wit_front : (let s := job 0 0 []
    ({ s with msh := { s.msh with hands := [⟨1, 0, 0, 0, 0, 0, false, 2, [], zeros 256 |>.map (·.toNat), 1⟩] } } : State).msh.hands
      = [⟨1, 0, 0, 0, 0, 0, false, 2, [], zeros 256 |>.map (·.toNat), 1⟩]) := by decide +kernel
theorem wit_release : (let s := job 0 0 []
    let t : State := { s with grdR := (s.grdR.set zero32 25 1).set zero32 32 1, time := { s.time with ktime := 2 ^ 40 } }
    t.releaseDue 1 = true) := by decide +kernel
/-- A complete DATA message from node 3 for block 0, its bytes as given. -/
def data1 (bs : Bytes) : Rx := ⟨3, ⟨0, 1, 0, 0, 0, 0, 0⟩, bs.length, 0, 0, 0, 0, 0, [(0, bs)], 0, 0, false⟩
def withRx (s : State) (r : Rx) : State := { s with qcn := { s.qcn with rx := [r] } }
def in1 : State := withRx (job 0 0 [3]) (data1 [1])
def out1 : State := in1.rxDrop (data1 [1])
theorem wit_data : in1.rxFind (fun r => r.key.kind == 0) = some (data1 [1]) ∧ out1.cRunnable 1 = true ∧ out1.cGen 1 = 0
    ∧ out1.cStep 1 = 0 ∧ out1.billetSlot 1 0 = some 0 ∧ out1.billetSlot 1 1 = none
    ∧ (out1.routeFor 1 0 0).map (·.childPos 3) = some (some 0) ∧ (out1.routeFor 1 0 0).map (·.childPos 4) = some none
    ∧ out1.emitted 1 0 = [] ∧ (out1.openOf 1 0 0).marked = [] ∧ (out1.openOf 1 0 0).released = false
    ∧ out1.listed 1 0 0 3 = false ∧ (out1.checkBlock 1 0 0 [1]).isRight = true := by decide +kernel
/-- A block of slot 0 of K2 codes, all zero, that passes the tests of a received block. -/
def coded1 : State := { job 0 0 [3] with polR := (job 0 0 [3]).polR.set zero32 0 (BitVec.ofNat 32 (2 ^ 31 + 3 * 2 ^ 24)) }
def block1 : Bytes := gristBytes ⟨0, 0, 0, 3, 256, false, false, [], List.replicate 256 0, [], 1, false, false, true, true⟩
theorem wit_data_passes : (coded1.checkBlock 1 0 0 block1).isLeft = true := by decide +kernel
/-- Block 0 complete: marked by its child, with the package's own operand. -/
def full1 (t : Option (List Nat)) : State :=
  (job 0 0 [3]).putOpen { (job 0 0 [3]).openOf 1 0 0 with marked := [0], own := true, todo := t }
theorem wit_emit : (full1 none).cActive 1 = true ∧ ((full1 none).routeFor 1 0 0).map
    (fun r => ((full1 none).receives r && (full1 none).isComplete r ((full1 none).openOf 1 0 0))) = some true
    ∧ (0 ∉ (full1 none).emitted 1 0) ∧ ((full1 none).openOf 1 0 0).todo = none
    ∧ ((full1 (some [3])).openOf 1 0 0).todo = some [3] := by decide +kernel

/-! ### Quicon -/

/-- Port 2 up and in group 0, raw Ethernet without trailers; context 1 of `job` with a route from node 3. -/
def net : State := (((((job 0 0 [3]).setPort 2 ⟨true, true, some 0⟩).setRegN 0xB00044 1).setRegN 0xB00040 0).setRegN 0xB01080 4).timePort
def hdr1 (v k len : Nat) : Bytes := hdrBytes { hdrOf (zeros 48) with ver := v, kind := k, src := 3, ctx := 1, len := len, slen := len }
theorem wit_frame : (net.macPort 2).link = true ∧ net.xing 3 2 = .opened
    ∧ (net.setRegN 0xB00044 0).decap [] = none ∧ net.decap (hdr1 2 0 8 ++ zeros 8) = some (hdr1 2 0 8 ++ zeros 8, none)
    ∧ net.hdrOk (hdr1 2 0 8 ++ zeros 8) = true ∧ net.e2eOk (hdr1 2 0 8 ++ zeros 8) = true
    ∧ net.frameLen (hdr1 2 0 8 ++ zeros 8) = true ∧ net.hdrOk (hdr1 3 0 8 ++ zeros 8) = false
    ∧ (net.setRegN 0xB00040 1).e2eOk (hdr1 2 0 8 ++ zeros 8) = false
    ∧ nfld (ofLe ((hdr1 2 0 8 ++ zeros 8).take 1)) 0 4 ≠ 1 ∧ kx1Ok [1] = false
    ∧ kx1Ok (0x11 :: zeros 31 ++ leBytes 4 (crc32c (0x11 :: zeros 31))) = true := by decide +kernel
/-- A message to node 3 and its ACK; a CREDIT of node 3 for Billet b in step k. -/
def msg1 : Msg := ⟨⟨3, 1, 0, 0, 0, 0, 0⟩, [7], 0, 1, 0, .sent, 0, false, 0, none, false, 0, false, 0, 0, false, false, none,
  false⟩
def ack1 : Rx := ⟨3, ⟨0, 1, 0, 0, 0, 0, 1⟩, 1, 0, 0, 0, 0, 0, [(0, [0])], 0, 0, false⟩
def credit1 (b k : Nat) : Rx := ⟨3, ⟨0, 1, 0, k, b, 0, 2⟩, 1, 2 ^ 56, 0, 0, 0, 0, [(0, [0])], 0, 0, false⟩
def acked1 : State := { withRx net ack1 with qcn := { (withRx net ack1).qcn with msgs := [msg1] } }
theorem wit_answers : acked1.rxFind (fun r => r.key.kind == 1) = some ack1
    ∧ (acked1.rxDrop ack1).qcn.msgs.find? (fun m => m.key == { ack1.key with dst := 3, kind := 0 } && !m.gone
        && !(m.key.kind == 4 && nfld m.spec 0 3 != 0)) = some msg1
    ∧ (withRx net ack1).rxFind (fun r => r.key.kind == 1) = some ack1 ∧ net.qcn.msgs = []
    ∧ (withRx net (credit1 0 0)).rxFind (fun r => r.key.kind == 2) = some (credit1 0 0) ∧ net.cRunnable 1 = true
    ∧ net.cGen 1 = 0 ∧ net.cStep 1 = 0 ∧ net.billetSlot 1 0 = some 0 ∧ net.billetSlot 1 5 = none
    ∧ (withRx net (credit1 0 2)).rxFind (fun r => r.key.kind == 2) = some (credit1 0 2) := by decide +kernel
def shot1 (kind : Nat) : Shot := ⟨1, some 2, false, none, ⟨3, 1, 0, 0, 0, 0, kind⟩, 0, 0, [], 0, 9⟩
def withMsgs (ms : List Msg) (qs : List Shot) (now : Nat) : State :=
  { net with qcn := { net.qcn with msgs := ms, shots := qs }, time := { net.time with ktime := now } }
theorem wit_egress : (net.macPort 2).up = true ∧ net.nextGrant 2 = none
    ∧ (withMsgs [] [shot1 1] 0).nextGrant 2 = some (.shot (shot1 1))
    ∧ (withMsgs [{ msg1 with phase := .queued, active := true }] [] 0).nextGrant 2 =
      some (.msg { msg1 with phase := .queued, active := true })
    ∧ ((withMsgs [msg1] [] (24000 * 2000)).qcn.msgs.filter (withMsgs [msg1] [] (24000 * 2000)).timedOut) = [msg1]
    ∧ ((withMsgs [{ msg1 with attempt := 12 }] [] (24999 * 2000)).qcn.msgs.filter
      (withMsgs [{ msg1 with attempt := 12 }] [] (24999 * 2000)).timedOut) = [{ msg1 with attempt := 12 }]
    ∧ net.upPorts 0 = [2] ∧ (net.setRegN 0xB01080 0).upPorts 0 = [] := by decide +kernel
theorem wit_ports : net.xing 3 0 = .opened ∧ (net.macPort 0).since = none ∧ (net.macPort 2).since = some 0
    ∧ (net.macPort 2).link = true ∧ net.xing 3 2 = .opened ∧ net.regN 0xB01054 * usec ≤ 2 ^ 40
    ∧ (withMsgs [] [] (2 ^ 40)).time.ktime = 2 ^ 40 ∧ (net.macPort 0).up = false ∧ (net.macPort 2).up = true := by decide +kernel
theorem wit_forget : (let s := withRx { net with time := { net.time with ktime := 2 ^ 40 } } { ack1 with len := 2 }
    ∃ r ∈ s.qcn.rx, (!r.full && decide (r.last + 3200 * usec ≤ s.time.ktime)) = true)
    ∧ (∀ c ∈ net.live, (net.gx c).toHold = none) ∧ net.live = [1] := by decide +kernel
def vd0 : Vd := ⟨0, 0, 0, 0, 0, 0, [], [], [], [], none, 0⟩
theorem wit_held : (net.setGx 1 { net.gx 1 with toHold := some vd0 }).live = [1]
    ∧ ((net.setGx 1 { net.gx 1 with toHold := some vd0 }).gx 1).toHold = some vd0 := by decide +kernel

/-! ### Tongs and Malt -/

/-- Queue 3 of `queue`, RUNNING and posted to position 1, with this entry at position 0. -/
def posted (q : List Nat) : State := (((queue 0).setQw 3 8 0x10000).setQw 3 9 1).poke 0x8000 ((q.map (leBytes 8)).flatten)
theorem wit_entry : (posted [0]).qPosted 3 = true ∧ ((posted [0]).qx 3).skip = false ∧ (posted [0]).qMay 3 0 = true
    ∧ (posted [0]).badEntry 3 ((posted [0]).entWord 3 0) = false ∧ (posted [6]).badEntry 3 ((posted [6]).entWord 3 0) = true
    ∧ eOp ((posted [1, 0, 0x40, 8]).entWord 3 0) = 1
    ∧ (posted [1, 0, 0x40, 8]).badEntry 3 ((posted [1, 0, 0x40, 8]).entWord 3 0) = false ∧ (posted [1]).qMay 3 1 = true
    ∧ (posted [1]).inFootprint 0x40 8 = false ∧ eOp ((posted [2, 0, 0x40, 8]).entWord 3 0) = 2
    ∧ (posted [2, 0, 0x40, 8]).badEntry 3 ((posted [2, 0, 0x40, 8]).entWord 3 0) = false
    ∧ eOp ((posted [3]).entWord 3 0) = 3 ∧ (posted [3]).badEntry 3 ((posted [3]).entWord 3 0) = false
    ∧ eOp ((posted [4]).entWord 3 0) = 4 ∧ (posted [4]).badEntry 3 ((posted [4]).entWord 3 0) = false
    ∧ eOp ((posted [5, 0, 0, 8]).entWord 3 0) = 5
    ∧ (posted [5, 0, 0, 8]).badEntry 3 ((posted [5, 0, 0, 8]).entWord 3 0) = false := by decide +kernel
/-- A started entry: a WAIT_LCNT on a count of 0, and a WAIT_RCNT whose next poll is due. -/
def started (w : Nat) (key : Option MKey) (at_ : Option Nat) : State := (queue 0).setQx 3 ⟨1, 1, [⟨0, w, key, none, at_, false⟩], false⟩
theorem wit_waits : (((started 3 none none).qx 3).ents.find? (fun e => eOp e.w == 3 && e.status.isNone)) = some ⟨0, 3, none, none, none, false⟩
    ∧ (started 3 none none).eValue 3 3 ≤ (started 3 none none).localCount 3 3
    ∧ (started 3 none none).localCount 3 (3 + 2 ^ 64) < (started 3 none none).eValue 3 (3 + 2 ^ 64)
    ∧ (((started 4 none (some 0)).qx 3).ents.find? (pollDue (started 4 none (some 0)).time.ktime)) =
      some ⟨0, 4, none, none, some 0, false⟩ := by decide +kernel
/-- A request of node 3 to context 1 of protection domain 7: its window is 4 KiB at 0x1000, its key 9, every right given. -/
def req1 (top len : Nat) (bs : Bytes) : Rx := ⟨3, ⟨0, 1, 0, 0, 0, 0, 4⟩, bs.length, top + len * 2 ^ 59, 0, 0, 0, 0, [(0, bs)], 0, 0, false⟩
def target (r : Rx) : State :=
  let s := (((cset (ctx up 1 stReady) 1 [(0, stReady + 7 * 2 ^ 16), (5, 0x40002)]).setDw 7 0 0x1000).setDw 7 2 0x1000).setDw 7 4 15
  withRx { s with tng := { s.tng with keys := [(7, some 9)] } } r
/-- An open request passes tests 1 and 2 with its whole payload. -/
def taken1 (r : Rx) : Bool := match (target r).tngTake r with | .inr (_, pt) => pt == r.bytes | _ => false
theorem wit_target : taken1 (req1 0 8 (leBytes 8 9 ++ zeros 8)) = true
    ∧ (target (req1 0 8 (leBytes 8 9 ++ zeros 8))).tngRx 0 = some (req1 0 8 (leBytes 8 9 ++ zeros 8))
    ∧ (target (req1 0 8 (leBytes 8 9 ++ zeros 8))).tngCode (req1 0 8 (leBytes 8 9 ++ zeros 8)) (leBytes 8 9 ++ zeros 8) = 0
    ∧ (target (req1 0 8 (leBytes 8 9 ++ zeros 8))).tngCode (req1 0 8 (leBytes 8 9 ++ zeros 8)) (leBytes 8 8 ++ zeros 8) = 2
    ∧ (target (req1 0 8 (leBytes 8 9 ++ zeros 8))).tng.dones.length < 2 ^ (target (req1 0 8 [])).regF 0xC0006C 0 5
    ∧ (target (req1 0 8 [])).inFootprint 0x1000 8 = false
    ∧ taken1 (req1 1 8 (leBytes 8 9)) = true ∧ (target (req1 1 8 (leBytes 8 9))).tngRx 1 = some (req1 1 8 (leBytes 8 9))
    ∧ (target (req1 1 8 (leBytes 8 9))).tngCode (req1 1 8 (leBytes 8 9)) (leBytes 8 9) = 0
    ∧ taken1 (req1 2 0 (leBytes 8 9)) = true ∧ (target (req1 2 0 (leBytes 8 9))).tngRx 2 = some (req1 2 0 (leBytes 8 9))
    ∧ (target (req1 2 0 (leBytes 8 9))).tngCode (req1 2 0 (leBytes 8 9)) (leBytes 8 9) = 0
    ∧ (({ target (req1 0 8 []) with tng := { (target (req1 0 8 [])).tng with perf := [⟨req1 0 8 [], none, (0x1000, 8)⟩] } } : State).tng.perf =
      [⟨req1 0 8 [], none, (0x1000, 8)⟩]) := by decide +kernel
theorem wit_done_again : let r := req1 0 8 (leBytes 8 9 ++ zeros 8)
    let e : DoneEnt := ⟨3, 0, 1, 0, 0, 0, some 0, 0⟩
    let s : State := { target r with tng := { (target r).tng with dones := [e] } }
    s.tng.dones.find? (fun e => e.isOf r) = some e := by decide +kernel
/-- A READ, a CNT_READ or a PUBCHK of entry `w` is outstanding to node 3, and its answer has arrived. -/
def answer1 (w top mtop len code : Nat) (bs : Bytes) : State × Rx :=
  let k : MKey := ⟨3, 1, 0, 0, 3, 0, 4⟩
  let r : Rx := ⟨3, { k with dst := 0 }, bs.length, top + len * 2 ^ 59 + code * 2 ^ 76, 0, 0, 0, 0, [(0, bs)], 0, 0, false⟩
  let s := withRx (started w (some k) none) r
  ({ s with qcn := { s.qcn with msgs := [⟨k, [], mtop + len * 2 ^ 59, 8, 0, .sent, 0, false, 0, none, false, 0, false, 0, 0, false, false,
    none, false⟩] } }, r)
/-- The request that an answer meets is held, with its entry. -/
def meets (x : State × Rx) (top : Nat) : Bool :=
  x.1.tngRx top == some x.2 && (match (x.1.rxDrop x.2).tngHeld x.2 with | some (_, some _) => true | _ => false)
theorem wit_tongs_answers : meets (answer1 2 3 1 8 0 (zeros 8)) 3 = true ∧ meets (answer1 5 3 1 8 0 (zeros 8)) 3 = true
    ∧ meets (answer1 4 4 2 0 0 [0]) 4 = true ∧ meets (answer1 4 5 2 0 1 [0]) 5 = true
    ∧ (answer1 2 3 1 8 0 (zeros 8)).1.tngOpen 1 (answer1 2 3 1 8 0 (zeros 8)).2.spec (zeros 8) = some (zeros 8)
    ∧ (answer1 2 3 1 8 0 (zeros 8)).2.spec.testBit 4 = (answer1 2 3 1 8 0 (zeros 8)).1.cEnc 1
    ∧ (answer1 2 3 1 8 0 (zeros 8)).2.bytes = zeros 8
    ∧ (withRx up (answer1 2 3 1 8 0 (zeros 8)).2).tngRx 3 = some (answer1 2 3 1 8 0 (zeros 8)).2
    ∧ up.tngHeld (answer1 2 3 1 8 0 (zeros 8)).2 = none
    ∧ ({ up with tng := { up.tng with locals := [⟨3, 0, 0x40, 8⟩] } } : State).tng.locals =
      [⟨3, 0, 0x40, 8⟩] := by decide +kernel
/-- An enabled FR partition 1 of instance 2 in READY: 4 KiB at 0x40000. -/
def ready1 (mode : Nat) : State := (part_ (1 + mode * 2)).setPw 2 1 16 2
/-- A client access that waits at channel 0 of instance 2. -/
def waitsFor (r : MReq) : State := { ready1 0 with mlt := { (ready1 0).mlt with reqs := [r], tok := [(9 * 2, 1), (9 * 2 + 8, 1)] } }
theorem wit_malt : (waitsFor ⟨2, 0, 64, .write 0x80000 [], 0⟩).tok 2 0 = 1 ∧ (waitsFor ⟨2, 0, 64, .write 0x80000 [], 0⟩).tok 2 8 = 1
    ∧ ((waitsFor ⟨2, 0, 64, .write 0x80000 [], 0⟩).waits 2).length = 1
    ∧ ((waitsFor ⟨2, 0, 64, .write 0x80000 [], 0⟩).admits 2 0) = true
    ∧ (((ready1 0).waits 2).find? (fun w => (ready1 0).admits 2 w.ch)) = none
    ∧ (ready1 0).partAt 2 0x50000 = none ∧ (ready1 0).partAt 2 0x40000 = some 1 ∧ (ready1 0).pState 2 1 = 2
    ∧ (part_ 1).partAt 2 0x40000 = some 1 ∧ (part_ 1).pState 2 1 ≠ 2
    ∧ ((ready1 0).sliceOpen 2 = true) ∧ ((ready1 2).mset 2 1).mode = 2 ∧ ((ready1 0).mset 2 1).mode ≠ 2
    ∧ 0x40000 + 8 ≤ (ready1 0).pAddr 2 1 1 + (ready1 0).pAddr 2 1 3
    ∧ ((writePieces 2 1 (zeros 8) 0x40000 ((ready1 0).pieces 2 1 0x40000 8) (ready1 0)).isSome = true) := by decide +kernel
def walk1 (pass next off : Nat) (ch : Bool) : MWalk := ⟨2, 1, pass, next, off, ch, 0⟩
def walking1 (w : MWalk) : State := { part_ 5 with mlt := { (part_ 5).mlt with walks := [w] } }
theorem wit_walks : (walking1 (walk1 0 1000 0 false)).walkOf 2 1 = some (walk1 0 1000 0 false)
    ∧ (walking1 (walk1 0 1000 0 false)).walking (walk1 0 1000 0 false) = false
    ∧ (walking1 (walk1 0 0 0 false)).walkOf 2 1 = some (walk1 0 0 0 false)
    ∧ (walking1 (walk1 0 0 0 false)).walking (walk1 0 0 0 false) = true
    ∧ (walking1 (walk1 1 1000 1 false)).mlt.walks.find? (fun y => y.inst == 2 && y.pass == 1) = some (walk1 1 1000 1 false)
    ∧ (walking1 (walk1 1 1000 1 false)).walking (walk1 1 1000 1 false) = false
    ∧ 64 * 1 ≤ (walking1 (walk1 1 1000 1 false)).pAddr 2 1 7 ∧ (walking1 (walk1 1 1000 999 false)).pAddr 2 1 7 < 64 * 999
    ∧ (walking1 (walk1 2 1000 1 true)).mlt.walks.find? (fun y => y.inst == 2 && y.pass == 2) = some (walk1 2 1000 1 true)
    ∧ (walking1 (walk1 2 1000 1 true)).walking (walk1 2 1000 1 true) = false := by decide +kernel

/-! ### Guard, time, Damper and identity -/

/-- A complete GUARD message of node 3 for context 1. -/
def guard1 (gop step : Nat) (bs : Bytes) : Rx :=
  ⟨3, ⟨0, 1, 0, step, 0, 0, 3⟩, bs.length, gop, 0, 0, 0, 0, [(0, bs)], 0, 0, false⟩
/-- It arrives at `net`, where Guard takes it. -/
def heard (gop step : Nat) (bs : Bytes) : State := withRx net (guard1 gop step bs)
def takes (s : State) (gop : Nat) (r : Rx) : Bool :=
  s.rxFind (fun r => r.key.kind == 3 && r.gop == gop) == some r && (s.rxDrop r).guardCtxOk r.key.ctx r.key.gen
    && !(s.rxDrop r).grd.fenced && ((((s.rxDrop r).ack r 0 0 0 false false).guardPart r).1 == some r.bytes)
theorem wit_guard : ((List.range 13).all (fun g => takes (heard g 0 [0]) g (guard1 g 0 [0])) = true)
    ∧ ((heard 1 0 [0]).rxFind (fun r => r.key.kind == 3 && r.gop == 1) = some (guard1 1 0 [0]))
    ∧ ((cset (heard 1 0 [0]) 1 [(6, 9)]).rxDrop (guard1 1 0 [0])).guardCtxOk 1 0 = false ∧ jobOp 1 = false ∧ jobOp 4 = true
    ∧ ({ heard 1 0 [0] with grd := { (heard 1 0 [0]).grd with fenced := true } } : State).grd.fenced = true
    ∧ ((net.gx 1).vups.any (fun v => v.src == 3 && v.step == 0)) = false ∧ (net.verdictOf 1 0).isSome = false
    ∧ (let r := { guard1 1 0 [0] with spec := 1 + 2 * 2 ^ 60 }
      (net.ack r 0 0 0 false false |>.guardPart r).1 = none) := by decide +kernel
/-- A package with its part done: no slot, no route. -/
def done1 : State := (ctx up 1 stReady).setHx 1 { hopCtx0 1 with opened := 1 }
theorem wit_vup : done1.cActive 1 = true ∧ (done1.hx 1).opened ≠ 0 ∧ (done1.gx 1).sent = false ∧ (done1.gx 1).decided = none
    ∧ done1.noVerdict 1 = true ∧ done1.partDone 1 = true ∧ done1.lsDone 1 = true ∧ done1.vchildren 1 = []
    ∧ ({ done1 with grdR := (done1.grdR.set zero32 26 2).set zero32 27 2 } : State).atRoot 1 = false ∧ done1.atRoot 1 = true := by
  decide +kernel
/-- A verdict child 3 at 0x50000; and a context that waits for a VDOWN since KTIME 0. -/
def child3 (s : State) : State := { s with grdR := (s.grdR.set zero32 25 0x100).set zero32 35 0x50000 }.poke 0x50000 [3, 0, 0, 0]
theorem wit_verdicts : (child3 net).vchildren 1 = [3] ∧ net.cStep 1 = 0 ∧ (net.gx 1).sent = false ∧ net.stepOpen 1 0 = true
    ∧ net.stepOpen 1 1 = false ∧ net.cStep 1 < 1 ∧ ((net.setGx 1 { net.gx 1 with vqAt := some 0 }).gx 1).vqAt = some 0
    ∧ (net.grd.confirmed.contains (net.rootId 1) || (net.gx 1).lostTo.contains (net.rootId 1)) = false
    ∧ ((net.setGx 1 { net.gx 1 with vlog := [vd0] }).gx 1).vlog.find? (fun v => v.step == 0) = some vd0
    ∧ (net.setGx 1 { net.gx 1 with verd := [(0, some 0)] }).noVerdict 1 = false
    ∧ ((heard 9 0 (zeros 8)).billetSlot 1 0 = some 0)
    ∧ fld (({ heard 9 0 (zeros 8) with grdR := (heard 9 0 (zeros 8)).grdR.set zero32 29 3 } : State).gw 1 4) 0 18 = 3 := by
  decide +kernel
/-- Record 0 owns every element of slot 0, which is compared; its block's hash is 5 here and 6 at the peer. -/
def hashed : State :=
  let s := uset (heard 10 0 (leBytes 8 6)) [(0, 2 ^ 31), (12, 256), (13, 1)]
  let t : State := { s with grdR := s.grdR.set zero32 29 3 }
  t.setGx 1 { t.gx 1 with hashes := [(0, 0, 5)] }
theorem wit_lslist : takes hashed 10 (guard1 10 0 (leBytes 8 6)) = true ∧ hashed.billetSlot 1 0 = some 0 ∧ hashed.cStep 1 = 0
    ∧ fld (hashed.gw 1 4) 0 18 = 3 ∧ (hashed.reg 0xE01060).getLsbD 31 = false ∧ hashed.billetHashes 1 0 = some [5]
    ∧ firstDiff ([(5 : W64)].map (·.toNat)) (numsOf 8 1 (leBytes 8 6)) 0 = some 0 := by decide +kernel
/-- Heartbeats enabled; and a spare whose transfer has ended. -/
def beats : State := net.setRegN 0xE00040 1
theorem wit_job : beats.hbEn = true ∧ beats.grd.fenced = false ∧ beats.grd.periodAt = none ∧ beats.upPorts 0 = [2]
    ∧ (beats.setRegN 0xB01080 0).upPorts 0 = [] ∧ (beats.upPorts 0)[beats.grd.period % (beats.upPorts 0).length]? = some 2
    ∧ (heard 0 0 [0]).rxFind (fun r => r.key.kind == 3 && r.gop == 0) = some (guard1 0 0 [0])
    ∧ (∀ i, i < 8 → net.watch i = none ∨ net.grd.declared.get (fun _ => false) i = true
      ∨ net.time.ktime < net.grd.seen.get (fun _ => 0) i + 40000 * usec)
    ∧ (net.setRegN 0xE0004C 1).regN 0xE0004C = 1 ∧ net.regN 0xE0004C ≠ 1 ∧ (6 : Nat) ≠ net.node
    ∧ 136 * (net.slotsOf 1).length + 2 * (net.billetsOf 1).length = 138 := by decide +kernel
/-- Record 0 of a held context, with a RECOV area of one unit. -/
def recov : State :=
  let s := uset net [(0, 2 ^ 31), (12, 1), (13, 1)]
  let t : State := { s with grdR := s.grdR.set zero32 46 1 }
  t.setGx 1 { t.gx 1 with needResume := true }
theorem wit_recovery : recov.uUsed 0 = true ∧ (recov.gx (recov.uCtx 0)).needResume = true
    ∧ (recov.caskOut 0).length ≤ (recov.gw 1 21).toNat * 2048
    ∧ (let s : State := { net.setRegN 0xE00040 2 with grd := { net.grd with adopted := some (5, 6) } }
      s.grd.adopted = some (5, 6) ∧ s.grd.readySent = false ∧ (s.reg 0xE00040).getLsbD 1 = true
        ∧ ∀ u ∈ s.jobRecs, s.grd.transferred.contains u = true) := by decide +kernel
/-- A package that serves its time, and one that takes it from node 3. -/
def served (st : Nat) : State := ((net.setRegN 0x10004C 1).setRegN 0x100054 3).setTime st
def exch1 (t1 t3 : Option Nat) : Exch := ⟨3, 0, 0, 3, 0, t1, t3⟩
def inExch (st : Nat) (x : Exch) : State := { served st with time := { (served st).time with exch := some x } }
theorem wit_time : (served tLocked).serves = true ∧ (served tLocked).time.syncAt.get (fun _ => none) 3 = none
    ∧ (served tLocked).syncEn = true ∧ (served tLocked).timeHeld = false ∧ (served tLocked).tState = tLocked
    ∧ (3 : Nat) ≠ (served tLocked).node ∧ (served tLocked).takesFrom 3 = true ∧ (served tLocked).regN 0x100060 = 0
    ∧ (inExch tLocked (exch1 none none)).time.exch = some (exch1 none none) ∧ (served tLocked).ptpPort.isSome = true
    ∧ (inExch tAcquiring (exch1 (some 0) (some 0))).time.exch = some (exch1 (some 0) (some 0))
    ∧ (inExch tAcquiring (exch1 (some 0) (some 0))).tState = tAcquiring
    ∧ (inExch tLocked (exch1 (some 0) (some 0))).time.ktime ≤ 0 + 2000000000 / 2 ^ 3
    ∧ 0 + 2000000000 / 2 ^ 3 < ({ inExch tLocked (exch1 (some 0) (some 0)) with
        time := { (inExch tLocked (exch1 (some 0) (some 0))).time with ktime := 2 ^ 40 } } : State).time.ktime := by decide +kernel
/-- The same without an exchange at a late moment. -/
def late1 (st alt : Nat) : State := { (served st).setRegN 0x100058 alt with time := { ((served st).setRegN 0x100058 alt).time with ktime := 2 ^ 45 } }
theorem wit_loss : (late1 tLocked 0).tState = tLocked ∧ (late1 tLocked 0).time.parentOk + 200000000 ≤ (late1 tLocked 0).time.ktime
    ∧ (late1 tLocked 0).regN 0x100058 = (late1 tLocked 0).node ∧ (late1 tLocked 4).regN 0x100058 ≠ (late1 tLocked 4).node
    ∧ (late1 tLocked 4).time.onAlt = false ∧ (late1 tLocked 4).time.lastOk + 200000000 ≤ (late1 tLocked 4).time.ktime
    ∧ (late1 tHoldover 0).tState = tHoldover
    ∧ (late1 tHoldover 0).time.holdAt + (late1 tHoldover 0).regN 0x100064 * 2000000000 ≤ (late1 tHoldover 0).time.ktime
    ∧ (served tHoldover).tState = tHoldover
    ∧ (served tHoldover).time.ktime < (served tHoldover).time.holdAt + (served tHoldover).regN 0x100064 * 2000000000 := by decide +kernel
theorem wit_damper : (late1 tLocked 0).time.ktime / 2 ^ 21 ≠ (late1 tLocked 0).time.tick ∧ (late1 tLocked 0).tickDriven = true
    ∧ (late1 tAcquiring 0).time.ktime / 2 ^ 21 ≠ (late1 tAcquiring 0).time.tick ∧ (late1 tAcquiring 0).tickDriven = false
    ∧ up.time.ktime / 2 ^ 21 = up.time.tick ∧ bit (0x80000000 : W32) 31 = true ∧ bit (0 : W32) 31 = false ∧ up.dmp.bad < 9
    ∧ up.dmp.samples < 6000000
    ∧ 6000000 ≤ ({ up with dmp := { up.dmp with samples := 6000000 } } : State).dmp.samples := by decide +kernel
/-- A scan that runs, and a check that runs with port 0 expected. -/
def scanning : State := { up with iden := { up.iden with scan := some ⟨true, false⟩ } }
def checking (mac : Nat) : State := { up.setRegN 0x002058 (mac * 2 ^ 16) with iden := { up.iden with check := 2 } }
/-- Port 0 holds a valid record of site 0, and the domain table lists node 0 as used. -/
def placed : State :=
  let s := ({ (checking 1).setRegN 0x200080 0x100 with iden := { up.iden with check := 2, pos := [(0, 4 :: zeros 63)] } } : State)
  (s.setRegN 0x20104C 0).poke 0 (leBytes 4 (2 ^ 11 + 0xFFFFF * 2 ^ 12))
theorem wit_identity : up.iden.due = [] ∧ ({ up with iden := { up.iden with due := [4] } } : State).iden.due ≠ []
    ∧ scanning.iden.scan = some ⟨true, false⟩ ∧ up.iden.scan = none ∧ (checking 1).iden.check = 2
    ∧ (checking 1).topoFail = some (0, 0) ∧ placed.topoFail = none ∧ placed.iden.check = 2 ∧ up.iden.check ≠ 2 := by
  decide +kernel

/-! ### Hypotheses of the clauses on waiting, parking and closed crossings -/

/-- A key command that runs while a context of its domain has become READY. -/
theorem wit_key_in_use : ((ctx up 1 stReady).cmdStart 1).ctl.cmd = some 1 ∧ ((ctx up 1 stReady).cmdStart 1).slotInUse 0 = true
    ∧ ((ctx up 1 stReady).cmdStart 2).ctl.cmd = some 2 ∧ ((ctx up 1 stReady).cmdStart 2).slotInUse 0 = true
    ∧ (up.cmdStart 1).slotInUse 0 = false := by decide +kernel
theorem wit_reach : up.tunOpen = true ∧ loaded1.dmp.power = 0 ∧ (loaded1.applyHeld 1).failedChecks 1 = []
    ∧ (loaded1.applyHeld 1).ctxStatus 1 % 128 = 0 ∧ (up.setPower 2).dmp.power ≠ 0
    ∧ (({ loaded1 with polR := loaded1.polR.setList zero32 0 [0x80000000, 1] } : State).applyHeld 1).failedChecks 1 ≠ []
    ∧ (let s := cset loaded1 1 [(5, 0x40001)]
      (s.applyHeld 1).failedChecks 1 = [] ∧ (s.applyHeld 1).ctxStatus 1 % 128 ≠ 0) := by decide +kernel
/-- A tile held for the open step in a context that has taken up PATTERN; and without PATTERN the same group passes. -/
theorem wit_group : (let s := cset (nx (.leafTile 0 (tile 0 0 0 1)) (job 0 0 [])) 1 [(5, 0x40008)]
      s.cPattern (s.slotCtx 0) = true)
    ∧ (nx (.leafTile 0 (tile 0 0 0 1)) (job 0 0 [])).cPattern 1 = false
    ∧ (nx (.leafTile 0 (tile 0 0 0 1)) (job 0 0 [])).codecHolds 0 0 0 = false
    ∧ front1.codecHolds 0 0 0 = false ∧ front1.resBlocked 0 0 (front1.eff 0) = false := by decide +kernel
/-- A quantised block waits for credit from its parent, and holds what lies above it. -/
theorem wit_codec_holds : ((own1 3 0 []).pck.own.map (own1 3 0 []).ownWaits = [true]) ∧ (own1 3 0 []).codecHolds 0 0 1 = true
    ∧ (own1 3 0 []).codecHolds 0 0 0 = false ∧ sends1.codecHolds 0 0 1 = false := by decide +kernel
/-- The record that a REPLAY context follows lists its own block 0 as CARRIED. -/
def replay1 : State :=
  ({ own1 3 0 [] with grdR := ((own1 3 0 []).grdR.set zero32 25 3).set zero32 40 0x60000 } : State).poke 0x60000
    (leBytes 32 (2 ^ 80) ++ leBytes 16 (manEntry 0 1 0 0 1 0))
/-- A block that this package aggregates for node 3 can go, while its own block 0 waits to go there too. -/
def both1 : State :=
  let s := (cset sends1 1 [(18, 2)]).poke 0x30010 (leBytes 16 (2 ^ 16 + 2 ^ 36 + 3 * 2 ^ 56 + 2 ^ 74 + 2 ^ 88))
  let t : State := { s with qcn := { s.qcn with credits := [⟨3, 1, 0, 0, 0, 2, 0, 4⟩] } }
  t.putOpen { t.openOf 1 0 1 with released := true, todo := some [3] }
theorem wit_own_waits : replay1.carriedIn 1 (replay1.billetId 0) 0 = true
    ∧ (replay1.routeFor 1 0 0).map (fun r => (r.final, r.children.length, r.parent)) = some (false, 0, 3)
    ∧ both1.msh.opens.any both1.emitReady = true ∧ both1.carriedIn 1 0 0 = false ∧ sends1.msh.opens.any sends1.emitReady = false
    ∧ (both1.routeFor 1 0 0).map (fun r => (r.final, r.children.length, r.parent)) = some (false, 0, 3)
    ∧ (both1.pck.own.any (fun o => o.ctx == 1 && o.bslot == 0 && o.blk == 0 && o.step == 0)) = true := by decide +kernel
/-- A hand-over that needs the inverse rotation while SWG 0 quiesces. -/
theorem wit_front_waits : (let s : State := (up.setRegN 0x600010 2)
    let h : Hand := ⟨1, 0, 0, 0, 0, 0, true, 0, [], [], 1⟩
    ({ s with msh := { s.msh with hands := [h] } } : State).msh.hands = [h] ∧ h.kind = 0 ∧ h.rot = true
      ∧ s.quiescing 0x600000 = true) := by decide +kernel
/-- The step of `in1` has its close entry; its block is marked; it is released. -/
theorem wit_data_over : (let u : State := { out1 with qcn := { out1.qcn with closes := [⟨1, 0, 0, 0⟩] } }
      (u.closeOf 1 0 0).isSome = true) ∧ (out1.closeOf 1 0 0).isSome = false
    ∧ (0 ∈ ((out1.putOpen { out1.openOf 1 0 0 with marked := [0] }).openOf 1 0 0).marked)
    ∧ ((out1.putOpen { out1.openOf 1 0 0 with released := true }).openOf 1 0 0).released = true := by decide +kernel
/-- The generation of a context that was reset; and a reserved TOP. -/
theorem wit_stray : (let s : State := { net with qcn := { net.qcn with retired := [⟨1, 7, 0, false, true⟩] } }
      s.wasRetired 1 7 = true) ∧ (req1 6 0 [0]).top = 6
    ∧ (withRx net (req1 6 0 [0])).rxFind (fun r => r.key.kind == 4 && decide (6 ≤ r.top)) = some (req1 6 0 [0]) := by
  decide +kernel
/-- Message `msg1` times out, with a port and without. -/
def late0 (g : Nat) : State := withMsgs [{ msg1 with group := g }] [] (24000 * 2000)
theorem wit_retry : (late0 0).portless.qcn.msgs.filter (late0 0).portless.timedOut = [msg1]
    ∧ (late0 0).portless.upPorts 0 = [2] ∧ net.portless.qcn.msgs.filter net.portless.timedOut = []
    ∧ (late0 1).portless.qcn.msgs.filter (late0 1).portless.timedOut = [{ msg1 with group := 1 }]
    ∧ (late0 1).portless.upPorts 1 = [] := by decide +kernel
/-- A target under encryption whose domain has lost its key. -/
theorem wit_no_key : (cset (target (req1 1 8 [])) 1 [(5, 0x40003)]).tngSeal 1 0 [] = none
    ∧ (target (req1 1 8 [])).tngSeal 1 (tngSpec 3 false false false 0 0 0 8 0) [] = some ([], target (req1 1 8 []))
    ∧ (let s := target (req1 0 8 [])
      ({ s with tng := { s.tng with perf := [⟨req1 0 8 [], some 3, (0x1000, 8)⟩] } } : State).tng.perf ≠ []) := by decide +kernel
/-- What waits at instance 2 once the controller has presented a channel 0 request, and with a pack's read before it. -/
def tun1 : State := { ready1 0 with mlt := { (ready1 0).mlt with tok := [(9 * 2, 1), (9 * 2 + 1, 1), (9 * 2 + 8, 1)] } }
theorem wit_admit : ((((initOne 2 tun1).present 2 (some 64)).waits 2).find?
      (fun w => ((initOne 2 tun1).present 2 (some 64)).admits 2 w.ch)) = some (.req ⟨2, 0, 64, .tun, 0⟩)
    ∧ ((((initOne 2 tun1).present 2 none).waits 2).find? (fun w => ((initOne 2 tun1).present 2 none).admits 2 w.ch)) = none
    ∧ (let s : State := { tun1 with mlt := { tun1.mlt with walks := [walk1 1 0 1 false] } }
      (((initOne 2 s).present 2 none).waits 2).find? (fun w => ((initOne 2 s).present 2 none).admits 2 w.ch) =
        some (.walk (walk1 1 0 1 false))) := by decide +kernel
/-- Blocks of a walk still lie in the smoothing queue, and none do. -/
theorem wit_drain : (walking1 (walk1 0 1000 0 false)).draining 2 1 = false
    ∧ (walking1 (walk1 2 1000 1 true)).draining 2 1 = false
    ∧ (let s := walking1 (walk1 0 1000 0 false)
      ({ s with mlt := { s.mlt with reqs := [⟨2, 1, 64, .write 0x80000 [], 0⟩] } } : State).draining 2 1 = true)
    ∧ done1.ssqBlocked 1 0 = false := by decide +kernel
/-- An ordinary watcher, whose job's root and standby are nodes 6 and 7: its watched peer 9 has been silent for 40 ms. -/
def silent : State :=
  let s := beats
  let t : State := { s with grdR := ((s.grdR.set zero32 27 6).set zero32 28 7).set zero32 31 3 }
  { t.setRegN 0xE00080 9 with time := { t.time with ktime := 40000 * usec } }
theorem wit_timeout : silent.dmp.power = 0 ∧ silent.hbEn = true ∧ silent.watch 0 = some 9
    ∧ silent.grd.declared.get (fun _ => false) 0 = false
    ∧ silent.grd.seen.get (fun _ => 0) 0 + 40000 * usec ≤ silent.time.ktime
    ∧ (∀ j, j < 8 → j ≠ 0 → silent.watch j = none) ∧ silent.jobCtxs = [1]
    ∧ (∀ c ∈ silent.jobCtxs, silent.atRoot c = false ∧ silent.atStandby c = false) ∧ silent.failTargets = [6, 7]
    ∧ (silent.setPower 2).dmp.power ≠ 0 := by decide +kernel
/-- 12 R316: the failure is reported to the root and to the standby. -/
theorem test_timeout : (nx .heartbeatTimeout silent).qcn.msgs.map (fun m => (m.key.dst, m.key.billet, nfld m.spec 0 4)) =
      [(6, 9, 4), (7, 9, 4)]
    ∧ (nx .heartbeatTimeout silent).grd.declared.get (fun _ => false) 0 = true := by decide +kernel
/-- A package that has lost its parent while it acquires; the Damper and the identity master with their crossings shut. -/
theorem wit_shut : (late1 tAcquiring 4).tState = tAcquiring
    ∧ (late1 tAcquiring 4).time.parentOk + 200000000 ≤ (late1 tAcquiring 4).time.ktime
    ∧ (late1 tAcquiring 4).time.onAlt = false ∧ (late1 tAcquiring 4).regN 0x100058 ≠ (late1 tAcquiring 4).node
    ∧ (served tLocked).ptpPort.isSome = true ∧ up.krefLive = true ∧ (up.setPower 2).krefLive = false
    ∧ up.idenOpen = true ∧ (up.setXing (xKey 5 0) .absent).idenOpen = false := by decide +kernel

/-! ### Small tests. The expected values are those of the spec's own examples, or of its tables -/

/-- 00 example: offset 0x040 on page 1 of Malt instance 3 lies at 0xD3_1040. -/
theorem test_address : mltReg 3 0x1040 = 0xD31040 := by decide +kernel
/-- 04 R120 parameters: the CRC-32C of "123456789" is 0xE3069283, the published check value. -/
theorem test_crc32c : crc32c [0x31, 0x32, 0x33, 0x34, 0x35, 0x36, 0x37, 0x38, 0x39] = 0xE3069283 := by decide +kernel
/-- AES-256-GCM (04 R114): the published test case with a zero key, a zero nonce and nothing to seal. -/
theorem test_gcm : gcmSeal 0 (zeros 12) [] [] =
    [0x53, 0x0F, 0x8A, 0xFB, 0xC7, 0x45, 0x36, 0xB9, 0xA9, 0x63, 0xB4, 0xF1, 0xC4, 0xCB, 0x73, 0x8B] := by decide +kernel
/-- 03 example of the window: for Emax 3, +5.25 sets bits 157, 159 and 161; 2^−200 rounds to 0. -/
theorem test_window : windowIn 11 (decF f32 0x40A80000) = some (2 ^ 157 + 2 ^ 159 + 2 ^ 161)
    ∧ windowIn 11 (decF f64 ((1023 - 200) * 2 ^ 52)) = some 0 := by decide +kernel
/-- 03 example: QLOG4 and the candidate before and after the spike. -/
theorem test_candidate : qlog4 0x39200000 = -50 ∧ qlog4 0x3B400000 = -33 ∧ candOf 2 2 (-512) 0x39200000 = -59
    ∧ candOf 2 2 (-512) 0x3B400000 = -42 := by decide +kernel
/-- Slot 0: K4, H = 4, h = 2, DN_MARGIN = 1, DN_STEPS = 4, limits −512 and 571. -/
def spiked (r : RuleSt) : State :=
  { up with polR := up.polR.setList zero32 0 [BitVec.ofNat 32 (2 ^ 31 + 2 * 2 ^ 24 + 3 * 2 ^ 27), BitVec.ofNat 32 (2 * 2 ^ 12 + 2 ^ 16 + 3 * 2 ^ 18),
      BitVec.ofNat 32 (0x600 + 571 * 2 ^ 16)] }.setRule 0 r
/-- 03 Table 3-7: the spike raises q at once; the fourth step with a lower candidate lowers it. -/
theorem test_scale_rule : (spiked ⟨-59, 0, [0x39200000]⟩).stepSlot 0 0x3B400000 = ⟨-42, 0, [0x3B400000, 0x39200000]⟩
    ∧ ((spiked ⟨-42, 0, [0x39200000, 0x39200000, 0x39200000, 0x3B400000]⟩).stepSlot 0 0x39200000).dn = 1
    ∧ ((spiked ⟨-42, 3, [0x39200000, 0x39200000, 0x39200000, 0x39200000]⟩).stepSlot 0 0x39200000).q = -59 := by decide +kernel
/-- 03 example: y = 1.5 × 2^−9 under q = −59 lies between codes 80 and 81; 81 splits into 7 and 74. -/
theorem test_spike : srRound (decF f32 (scaleDown 0x3B400000 (-59))) 0 = 81
    ∧ srRound (decF f32 (scaleDown 0x3B400000 (-59))) 0xFFFFFF = 80 ∧ escapeSplit 7 81 true 4096 = (7, 74, 81)
    ∧ escapeSplit 7 81 false 4096 = (7, 0, 7) := by decide +kernel
/-- 04 example of stochastic rounding: 1.875 becomes 2 under a draw of 0x9C_4000 and 1 under 0xF0_0000. -/
theorem test_rounding : scaleDown 0x3CF00000 (-24) = 0x3FF00000 ∧ srRound (decF f32 0x3FF00000) 0x9C4000 = 2
    ∧ srRound (decF f32 0x3FF00000) 0xF00000 = 1 := by decide +kernel
/-- 04 example of the BF16 residual. -/
theorem test_residual : bf16Sr 0x3DCCCCCD 0x2000 = (0x3DCC, false) ∧ bf16Sr 0x3DCCCCCD 0x4000 = (0x3DCD, false) := by decide +kernel
/-- 04 Table 4-11: body and escapes of a dense block, a top-k block and a Sparge block. -/
theorem test_sizes : areaSizes 2 4096 0 3 false = 2048 + 24 ∧ areaSizes 2 4096 64 0 true = 96 + 32
    ∧ areaSizes 5 4096 0 0 false = 16384 := by decide +kernel
/-- 04 example of ties: two equal keys, and the two zeros, which are never kept. -/
theorem test_ties : keptSet [0, 0x80000000, 0x3D000000, 0xBD000000, 0x3F800000] 2 = [4, 2] := by decide +kernel
/-- 05 example: 0x7BFF becomes 65,504 × 2^−10 and 0x0001 becomes 2^−34 under LS_EXP = 10. -/
theorem test_convert : convert32 f32 10 (toF32 1 0x7BFF) = (0x427FE000, 0) ∧ convert32 f32 10 (toF32 1 0x0001) = (0x2E800000, 0) := by
  decide +kernel
/-- 06 Table 6-6: ACC_W 16,384; IN of 131,072 bytes admits 8 blocks and IN of 524,288 admits 32. -/
theorem test_window_of_blocks : 131072 / accW 0 4 = 8 ∧ 524288 / accW 0 4 = 32 := by decide +kernel
/-- 08 Table 8-6: the cost of blocks of 6,656 × 6,000, 6,688 × 6,000 and 8,192 × 8,192. -/
def nsRec (rows cols : Nat) : State :=
  uset up [(0, 2 ^ 31 + 4 * 2 ^ 16), (4, rows - 1 + (cols - 1) * 2 ^ 16)]
theorem test_newton_schulz : (nsRec 6656 6000).applyW 0 = 56969344 ∧ (nsRec 6688 6000).applyW 0 = 58448404
    ∧ (nsRec 8192 8192).applyW 0 = 127402048 := by decide +kernel
/-- 08 example: U_APPLY of 8,960 elements of ADAM has W = 172. -/
theorem test_adam_work : (uset up [(0, 2 ^ 31 + 2 * 2 ^ 16), (12, 8960)]).applyW 0 = 172 := by decide +kernel
/-- 11 example: a group from 0 to 5.5 has E = 133 and Z = 0; 2.3 takes code 5, which decodes to 2.5. -/
theorem test_malt_group : ((frGroup 4 true [0, 0x40B00000, 0x40133333]).e, (frGroup 4 true [0, 0x40B00000, 0x40133333]).z,
      (frGroup 4 true [0, 0x40B00000, 0x40133333]).codes) = (133, 0, [0, 11, 5])
    ∧ (msetOf 0x00050419).decode [] 133 0 5 = 0x4020 := by decide +kernel
/-- 16 example: word 0 of the partition, 0x0005_0419: EN, FR, ZP, ACT, BF16, w = 4, SEAL, domain 5; PB is 576. -/
theorem test_malt_word : msetOf 0x00050419 = ⟨0, true, true, 0, 4, 0, true, 5⟩ ∧ (msetOf 0x00050419).pb = 576
    ∧ (msetOf 0x00050419).lb = 2048 := by decide +kernel
/-- 14 Table 14-6: the first pattern element of an INDEX source is −1.0. -/
theorem test_pattern : patValue f32 ((job 0 0 []).seed 0 0) 1 0 4096 0 = 0xBF800000 := by decide +kernel
/-- 07 Table 7-11: a WRITE_IMM into the next descriptor patches its copy, which is marked. -/
def patching : State :=
  let s := one [3, 0x10068 + 0x1F * 2 ^ 48, 0x100000]
  s.setHx 1 { s.hx 1 with copies := (s.hx 1).copies ++ [⟨1, zeros 64, false⟩] }
theorem test_patch : (((nx (.writeImm 1) patching).hx 1).copies.map (fun c => (c.pos, c.refetch, ofLe ((c.bytes.drop 40).take 5)))).contains
    (1, true, 0x100000) = true := by decide +kernel
/-- 15 example: slot 0x0012 returns its maximum and no force vote through the window, and OFF stands at 0xE8. -/
def maxRead : State :=
  let s := (up.setRegN 0x500040 0x12).setRegN 0x500044 0xE0
  { s with tmp := { s.tmp with last := [(0x12, { stat0 0 with maxG := 0x3B400000, step := 1000000 })] } }
theorem test_slot_window : (nx (.windowDataRead 0x500048) (nx (.windowDataRead 0x500048) maxRead)).out.take 2 =
      [.kcp true 0, .kcp true 0x3B400000]
    ∧ (nx (.windowDataRead 0x500048) (nx (.windowDataRead 0x500048) maxRead)).regN 0x500044 = 0xE8 := by decide +kernel
/-- 02 R30, R35, R37: an acknowledged write stores; a protected write without its key and one while KRDY is low do not. -/
theorem test_writes : (nx (.registerWrite 0x001044 7) up).regN 0x001044 = 7 ∧ (nx (.registerWrite 0x001044 7) up).out.head? = some (.kcp true 0)
    ∧ (nx (.registerWrite 0x001044 7) busy).regN 0x001044 = 0 ∧ (nx (.registerWrite 0x001044 7) busy).out.head? = some (.kcp false 0) := by
  decide +kernel
/-- 07 R184: VOP's ADD of binary32 1.0 and 2.0 writes 3.0. -/
def adding : State :=
  ((anv [8, 0x40 + 2 * 2 ^ 48, 0x44 + 2 * 2 ^ 48, 0, 0x80 + 2 * 2 ^ 48, 1 + 2 ^ 40]).poke 0x40 (leBytes 4 0x3F800000)).poke 0x44
    (leBytes 4 0x40000000)
theorem test_add : (nx (.vop 1 ⟨1, 0, none⟩) adding).memN 0x80 4 = 0x40400000 := by decide +kernel
/-- 04 R109: the full sort orders pairs by key. -/
theorem test_sort : sortPairs 0 false [3, 1, 2] = [1, 2, 3] ∧ sortPairs 0 true [3, 1, 2] = [3, 2, 1] := by decide +kernel
/-- 13 R359: an edge of KREF advances KTIME by 20 units at rate 0. -/
theorem test_kref : (match step up with | .next t => t.time.ktime | _ => 0) = 20 := by decide +kernel
/-- 02 R50, R51: a cold reset starts the SRAM initialisation again, and KRDY is low until it ends. -/
theorem test_cold : (nx .coldReset up).krdy = false := by decide +kernel

/-! ### Ill-formed commands are refused by the check -/

theorem smoke_addresses : Instr.wf (.registerWrite 1 0) = false ∧ Instr.wf (.registerWrite 4 0) = true
    ∧ Instr.wf (.kcpSelDropped true 2 0) = false ∧ Instr.wf (.kcpReset 4 (some ⟨true, 3, 0, false, 0⟩) true) = false
    ∧ Instr.wf (.kcpReset 4 none true) = true ∧ Instr.wf (.windowDataRead 0x300040) = false
    ∧ Instr.wf (.windowDataRead 0x300049) = false ∧ Instr.wf (.windowDataWrite 0x300040 0) = false
    ∧ Instr.wf (.windowDataWrite 0x300048 0) = true ∧ Instr.wf (.readClear 0x300040) = false
    ∧ Instr.wf (.readClear 0x900050) = true ∧ Instr.wf (.regulatorWrite 0xD20040 0) = false
    ∧ Instr.wf (.regulatorWrite 0xD20060 0) = true := by decide +kernel
theorem smoke_fields : Instr.wf (.badOpcode 3) = false ∧ Instr.wf (.badOpcode 6) = true ∧ Instr.wf (.load 0) = false
    ∧ Instr.wf (.load 8) = true ∧ Instr.wf (.keyClr 0) = false ∧ Instr.wf (.partitionEnable 0 0) = false
    ∧ Instr.wf (.partitionDisable 0 1) = false ∧ Instr.wf (.park 0x1000) = false ∧ Instr.wf (.wake 0) = false
    ∧ Instr.wf (.initDone 0 0) = false := by decide +kernel
theorem smoke_crossings : Instr.wf (.alignFrequency 0 0 64000) = false ∧ Instr.wf (.alignFrequency 3 16 64000) = false
    ∧ Instr.wf (.alignFrequency 1 63 64000) = true ∧ Instr.wf (.alignFill 1 0 []) = false ∧ Instr.wf (.alignLock 5 0 true) = false := by
  decide +kernel
theorem smoke_data : Instr.wf (.leafTile 0 []) = false ∧ Instr.wf (.clientRead 0 0 0 false) = false ∧ Instr.wf (.clientWrite 0 0 []) = false
    ∧ Instr.wf (.scanDone [⟨0, 0, 0, [], [], [], []⟩] 0) = false ∧ Instr.wf (.followUp 0 0 0 ⟨0, 1000000000, false⟩ 0) = false
    ∧ Instr.wf (.delayResp 0 0 0 ⟨0, 999999999, false⟩) = true ∧ Instr.wf (.delayResp 0 0 0 ⟨0, 1000000000, false⟩) = false
    ∧ Instr.wf (.telemetrySample 0x04000000 0) = false := by decide +kernel

end Sys2Proof.Tests
end

section
/-! What LOAD leaves of a context, what a context reset leaves of it, and what enabling and disabling leave of a Malt partition. -/
namespace Sys2Proof.Machine
open Sys2Proof

/-! ### Fields of a word after a field is written -/

/-- A bit of a word after a field is written: the value's inside the field, the word's own outside it. -/
theorem getLsbD_setFld (w : W32) (lo n v i : Nat) (hi : i < 32) :
    (setFld w lo n v).getLsbD i = if lo ≤ i ∧ i < lo + n then v.testBit (i - lo) else w.getLsbD i := by
  have hm : (2 ^ n - 1).testBit (i - lo) = decide (i - lo < n) := Nat.testBit_two_pow_sub_one ..
  simp only [setFld, BitVec.getLsbD_or, BitVec.getLsbD_and, BitVec.getLsbD_not, BitVec.getLsbD_ofNat,
    Nat.testBit_shiftLeft, Nat.testBit_mod_two_pow, hm, hi, decide_true, Bool.true_and]
  by_cases h1 : lo ≤ i <;> by_cases h2 : i < lo + n
  · simp [h1, h2, show i - lo < n by omega]
  · simp [h1, h2, show ¬ i - lo < n by omega]
  · simp [h1]
  · simp [h1]

theorem testBit_fld (w : W32) (lo n i : Nat) : (fld w lo n).testBit i = (decide (i < n) && w.getLsbD (lo + i)) := by
  simp [fld, nfld, Nat.testBit_shiftRight, BitVec.getLsbD]

/-- A field reads back the value written to it. -/
theorem fld_setFld_same (w : W32) {lo n : Nat} (v : Nat) (h : lo + n ≤ 32) : fld (setFld w lo n v) lo n = v % 2 ^ n := by
  refine Nat.eq_of_testBit_eq fun i => ?_
  rw [testBit_fld, Nat.testBit_mod_two_pow]
  by_cases hi : i < n
  · rw [getLsbD_setFld _ _ _ _ _ (by omega), if_pos (by omega), Nat.add_sub_cancel_left]
  · simp [hi]

/-- A write of one field leaves a field apart from it. -/
theorem fld_setFld_apart (w : W32) {lo n lo' n' : Nat} (v : Nat) (h : lo' + n' ≤ 32) (ha : lo' + n' ≤ lo ∨ lo + n ≤ lo') :
    fld (setFld w lo n v) lo' n' = fld w lo' n' := by
  refine Nat.eq_of_testBit_eq fun i => ?_
  rw [testBit_fld, testBit_fld]
  by_cases hi : i < n'
  · rw [getLsbD_setFld _ _ _ _ _ (by omega), if_neg (by omega)]
  · simp [hi]

theorem cState_setCf_same (s : State) (c v : Nat) : (s.setCf c 0 0 3 v).cState c = v % 8 := by
  unfold State.cState State.cf State.setCf
  rw [State.cw_setCw, if_pos rfl]
  exact fld_setFld_same _ v (by decide)

/-- A write of a field of word 0 above STATE leaves STATE. -/
theorem cState_setCf_above (s : State) (c : Nat) {lo : Nat} (n v : Nat) (h : 3 ≤ lo) :
    (s.setCf c 0 lo n v).cState c = s.cState c := by
  unfold State.cState State.cf State.setCf
  rw [State.cw_setCw, if_pos rfl]
  exact fld_setFld_apart _ v (by decide) (.inl h)

/-! ### What an error flag and an adoption leave -/

/-- Memory, the records of contexts and partitions, and what the Hopper and Guard hold of every context are as they were. -/
structure LeavesCtx (s t : State) : Prop where
  mem : t.mem = s.mem
  ctxR : t.ctxR = s.ctxR
  partR : t.partR = s.partR
  hctx : t.hop.ctx = s.hop.ctx
  gctx : t.grd.ctx = s.grd.ctx

theorem LeavesCtx.refl (s : State) : LeavesCtx s s := ⟨rfl, rfl, rfl, rfl, rfl⟩
theorem LeavesCtx.trans {s t u : State} (h : LeavesCtx s t) (k : LeavesCtx t u) : LeavesCtx s u :=
  ⟨k.mem.trans h.mem, k.ctxR.trans h.ctxR, k.partR.trans h.partR, k.hctx.trans h.hctx, k.gctx.trans h.gctx⟩
theorem LeavesCtx.ite {s t u : State} {p : Prop} [Decidable p] (h : LeavesCtx s t) (k : LeavesCtx s u) :
    LeavesCtx s (if p then t else u) := by split <;> assumption
theorem LeavesCtx.cw {s t : State} (h : LeavesCtx s t) (c w : Nat) : t.cw c w = s.cw c w := by
  unfold State.cw; rw [h.ctxR]
theorem LeavesCtx.cState {s t : State} (h : LeavesCtx s t) (c : Nat) : t.cState c = s.cState c := by
  unfold State.cState State.cf; rw [h.cw]
theorem LeavesCtx.hx {s t : State} (h : LeavesCtx s t) (c : Nat) : t.hx c = s.hx c := by unfold State.hx; rw [h.hctx]
theorem LeavesCtx.gx {s t : State} (h : LeavesCtx s t) (c : Nat) : t.gx c = s.gx c := by unfold State.gx; rw [h.gctx]
theorem LeavesCtx.pw {s t : State} (h : LeavesCtx s t) (i p w : Nat) : t.pw i p w = s.pw i p w := by
  unfold State.pw; rw [h.partR]

theorem leavesCtx_setMlt (s : State) (m : Mlt) : LeavesCtx s { s with mlt := m } := ⟨rfl, rfl, rfl, rfl, rfl⟩
theorem setRegN_leavesCtx (s : State) (a v : Nat) : LeavesCtx s (s.setRegN a v) := ⟨rfl, rfl, rfl, rfl, rfl⟩
theorem emit_leavesCtx (s : State) (o : Output) : LeavesCtx s (s.emit o) := ⟨rfl, rfl, rfl, rfl, rfl⟩
theorem countEv_leavesCtx (s : State) (pg e n : Nat) : LeavesCtx s (s.countEv pg e n) :=
  .ite (setRegN_leavesCtx ..) (.refl s)
theorem krdyEdge_leavesCtx (was : Bool) (s : State) : LeavesCtx s (krdyEdge was s) :=
  .ite ((emit_leavesCtx ..).trans (countEv_leavesCtx ..)) (.ite (emit_leavesCtx ..) (.refl s))
theorem attend_leavesCtx (s : State) (n : Nat) : LeavesCtx s (s.attend n) :=
  (setRegN_leavesCtx ..).trans (krdyEdge_leavesCtx ..)
theorem raise_leavesCtx (s : State) (pg bits : Nat) : LeavesCtx s (s.raise pg bits) := by
  have recorded : ∀ {p : Prop} [Decidable p] (a v b w : Nat),
      LeavesCtx s (if p then (s.setRegN a v).setRegN b w else s.setRegN a v) :=
    fun a v _ _ => .ite ((setRegN_leavesCtx s a v).trans (setRegN_leavesCtx ..)) (setRegN_leavesCtx s a v)
  exact .ite ((recorded _ _ _ _).trans (attend_leavesCtx ..)) (recorded _ _ _ _)
/-- Setting a PG_ERR bit, with the attention and KRDY that may follow, changes no context and no partition (02 R36, R39). -/
theorem err_leavesCtx (s : State) (pg i : Nat) : LeavesCtx s (s.err pg i) := raise_leavesCtx ..
theorem setOwnInc_leavesCtx (s : State) (inc : Nat) : LeavesCtx s (s.setOwnInc inc) := ⟨rfl, rfl, rfl, rfl, rfl⟩
theorem announce_leavesCtx (ps : List Nat) (s : State) : LeavesCtx s (ps.foldl (fun s p => s.emit (s.announcement p)) s) := by
  induction ps generalizing s with
  | nil => exact .refl s
  | cons p ps ih => exact (emit_leavesCtx ..).trans (ih _)
/-- An adoption is the package's: no context is changed by it (12 R341). -/
theorem adoptHere_leavesCtx (s : State) (id inc : Nat) : LeavesCtx s (s.adoptHere id inc) := by
  have announced := (((setRegN_leavesCtx s 0xE00044 id).trans (setRegN_leavesCtx _ 0xE0004C 0)).trans
    (setOwnInc_leavesCtx _ inc)).trans (announce_leavesCtx ((List.range 16).filter fun p =>
      ((((s.setRegN 0xE00044 id).setRegN 0xE0004C 0).setOwnInc inc).macPort p).up) _)
  refine LeavesCtx.trans ?_ (err_leavesCtx ..)
  exact ⟨announced.mem, announced.ctxR, announced.partR, announced.hctx, announced.gctx⟩
/-- The adoption that a reload may let take effect changes no context (12 R347). -/
theorem reloaded_leavesCtx (s : State) (c : Nat) : LeavesCtx s (s.reloaded c) := by
  unfold State.reloaded
  dsimp only
  split
  · refine .ite (LeavesCtx.trans ?_ (adoptHere_leavesCtx ..)) ?_ <;> exact ⟨rfl, rfl, rfl, rfl, rfl⟩
  · exact ⟨rfl, rfl, rfl, rfl, rfl⟩

/-! ### LOAD -/

/-- The record with the fields of word 0 that a LOAD writes beside STATE: PDOM and PRIO. -/
def State.loadFields (s : State) (c : Nat) (v : W32) : State :=
  (s.setCf c 0 16 12 (fld v 16 12)).setCf c 0 28 2 (fld v 28 2)

/-- The share or the Hearth claims of a context do not fit beside those of the contexts loaded (01 R19, 07 R190). -/
def State.unfit (s : State) (c : Nat) : Prop := 256 < s.shareSum + s.cShare c ∨ s.claimed &&& s.cHearth c ≠ 0

/-- The words of a context record that a LOAD zeroes. -/
def State.zeroWords (s : State) (c : Nat) : State :=
  ([28, 29, 30, 32, 33] : List Nat).foldl (fun s w => s.setCw c w 0) s

/-- What a LOAD that fits starts afresh before the tiles are claimed: the Hopper's and Guard's state of the context, its
counting words, the blocks held for it, its pace and its phase stamps. -/
def State.startAfresh (s : State) (c : Nat) : State :=
  let t := ((s.setHx c (hopCtx0 c)).setGx c (gctx0 c)).zeroWords c
  { t with
    upd := { t.upd with heldIn := t.upd.heldIn.filter (fun x => x.1 != c) }
    dmp := { t.dmp with pace := dropKeys t.dmp.pace [c] }
    time := { t.time with ph := dropKeys t.time.ph [2 * c, 2 * c + 1], pt := t.time.pt.clear (4 * c) (4 * c + 4) } }

theorem loadCtx_powerDown {s : State} (c : Nat) (v : W32) (hp : s.dmp.power ≠ 0) : loadCtx c v s = s := by
  simp [loadCtx, hp]

/-- A LOAD that does not fit writes PDOM and PRIO, sets error flags, and ends with LOAD_REFUSED set. -/
theorem loadCtx_unfit {s : State} {c : Nat} {v : W32} (hp : s.dmp.power = 0) (h : (s.loadFields c v).unfit c) :
    ∃ t, LeavesCtx (s.loadFields c v) t ∧ loadCtx c v s = t.setHx c { t.hx c with loadRefused := true } := by
  have refused : (decide (256 < (s.loadFields c v).shareSum + (s.loadFields c v).cShare c)
      || (s.loadFields c v).claimed &&& (s.loadFields c v).cHearth c != 0) = true := by
    simpa [State.unfit] using h
  unfold loadCtx
  rw [if_neg (by simp [hp])]
  refine ⟨_, ?_, if_pos refused⟩
  have share : ∀ (p : Prop) [Decidable p], LeavesCtx (s.loadFields c v)
      (if p then (s.loadFields c v).err 0x300000 13 else s.loadFields c v) := fun _ _ => .ite (err_leavesCtx ..) (.refl _)
  exact .ite ((share _).trans (err_leavesCtx ..)) (share _)

/-- A LOAD that fits starts the context afresh, claims its tiles and makes it LOADED. -/
theorem loadCtx_fits {s : State} {c : Nat} {v : W32} (hp : s.dmp.power = 0) (h : ¬ (s.loadFields c v).unfit c) :
    loadCtx c v s =
      ((((((s.loadFields c v).startAfresh c).tmpFresh c).claimTiles (((s.loadFields c v).startAfresh c).cHearth c)).setCf c 0 0 3
        stLoaded).shareNow).reloaded c := by
  obtain ⟨noExcess, claim⟩ := not_or.1 h
  have noClash : ((s.loadFields c v).claimed &&& (s.loadFields c v).cHearth c != 0) = false := by simpa using claim
  unfold State.loadFields at noExcess noClash
  unfold loadCtx
  rw [if_neg (by simp [hp])]
  simp only [noExcess, noClash, decide_false, Bool.or_self, Bool.false_eq_true, if_false]
  rfl

/-- A refused LOAD leaves the context in its state with LOAD_REFUSED set, and memory as it was. -/
theorem loadCtx_unfit_leaves {s : State} {c : Nat} {v : W32} (hp : s.dmp.power = 0) (h : (s.loadFields c v).unfit c) :
    (loadCtx c v s).cState c = s.cState c ∧ ((loadCtx c v s).hx c).loadRefused = true ∧ (loadCtx c v s).mem = s.mem := by
  obtain ⟨t, kept, e⟩ := loadCtx_unfit hp h
  rw [e]
  refine ⟨?_, by rw [State.hx_setHx, if_pos rfl], kept.mem⟩
  calc t.cState c = (s.loadFields c v).cState c := kept.cState c
    _ = (s.setCf c 0 16 12 (fld v 16 12)).cState c := cState_setCf_above _ _ _ _ (by decide)
    _ = s.cState c := cState_setCf_above _ _ _ _ (by decide)

/-- Zeroing words of a context record one after the other leaves each of them zero. -/
theorem cw_foldl_setCw_zero {c w : Nat} (ws : List Nat) (s : State) (h : w ∈ ws ∨ s.cw c w = 0) :
    (ws.foldl (fun s w => s.setCw c w 0) s).cw c w = 0 := by
  induction ws generalizing s with
  | nil => exact h.resolve_left List.not_mem_nil
  | cons x ws ih =>
    refine ih (s.setCw c x 0) ?_
    by_cases e : w = x
    · exact .inr (by rw [e, State.cw_setCw, if_pos rfl])
    · rcases h with h | h
      · exact .inl ((List.mem_cons.1 h).resolve_left e)
      · exact .inr (by rw [State.cw_setCw, if_neg (by omega), h])
theorem cw_zeroWords (s : State) {c w : Nat} (hw : w ∈ ([28, 29, 30, 32, 33] : List Nat)) : (s.zeroWords c).cw c w = 0 :=
  cw_foldl_setCw_zero _ s (.inl hw)
@[simp] theorem State.zeroWords_hop (s : State) (c : Nat) : (s.zeroWords c).hop = s.hop := by simp [State.zeroWords]
@[simp] theorem State.zeroWords_grd (s : State) (c : Nat) : (s.zeroWords c).grd = s.grd := by simp [State.zeroWords]
@[simp] theorem State.zeroWords_mem (s : State) (c : Nat) : (s.zeroWords c).mem = s.mem := by simp [State.zeroWords]

theorem startAfresh_leavesCtx (s : State) (c : Nat) :
    LeavesCtx (((s.setHx c (hopCtx0 c)).setGx c (gctx0 c)).zeroWords c) (s.startAfresh c) := ⟨rfl, rfl, rfl, rfl, rfl⟩
theorem tmpFresh_leavesCtx (s : State) (c : Nat) : LeavesCtx s (s.tmpFresh c) := ⟨rfl, rfl, rfl, rfl, rfl⟩
theorem claimTiles_leavesCtx (s : State) (m : Nat) : LeavesCtx s (s.claimTiles m) := ⟨rfl, rfl, rfl, rfl, rfl⟩

theorem cw_startAfresh (s : State) {c w : Nat} (hw : w ∈ ([28, 29, 30, 32, 33] : List Nat)) : (s.startAfresh c).cw c w = 0 :=
  ((startAfresh_leavesCtx s c).cw c w).trans (cw_zeroWords _ hw)
theorem hx_startAfresh (s : State) (c : Nat) : (s.startAfresh c).hx c = hopCtx0 c := by
  rw [(startAfresh_leavesCtx s c).hx, State.hx, State.zeroWords_hop, State.setGx_hop]
  exact (State.hx_setHx ..).trans (if_pos rfl)
theorem gx_startAfresh (s : State) (c : Nat) : (s.startAfresh c).gx c = gctx0 c := by
  rw [(startAfresh_leavesCtx s c).gx, State.gx, State.zeroWords_grd]
  exact (State.gx_setGx ..).trans (if_pos rfl)
theorem mem_startAfresh (s : State) (c : Nat) : (s.startAfresh c).mem = s.mem := by
  rw [(startAfresh_leavesCtx s c).mem, State.zeroWords_mem, State.setGx_mem, State.setHx_mem]

/-- A LOAD that fits leaves the context as started afresh, and LOADED: claiming tiles and a waiting adoption add nothing to it. -/
theorem loadCtx_fits_ends {s : State} {c : Nat} {v : W32} (hp : s.dmp.power = 0) (h : ¬ (s.loadFields c v).unfit c) :
    ∃ u, LeavesCtx ((s.loadFields c v).startAfresh c) u ∧ LeavesCtx (u.setCf c 0 0 3 stLoaded) (loadCtx c v s) := by
  rw [loadCtx_fits hp h]
  exact ⟨_, (tmpFresh_leavesCtx ..).trans (claimTiles_leavesCtx ..), (setRegN_leavesCtx ..).trans (reloaded_leavesCtx ..)⟩

/-- A LOAD that fits leaves the context LOADED and started afresh, and memory as it was. -/
theorem loadCtx_fits_leaves {s : State} {c : Nat} {v : W32} (hp : s.dmp.power = 0) (h : ¬ (s.loadFields c v).unfit c) :
    ((loadCtx c v s).cState c = stLoaded ∧ (loadCtx c v s).hx c = hopCtx0 c ∧ (loadCtx c v s).gx c = gctx0 c
      ∧ (loadCtx c v s).cCmplCnt c = 0 ∧ (loadCtx c v s).cHead c = 0 ∧ (loadCtx c v s).cTail c = 0)
    ∧ (loadCtx c v s).mem = s.mem := by
  obtain ⟨u, fresh, kept⟩ := loadCtx_fits_ends hp h
  have zero : ∀ w ∈ ([28, 29, 30, 32, 33] : List Nat), (loadCtx c v s).cw c w = 0 := by
    intro w hw
    have notWord0 : w ≠ 0 := by rintro rfl; exact absurd hw (by decide)
    rw [kept.cw, State.setCf, State.cw_setCw, if_neg (by omega), fresh.cw, cw_startAfresh _ hw]
  refine ⟨⟨(kept.cState c).trans (cState_setCf_same ..), ((kept.hx c).trans (fresh.hx c)).trans (hx_startAfresh ..),
    ((kept.gx c).trans (fresh.gx c)).trans (gx_startAfresh ..), ?_⟩, (kept.mem.trans fresh.mem).trans (mem_startAfresh ..)⟩
  unfold State.cCmplCnt State.c64 State.cHead State.cTail State.cf
  rw [zero 28 (by decide), zero (28 + 1) (by decide), zero 30 (by decide)]
  decide

/-! ### Context reset -/

/-- The last writes of a context reset: the key staging empty, then Guard's state afresh, STATE FREE and HOP_SHARE_SUM. -/
theorem ctxFree_ends {s : State} {c : Nat} (h : s.cState c ≠ stFree) :
    ∃ u : State, u.ctl.stage = [] ∧ s.ctxFree c = ((u.setGx c (gctx0 c)).setCf c 0 0 3 stFree).shareNow := by
  unfold State.ctxFree
  rw [if_neg h]
  exact ⟨_, rfl, rfl⟩

theorem ctxFree_leaves {s : State} {c : Nat} (h : s.cState c ≠ stFree) :
    (s.ctxFree c).cState c = stFree ∧ (s.ctxFree c).gx c = gctx0 c ∧ (s.ctxFree c).ctl.stage = []
      ∧ (s.ctxFree c).regN 0x300060 = (s.ctxFree c).shareSum % 2 ^ 32 := by
  obtain ⟨u, stage, e⟩ := ctxFree_ends h
  rw [e]
  exact ⟨cState_setCf_same .., (State.gx_setGx ..).trans (if_pos rfl), stage, (regN_setRegN ..).trans (if_pos rfl)⟩

/-! ### Enabling and disabling a partition -/

/-- Word 0 of a partition record is written and its counters start from zero (11 R291). -/
def State.startPart (s : State) (i p : Nat) (w : W32) : State :=
  (List.range 7).foldl (fun s k => s.setPw i p (17 + k) 0) (s.setPw i p 0 w.toNat)

theorem pw_startPart (s : State) (i p : Nat) (w : W32) : (s.startPart i p w).pw i p 0 = w := by
  simp [State.startPart, List.range_succ, State.pw_setPw]
theorem mem_startPart (s : State) (i p : Nat) (w : W32) : (s.startPart i p w).mem = s.mem := by
  simp [State.startPart, List.range_succ]
theorem setTok_leavesCtx (s : State) (i c : Nat) (v : Int) : LeavesCtx s (s.setTok i c v) := leavesCtx_setMlt ..

/-- Enabling ends by writing STATE, over the record that it started. -/
theorem partEnable_ok {s : State} {i p : Nat} {w : W32} (h : s.partOk i p w = true) :
    ∃ u : State, LeavesCtx (s.startPart i p w) u
      ∧ s.partEnable i p w = u.setPw i p 16 (if (msetOf w).mode = 2 then 4 else 1) := by
  have tables := fun (t : Int) (m : Mlt) => (setTok_leavesCtx (s.startPart i p w) i p t).trans (leavesCtx_setMlt _ m)
  unfold State.partEnable
  rw [if_neg (by simp [h])]
  by_cases vr : (msetOf w).mode = 2
  · simp only [if_pos vr]
    exact ⟨_, tables _ _, rfl⟩
  · simp only [if_neg vr]
    exact ⟨_, ((tables _ _).trans (leavesCtx_setMlt ..)).trans (leavesCtx_setMlt ..), rfl⟩

/-- A partition whose record passes the checks enters INIT, or EMPTY where it is variable-rate, with EN = 1. -/
theorem partEnable_ok_leaves {s : State} {i p : Nat} {w : W32} (h : s.partOk i p w = true) (hen : bit w 0 = true) :
    (s.partEnable i p w).pState i p = (if (msetOf w).mode = 2 then 4 else 1)
      ∧ (s.partEnable i p w).pEn i p = true ∧ (s.partEnable i p w).mem = s.mem := by
  obtain ⟨u, kept, e⟩ := partEnable_ok h
  rw [e]
  refine ⟨?_, ?_, kept.mem.trans (mem_startPart ..)⟩
  · rw [State.pState, State.pw_setPw, if_pos rfl]
    split <;> decide
  · rw [State.pEn, State.pw_setPw, if_neg (by omega), kept.pw, pw_startPart, hen]

/-- A partition whose record fails a check keeps EN = 0 and memory is as it was. -/
theorem partEnable_bad_leaves {s : State} {i p : Nat} {w : W32} (h : s.partOk i p w = false) :
    (s.partEnable i p w).pEn i p = false ∧ (s.partEnable i p w).mem = s.mem := by
  have even : bit (BitVec.ofNat 32 (w.toNat / 2 * 2)) 0 = false := by
    simp only [bit, BitVec.getLsbD_ofNat, Nat.testBit_zero, Nat.mul_mod_left]
    decide
  unfold State.partEnable
  dsimp only
  rw [if_pos (by simp [h])]
  have kept := err_leavesCtx (s.setPw i p 0 (w.toNat / 2 * 2)) (mltReg i 0x1000) 8
  exact ⟨by rw [State.pEn, kept.pw, State.pw_setPw, if_pos rfl, even], kept.mem⟩

/-- Disabling ends by dropping the partition's entries and writing STATE and word 0. -/
theorem partDisable_ends (s : State) (i p : Nat) (w : W32) :
    ∃ (u : State) (es : List MEnt), u.mlt.ents = es.filter (fun e => !(e.inst == i && e.part == p))
      ∧ s.partDisable i p w = (u.setPw i p 16 0).setPw i p 0 w.toNat :=
  ⟨_, _, rfl, rfl⟩

/-- Disabling leaves the partition OFF, with EN as written and no entry of it. -/
theorem partDisable_leaves {s : State} {i p : Nat} {w : W32} (hen : bit w 0 = false) :
    (s.partDisable i p w).pState i p = 0 ∧ (s.partDisable i p w).pEn i p = false
      ∧ (s.partDisable i p w).mlt.ents.all (fun e => !(e.inst == i && e.part == p)) = true := by
  obtain ⟨u, es, ents, e⟩ := partDisable_ends s i p w
  rw [e]
  refine ⟨?_, ?_, ?_⟩
  · rw [State.pState, State.pw_setPw, if_neg (by omega), State.pw_setPw, if_pos rfl]
    decide
  · rw [State.pEn, State.pw_setPw, if_pos rfl, BitVec.ofNat_toNat, BitVec.setWidth_eq, hen]
  · show u.mlt.ents.all _ = true
    rw [ents]
    exact List.all_eq_true.2 fun x hx => (List.mem_filter.1 hx).2

/-- Settles O19: each clause is read off what LOAD, a context reset, and the enabling and disabling of a partition end with. -/
theorem whatLoadingAndEnablingLeave : Obligations.WhatLoadingAndEnablingLeave := by
  intro s c i p v
  refine ⟨fun hp free => ⟨fun bad => ?_, fun fits => (loadCtx_fits_leaves hp fits).1, ?_⟩, loadCtx_powerDown c v,
    ctxFree_leaves, fun ok en _ => partEnable_ok_leaves ok en, partEnable_bad_leaves, fun en _ => partDisable_leaves en⟩
  · obtain ⟨state, refused, -⟩ := loadCtx_unfit_leaves hp bad
    exact ⟨state.trans free, refused⟩
  · by_cases bad : (s.loadFields c v).unfit c
    · obtain ⟨-, -, mem⟩ := loadCtx_unfit_leaves hp bad
      exact mem
    · exact (loadCtx_fits_leaves hp bad).2

end Sys2Proof.Machine
end

section
/-! What SCALES_READY, PATTERN_SOURCE and QUANTISE_BLOCK do: the boundary that puts a step's scales in force, and what the
codec takes in. -/
namespace Sys2Proof.Machine
open Sys2Proof

/-! ### What leaves Temper's tables alone -/

@[simp] theorem State.setPhase_tmp (s : State) (c : Nat) (p : PhaseRec) : (s.setPhase c p).tmp = s.tmp := rfl
@[simp] theorem State.phEnd_tmp (s : State) (c step i : Nat) : (s.phEnd c step i).tmp = s.tmp := rfl
@[simp] theorem State.phStart_tmp (s : State) (c step i : Nat) : (s.phStart c step i).tmp = s.tmp :=
  (apply_ite State.tmp ..).trans (ite_self _)
@[simp] theorem State.touch_tmp (s : State) (c : Nat) : (s.touch c).tmp = s.tmp :=
  (apply_ite State.tmp ..).trans (ite_self _)

/-- The staged words of update records are no part of Temper (08 R207). -/
@[simp] theorem State.applyUpd_tmp (s : State) (c : Nat) : (s.applyUpd c).tmp = s.tmp := by
  unfold State.applyUpd
  refine List.foldlRecOn (motive := fun u : State => u.tmp = s.tmp) _ _ rfl fun u kept e _ => ?_
  obtain ⟨k, _ | v⟩ := e
  · exact kept
  · exact (apply_ite State.tmp ..).trans ((ite_self _).trans kept)

/-- The staged words of the Guard record are no part of Temper (12 R314). -/
@[simp] theorem State.applyGrd_tmp (s : State) (c : Nat) : (s.applyGrd c).tmp = s.tmp := by
  unfold State.applyGrd
  refine List.foldlRecOn (motive := fun u : State => u.tmp = s.tmp) _ _ rfl fun u kept w _ => ?_
  dsimp only
  split <;> exact kept

/-! ### The step boundary -/

/-- A boundary that has run waits no more. -/
theorem runBoundary_bound (s : State) (c : Nat) (b : Bound) :
    (s.runBoundary c b).tmp.bound.get (fun _ => none) c = none :=
  (SMap.get_set ..).trans (if_pos rfl)
/-- After a boundary has run, Temper holds the scales of the step after it. -/
theorem runBoundary_closed (s : State) (c : Nat) (b : Bound) :
    (s.runBoundary c b).tmp.closed.get (fun _ => none) c = some b.step :=
  (SMap.get_set ..).trans (if_pos rfl)

/-- What SCALES_READY leaves when boundary `b` waits: the boundary has run, staged record words are in force, VERDICT has
ended and, after a commit, UPDATE has begun (03 R86, 01 R24). -/
def State.boundaryDone (s : State) (c : Nat) (b : Bound) : State :=
  let z := (((s.runBoundary c b).applyUpd c).applyGrd c).phEnd c b.step phVerdict
  (if b.verdict = 0 then z.phStart c b.step phUpdate else z).touch c

theorem scalesReady_waiting {s : State} {c : Nat} {b : Bound} (hb : s.tmp.bound.get (fun _ => none) c = some b)
    (running : s.quiescing 0x500000 = false) : scalesReady c s = s.boundaryDone c b := by
  unfold scalesReady
  rw [hb]
  exact if_neg (Bool.eq_false_iff.1 running)

/-- What follows the boundary in SCALES_READY leaves Temper as the boundary left it. -/
theorem boundaryDone_tmp (s : State) (c : Nat) (b : Bound) : (s.boundaryDone c b).tmp = (s.runBoundary c b).tmp := by
  unfold State.boundaryDone
  split <;> simp

/-! ### The pattern source -/

/-- The 256 elements that the pattern source generates at place `p` (14 R400). -/
def State.patGroup (s : State) (c : Nat) (p : Pat) : Front :=
  ⟨c, p.slot, p.step, p.elem, true, (List.range 256).map fun i =>
    patValue (if s.fmt p.slot = 4 then f64 else f32) (s.seed p.slot p.step) (fld (s.pckW p.slot 3) 8 2)
      (sgn 8 (fld (s.pckW p.slot 3) 0 8)) (s.len p.slot) (p.elem + i)⟩
/-- The place of the pattern source after `p`: further elements of the slot, else the next slot (14 R401). -/
def State.patNext (s : State) (c : Nat) (p : Pat) : Option Pat :=
  if p.elem + 256 < s.lenPad p.slot then some { p with elem := p.elem + 256 }
  else (nextSlot (s.slotsOf c) p.slot).map fun t => ⟨p.step, t, 0⟩

theorem patternSource_delivers {s : State} {c : Nat} {p : Pat} (hp : s.msh.pat.get (fun _ => none) c = some p)
    (opened : s.quantOk c p.step = true) (running : s.quiescing 0x900000 = false)
    (free : s.codecHolds p.slot p.step (p.elem / 4096) = false) :
    patternSource c s = ({ s with
      msh := { s.msh with pat := s.msh.pat.set (fun _ => none) c (s.patNext c p) },
      pck := { s.pck with front := s.pck.front ++ [s.patGroup c p] } } : State).phStart c p.step phQuant := by
  have passes : (!s.quantOk c p.step || s.quiescing 0x900000 || s.codecHolds p.slot p.step (p.elem / 4096)) = false := by
    simp [opened, running, free]
  unfold patternSource
  rw [hp]
  exact if_neg (Bool.eq_false_iff.1 passes)

/-! ### The codec -/

/-- A message of an earlier step still carries the block of a slot whose residuals CARRY would fold (12 R334). -/
def State.carried (s : State) (t blk : Nat) : Bool :=
  s.policy (s.slotCtx t) == 1 && (s.eff t).resid && s.qcn.msgs.any (carryWaits t blk (s.cStep (s.slotCtx t)))

/-- The messages that carry a block are marked as waited for, and the wait yields (12 R334, R355). -/
def State.waitCarried (s : State) (t blk : Nat) : State :=
  ({ s with qcn := { s.qcn with
      msgs := s.qcn.msgs.map fun m =>
        if carryWaits t blk (s.cStep (s.slotCtx t)) m then { m with waited := true } else m } } : State).yieldEv (s.slotCtx t) 5 4

/-- QUIESCE of no page that the codec needs for a slot's block stands: PCK 0, SWG 0 to rotate, LTR 0 to select. -/
def State.codecRuns (s : State) (t : Nat) : Prop :=
  s.quiescing 0x800000 = false ∧ ((s.eff t).rot = true → s.quiescing 0x600000 = false)
    ∧ ((s.eff t).topk = true → s.quiescing 0x700000 = false)

/-- A block that is whole at the codec front, with nothing holding the codec, is coded unless an earlier message carries it;
else the codec waits, and yields at the first try (04 R106, 12 R334). -/
theorem quantiseBlock_whole {s : State} {t blk : Nat} {vals : List Nat} {pat : Bool} (runs : s.codecRuns t)
    (used : s.used t = true) (opened : s.quantOk (s.slotCtx t) (s.cStep (s.slotCtx t)) = true)
    (free : s.codecHolds t (s.cStep (s.slotCtx t)) blk = false)
    (whole : s.frontOf t (s.cStep (s.slotCtx t)) blk = some (vals, pat)) :
    quantiseBlock t blk s =
      if s.carried t blk then
        if s.qcn.msgs.any (fun m => carryWaits t blk (s.cStep (s.slotCtx t)) m && !m.waited) then s.waitCarried t blk else s
      else s.codeFront t blk (s.cStep (s.slotCtx t)) (s.eff t) vals pat := by
  obtain ⟨pck, swg, ltr⟩ := runs
  have rot : ((s.eff t).rot && s.quiescing 0x600000) = false := by simpa using swg
  have topk : ((s.eff t).topk && s.quiescing 0x700000) = false := by simpa using ltr
  have passes : (s.quiescing 0x800000 || (s.eff t).rot && s.quiescing 0x600000 || (s.eff t).topk && s.quiescing 0x700000
      || s.codecHolds t (s.cStep (s.slotCtx t)) blk || !s.used t
      || !s.quantOk (s.slotCtx t) (s.cStep (s.slotCtx t))) = false := by
    simp [pck, rot, topk, free, used, opened]
  unfold quantiseBlock
  dsimp only
  rw [whole]
  exact if_neg (Bool.eq_false_iff.1 passes)

/-- Settles O42: each clause is what one of the three commands does once the conditions it tests hold. -/
theorem stepBoundaryAndCodec : Obligations.StepBoundaryAndCodec := by
  intro s x sl bk b p vals pat
  refine ⟨fun hb running => ?_, fun hp opened running free => ?_, fun pck swg ltr used opened free whole => ?_⟩
  · have tables := boundaryDone_tmp s x.toNat b
    exact ⟨_, congrArg done (scalesReady_waiting hb running), rfl, tables ▸ runBoundary_bound .., tables ▸ runBoundary_closed ..⟩
  · exact congrArg done (patternSource_delivers hp opened running free)
  · have taken := quantiseBlock_whole ⟨pck, swg, ltr⟩ used opened free whole
    refine ⟨fun clear => congrArg done (taken.trans (if_neg ?_)), fun waits first => congrArg done (taken.trans ?_)⟩
    · simpa [State.carried, and_assoc] using clear
    · rw [if_pos (by simpa [State.carried, and_assoc] using waits)]
      exact if_pos first

end Sys2Proof.Machine
end

section
/-! What LEAF_TILE, GROUP_DELIVERY and LEAF_STALL do: the tests of a tile in their order, the group that passes the adder
tree, and the groups reported as stalled. -/
namespace Sys2Proof.Machine
open Sys2Proof

/-! ### Leaf tiles -/

/-- A leaf port takes a tile: its crossing is OPEN, MSH 0 does not quiesce, and one of its 32 tile buffers is free (06 R141). -/
structure State.LeafReady (s : State) (leaf : Nat) : Prop where
  opened : s.xing 1 leaf = .opened
  running : s.quiescing 0x900000 = false
  room : (s.msh.tiles.filter (fun x => x.leaf == leaf)).length < 32

/-- The tile is in the tile buffers already, from the same leaf (06 R139). -/
def State.tileHeld (s : State) (leaf : Nat) (t : TileIn) : Bool :=
  s.msh.tiles.any (fun x => x.leaf == leaf && x.slot == t.slot && x.elem == t.elem && x.step == t.step)

/-- The tile joins the tile buffers with its values and its time, and QUANT of its step begins (06 R138, R141). -/
def State.holdTile (s : State) (leaf : Nat) (t : TileIn) : State :=
  let x : Tile := ⟨leaf, t.ctx, t.slot, t.elem, t.step, tileVals (s.srcFmt t.slot) t.body, s.time.ktime⟩
  ({ s with msh := { s.msh with tiles := s.msh.tiles ++ [x] } } : State).phStart t.ctx t.step phQuant

/-- The tests of 06 R139 as conditions on the state, in their order. -/
theorem tileBad_eq (s : State) (leaf : Nat) (t : TileIn) :
    s.tileBad leaf t =
      if s.cRunnable t.ctx = false then some 0
      else if s.cPattern t.ctx = true then some 6
      else if s.used t.slot = false ∨ s.slotCtx t.slot ≠ t.ctx then some 1
      else if (s.leafMask t.slot).testBit leaf = false then some 2
      else if t.elem % 256 ≠ 0 ∨ s.lenPad t.slot ≤ t.elem then some 3
      else if t.step ≠ s.cStep t.ctx ∧ t.step ≠ s.cStep t.ctx + 1 then some 4 else none := by
  unfold State.tileBad
  simp only [Bool.not_eq_true', Bool.or_eq_true, Bool.and_eq_true, bne_iff_ne, decide_eq_true_eq]

/-- A tile that the port takes is discarded, a duplicate, or held. -/
theorem leafTile_ready {s : State} {leaf : Nat} (bs : Bytes) (ready : s.LeafReady leaf) :
    leafTile leaf bs s = (s.tileBad leaf (tileOf bs)).elim
      (if s.tileHeld leaf (tileOf bs) then s.discardTile leaf (tileOf bs).slot 5 9 else s.holdTile leaf (tileOf bs))
      (s.discardTile leaf (tileOf bs).slot · 8) := by
  have passes : (s.xing 1 leaf != .opened || s.quiescing 0x900000
      || 32 ≤ (s.msh.tiles.filter (fun x => x.leaf == leaf)).length) = false := by
    simp [ready.opened, ready.running, ready.room]
  unfold leafTile
  refine (if_neg (Bool.eq_false_iff.1 passes)).trans ?_
  dsimp only
  cases s.tileBad leaf (tileOf bs) <;> rfl

theorem leafTile_discards {s : State} {leaf r : Nat} {bs : Bytes} (ready : s.LeafReady leaf)
    (bad : s.tileBad leaf (tileOf bs) = some r) : leafTile leaf bs s = s.discardTile leaf (tileOf bs).slot r 8 := by
  rw [leafTile_ready bs ready, bad, Option.elim_some]
theorem leafTile_duplicate {s : State} {leaf : Nat} {bs : Bytes} (ready : s.LeafReady leaf)
    (good : s.tileBad leaf (tileOf bs) = none) (held : s.tileHeld leaf (tileOf bs) = true) :
    leafTile leaf bs s = s.discardTile leaf (tileOf bs).slot 5 9 := by
  rw [leafTile_ready bs ready, good, Option.elim_none, if_pos held]
theorem leafTile_holds {s : State} {leaf : Nat} {bs : Bytes} (ready : s.LeafReady leaf)
    (good : s.tileBad leaf (tileOf bs) = none) (new : s.tileHeld leaf (tileOf bs) = false) :
    leafTile leaf bs s = s.holdTile leaf (tileOf bs) := by
  rw [leafTile_ready bs ready, good, Option.elim_none, if_neg (Bool.eq_false_iff.1 new)]

/-! ### Groups -/

/-- The sums of a group's 256 elements over the leaves that delivered, by the adder tree (06 R140). -/
def State.groupSums (s : State) (slot elem step : Nat) : List Nat :=
  (List.range 256).map fun i =>
    collect (fadd (if s.srcFmt slot = 3 then f64 else f32)) ((List.range 64).map fun l =>
      ((s.groupTiles slot elem step).find? (fun y => y.leaf == l)).map (fun y => y.vals.getD i 0))

/-- The group's tile buffers are free, its sums wait at the codec's front, and MSH counts it (06 R142). -/
def State.groupPassed (s : State) (slot elem : Nat) : State :=
  let step := s.cStep (s.slotCtx slot)
  ({ s with
      msh := { s.msh with tiles := s.msh.tiles.filter fun y => !(y.slot == slot && y.elem == elem && y.step == step),
                          stalled := s.msh.stalled.filter fun k => k != (slot, elem, step) },
      pck := { s.pck with
        front := s.pck.front ++ [⟨s.slotCtx slot, slot, step, elem, false, s.groupSums slot elem step⟩] } } : State).countEv
    0x900000 0x10 1

/-- A group stays in its buffers while the codec holds its slot, or in a context that has taken up PATTERN (06 R160, 14 R399). -/
theorem groupDelivery_stays {s : State} {slot elem : Nat} (h : s.cPattern (s.slotCtx slot) = true
    ∨ s.codecHolds slot (s.cStep (s.slotCtx slot)) (elem / 4096) = true) : groupDelivery slot elem s = s := by
  refine if_pos ?_
  rcases h with h | h <;> simp only [h, Bool.or_true, Bool.true_or]

/-- A complete group of the open step, whose scales are held, passes the adder tree while the codec takes it (06 R142). -/
theorem groupDelivery_passes {s : State} {slot elem : Nat} (opened : s.quantOk (s.slotCtx slot) (s.cStep (s.slotCtx slot)) = true)
    (whole : s.groupDone slot elem (s.cStep (s.slotCtx slot)) = true) (leaves : s.leafMask slot ≠ 0)
    (leafFed : s.cPattern (s.slotCtx slot) = false)
    (free : s.codecHolds slot (s.cStep (s.slotCtx slot)) (elem / 4096) = false) :
    groupDelivery slot elem s = s.groupPassed slot elem := by
  refine if_neg ?_
  simp [opened, whole, leaves, leafFed, free]

/-! ### What counting and raising leave of Mash -/

@[simp] theorem State.countEv_msh (s : State) (pg ev n : Nat) : (s.countEv pg ev n).msh = s.msh :=
  (apply_ite State.msh ..).trans (ite_self _)
@[simp] theorem krdyEdge_msh (was : Bool) (s : State) : (krdyEdge was s).msh = s.msh := by
  unfold krdyEdge
  split
  · exact State.countEv_msh ..
  · split <;> rfl
@[simp] theorem State.attend_msh (s : State) (n : Nat) : (s.attend n).msh = s.msh := krdyEdge_msh ..
@[simp] theorem State.raise_msh (s : State) (pg bits : Nat) : (s.raise pg bits).msh = s.msh := by
  simp [State.raise, apply_ite State.msh]
@[simp] theorem State.err_msh (s : State) (pg i : Nat) : (s.err pg i).msh = s.msh := raise_msh ..

/-! ### Stalled groups -/

/-- One group is recorded as stalled, and LEAF_STALL is set (06 R143). -/
def State.recordStall (s : State) (k : Nat × Nat × Nat) : State :=
  (({ s with msh := { s.msh with stalled := s.msh.stalled ++ [k] } } : State).setRegN 0x900064 (k.1 + 2 ^ 31)).err 0x900000 10

theorem recordStall_msh (s : State) (k : Nat × Nat × Nat) :
    (s.recordStall k).msh = { s.msh with stalled := s.msh.stalled ++ [k] } := State.err_msh ..
theorem recordStall_mem (s : State) (k : Nat × Nat × Nat) : (s.recordStall k).mem = s.mem := (err_leavesCtx ..).mem

/-- Setting bit 10 of PG_ERR of MSH 0, which the page implements, leaves it set. -/
theorem recordStall_flag (s : State) (k : Nat × Nat × Nat) : ((s.recordStall k).regN 0x900018).testBit 10 = true := by
  obtain ⟨flags, -, -⟩ := regN_raise_all
    (({ s with msh := { s.msh with stalled := s.msh.stalled ++ [k] } } : State).setRegN 0x900064 (k.1 + 2 ^ 31))
    0x900000 (2 ^ 10) ⟨0x900000, 0x40010000, 0x7FF0F, false⟩ (by decide) (by decide)
  rw [State.recordStall, State.err, flags, Nat.testBit_or]
  exact Bool.or_eq_true_iff.2 (.inr (by decide))

/-- Recording groups appends them to those recorded, and changes nothing else of Mash and no memory. -/
theorem recordStalls_leaves (ks : List (Nat × Nat × Nat)) (s : State) :
    (ks.foldl State.recordStall s).msh = { s.msh with stalled := s.msh.stalled ++ ks }
      ∧ (ks.foldl State.recordStall s).mem = s.mem := by
  induction ks generalizing s with
  | nil => simp
  | cons k ks ih =>
    obtain ⟨msh, mem⟩ := ih (s.recordStall k)
    exact ⟨msh.trans (by simp [recordStall_msh]), mem.trans (recordStall_mem ..)⟩

/-- The last group recorded leaves LEAF_STALL set. -/
theorem recordStalls_flag {ks : List (Nat × Nat × Nat)} (hks : ks ≠ []) (s : State) :
    ((ks.foldl State.recordStall s).regN 0x900018).testBit 10 = true := by
  rw [← List.dropLast_concat_getLast hks, List.foldl_append]
  exact recordStall_flag ..

/-- Settles O41: a tile by the branches of LEAF_TILE, a group by the two outcomes of GROUP_DELIVERY, and the stalls by what
recording a list of groups leaves. -/
theorem collectorTakesTilesAndGroups : Obligations.CollectorTakesTilesAndGroups := by
  intro s l tile sl el
  refine ⟨fun opened running room => ?_, fun h => congrArg done (groupDelivery_stays h),
    fun opened whole leaves leafFed free => congrArg done (groupDelivery_passes opened whole leaves leafFed free), ?_⟩
  · have ready : s.LeafReady l.toNat := ⟨opened, running, room⟩
    have tests := tileBad_eq s l.toNat (tileOf tile)
    exact ⟨fun r bad => congrArg done (leafTile_discards ready (tests.trans bad)),
      fun good held => congrArg done (leafTile_duplicate ready (tests.trans good) held),
      fun good new => congrArg done (leafTile_holds ready (tests.trans good) new)⟩
  · obtain ⟨msh, mem⟩ := recordStalls_leaves s.stalls s
    exact ⟨_, rfl, congrArg Msh.stalled msh, (congrArg Msh.tiles msh).trans rfl, mem,
      fun stalled => recordStalls_flag stalled s⟩

end Sys2Proof.Machine
end

section
/-! What ORIGIN_BLOCK_SEND, OWNER_FRONT and RELEASE do: where a package's own block goes, how a hand-over reaches the
gradient banks, and which blocks are released. -/
namespace Sys2Proof.Machine
open Sys2Proof

/-! ### The package's own block -/

/-- The next block of Billet `b` of an active context with a step open is quantised, as `o`, and record `r` routes it. -/
structure State.OwnNext (s : State) (c b : Nat) (o : Own) (r : Route) : Prop where
  active : s.cActive c = true
  opened : (s.hx c).opened ≠ 0
  quantised : s.pck.own.find? (fun o => o.ctx == c && o.bslot == b && o.blk == s.msh.ownNext.get (fun _ => 0) (bKey c b)
    && o.step == s.cStep c) = some o
  routed : s.routeFor c b (s.msh.ownNext.get (fun _ => 0) (bKey c b)) = some r

/-- The block is folded into the carry and leaves the counts (12 R334, 03 R81). -/
def State.ownFolded (s : State) (c b : Nat) (o : Own) : State :=
  ((s.ownTaken o).uncounted o.slot (s.cStep c) o.g.block).foldOwn c (s.cStep c) o.slot (s.qOf o.slot) o.g (s.billetId b)
    (s.msh.ownNext.get (fun _ => 0) (bKey c b))

/-- The block is queued to the parent, where credit and OUT room allow (06 R160). -/
def State.ownQueued (s : State) (c b : Nat) (o : Own) (r : Route) : Option State :=
  s.trySend c b (s.msh.ownNext.get (fun _ => 0) (bKey c b)) r.parent r.pgrp false (some (o.slot, s.qOf o.slot, o.g)) o.g

/-- What becomes of the block of a package without children that is not the root: the manifest has carried it, or an emitted block
goes first, or it is queued to the parent (06 R160, R162). -/
def State.ownToParent (s : State) (c b : Nat) (o : Own) (r : Route) : State :=
  if s.carriedIn c (s.billetId b) (s.msh.ownNext.get (fun _ => 0) (bKey c b)) then (s.ownFolded c b o).markVerdict c
  else if s.msh.opens.any s.emitReady then s
  else (s.ownQueued c b o r).elim s fun t => ((t.ownTaken o).phStart c (s.cStep c) phPack).phEnd c (s.cStep c) phPack

/-- The next block is dropped under a FINAL record, goes to the parent, or becomes the own contribution. -/
theorem originBlockSend_next {s : State} {c b : Nat} {o : Own} {r : Route} (next : s.OwnNext c b o r) :
    originBlockSend c b s =
      if r.final then (s.ownTaken o).markVerdict c
      else if r.children.isEmpty && r.parent != s.node then s.ownToParent c b o r
      else (s.addOwn r o).markVerdict c := by
  obtain ⟨active, opened, quantised, routed⟩ := next
  have passes : ¬ ((!s.cActive c || decide ((s.hx c).opened = 0)) = true) := by simp [active, opened]
  unfold originBlockSend
  refine (if_neg passes).trans ?_
  rw [quantised, routed]
  dsimp only [State.ownToParent, State.ownQueued]
  cases s.trySend c b (s.msh.ownNext.get (fun _ => 0) (bKey c b)) r.parent r.pgrp false (some (o.slot, s.qOf o.slot, o.g)) o.g
    <;> rfl

section
variable {s : State} {c b : Nat} {o : Own} {r : Route}

theorem originBlockSend_final (next : s.OwnNext c b o r) (final : r.final = true) :
    originBlockSend c b s = (s.ownTaken o).markVerdict c := by
  rw [originBlockSend_next next, if_pos final]

theorem originBlockSend_leaf (next : s.OwnNext c b o r) (sums : r.final = false) (alone : r.children = [])
    (below : r.parent ≠ s.node) : originBlockSend c b s = s.ownToParent c b o r := by
  rw [originBlockSend_next next, if_neg (Bool.eq_false_iff.1 sums), if_pos (by simp [alone, below])]

theorem originBlockSend_inner (next : s.OwnNext c b o r) (sums : r.final = false)
    (inner : r.children ≠ [] ∨ r.parent = s.node) : originBlockSend c b s = (s.addOwn r o).markVerdict c := by
  rw [originBlockSend_next next, if_neg (Bool.eq_false_iff.1 sums), if_neg]
  rcases inner with h | h <;> simp [h]

theorem ownToParent_carried (carried : s.carriedIn c (s.billetId b) (s.msh.ownNext.get (fun _ => 0) (bKey c b)) = true) :
    s.ownToParent c b o r = (s.ownFolded c b o).markVerdict c := if_pos carried

theorem ownToParent_waits (fresh : s.carriedIn c (s.billetId b) (s.msh.ownNext.get (fun _ => 0) (bKey c b)) = false)
    (emits : s.msh.opens.any s.emitReady = true) : s.ownToParent c b o r = s :=
  (if_neg (Bool.eq_false_iff.1 fresh)).trans (if_pos emits)

theorem ownToParent_queued {t : State}
    (fresh : s.carriedIn c (s.billetId b) (s.msh.ownNext.get (fun _ => 0) (bKey c b)) = false)
    (clear : s.msh.opens.any s.emitReady = false) (queued : s.ownQueued c b o r = some t) :
    s.ownToParent c b o r = ((t.ownTaken o).phStart c (s.cStep c) phPack).phEnd c (s.cStep c) phPack := by
  rw [State.ownToParent, if_neg (Bool.eq_false_iff.1 fresh), if_neg (Bool.eq_false_iff.1 clear), queued, Option.elim_some]

end

/-! ### Hand-overs to the gradient banks -/

/-- The hand-over is written to the bank of each record of its slot, after its underflow is flagged and its inverse rotations are
counted; then it is hashed (08 R209, R210; 12 R350). -/
def State.handOwned (s : State) (h : Hand) (hs : List Hand) : State :=
  let us := s.recsOf h.slot
  let gs := s.ownerG h
  let und := (indexed 0 (s.ownerZ h)).any fun p => p.2.2 && us.any fun u => s.owns u h.rot (4096 * h.tblk + p.1)
  let w : State := { s with msh := { s.msh with hands := hs } }
  let w1 := if und then w.svFlag h.slot 0x200 else w
  let w2 := if h.kind = 0 && h.rot then w1.bumpWide 0x600048 (s.ownedGroups h) else w1
  (((us.foldl (fun s u => s.toBank h gs u) w2).hashHand h).markVerdict h.ctx).touch h.ctx

/-- A rotated hand-over waits while SWG 0 quiesces (15 Table 15-1). -/
theorem ownerFront_waits {s : State} {h : Hand} {hs : List Hand} (hands : s.msh.hands = h :: hs) (summed : h.kind = 0)
    (rotated : h.rot = true) (quiet : s.quiescing 0x600000 = true) : ownerFront s = s := by
  have stays : (decide (h.kind = 0) && h.rot && s.quiescing 0x600000) = true := by simp [summed, rotated, quiet]
  unfold ownerFront
  rw [hands]
  exact if_pos stays

theorem ownerFront_takes {s : State} {h : Hand} {hs : List Hand} (hands : s.msh.hands = h :: hs)
    (free : h.kind ≠ 0 ∨ h.rot = false ∨ s.quiescing 0x600000 = false) : ownerFront s = s.handOwned h hs := by
  have passes : (decide (h.kind = 0) && h.rot && s.quiescing 0x600000) = false := by
    rcases free with k | k | k <;> simp [k]
  unfold ownerFront
  rw [hands]
  exact if_neg (Bool.eq_false_iff.1 passes)

/-! ### RELEASE -/

/-- Every block that the package receives under a record that is not FINAL is released, in the order of the records (12 R332). -/
def State.releaseBlocks (s : State) (c : Nat) : State :=
  ((s.routes c).filter fun r => s.receives r && !r.final).foldl
    (fun s r => (List.range r.nblk).foldl (fun s j => s.releaseBlock c r (r.first + j)) s) s

/-- At RT the blocks are released, the step is marked as released, and GRD counts it (12 R332). -/
theorem release_due {s : State} {c : Nat} (due : s.releaseDue c = true) :
    release c s = ((s.releaseBlocks c).setGx c { (s.releaseBlocks c).gx c with released := true }).countEv 0xE01000 0x12 1 :=
  if_neg (by simp [due])

/-- Settles O43: the own block by the branches of ORIGIN_BLOCK_SEND, the hand-over by the two outcomes of OWNER_FRONT, and the
release by what is due at RT. -/
theorem ownPartOfABlock : Obligations.OwnPartOfABlock := by
  intro s x bs o r h hs t
  refine ⟨fun active opened quantised routed => ?_, fun hands summed rotated quiet =>
    congrArg done (ownerFront_waits hands summed rotated quiet), fun hands free => congrArg done (ownerFront_takes hands free),
    fun due => congrArg done (release_due due)⟩
  have next : s.OwnNext x.toNat bs.toNat o r := ⟨active, opened, quantised, routed⟩
  refine ⟨fun final => congrArg done (originBlockSend_final next final), fun sums alone below => ?_,
    fun sums inner => congrArg done (originBlockSend_inner next sums inner)⟩
  have leaf := originBlockSend_leaf next sums alone below
  exact ⟨fun carried => congrArg done (leaf.trans (ownToParent_carried carried)),
    fun fresh emits => congrArg done (leaf.trans (ownToParent_waits fresh emits)),
    fun fresh clear queued => congrArg done (leaf.trans (ownToParent_queued fresh clear queued))⟩

end Sys2Proof.Machine
end

section
/-! What the Hopper's operations leave of a state: marking candidates, a context's state, prefetch, and the boundary after a
descriptor. -/
namespace Sys2Proof.Machine
open Sys2Proof

/-- Settles O28: memory and the queue are two of the things that every step is known to keep. -/
theorem stepsKeepMemoryCanonical : Obligations.StepsKeepMemoryCanonical := by
  intro s t canonical h
  have grows := step_grows h
  exact ⟨grows.mem canonical, grows.pending⟩

/-! ### Words of a context record -/

/-- A write of another word of context records leaves every HEAD. -/
theorem cHead_setCw (s : State) (c d : Nat) {w : Nat} (v : W32) (other : w ≠ 30) (inside : w < 128) :
    (s.setCw c w v).cHead d = s.cHead d := by
  unfold State.cHead State.cf
  rw [State.cw_setCw, if_neg (by omega)]
/-- A HEAD reads back what is written to it, and the others stay. -/
theorem cHead_setCf_head (s : State) (c d v : Nat) :
    (s.setCf c 30 0 16 v).cHead d = if d = c then v % 2 ^ 16 else s.cHead d := by
  unfold State.cHead State.cf State.setCf
  rw [State.cw_setCw]
  by_cases h : d = c
  · rw [if_pos h, if_pos (by rw [h])]
    exact fld_setFld_same _ v (by decide)
  · rw [if_neg h, if_neg (by omega)]
/-- A write of a word other than word 0 leaves every STATE. -/
theorem cState_setCw (s : State) (c d : Nat) {w : Nat} (v : W32) (other : w ≠ 0) (inside : w < 128) :
    (s.setCw c w v).cState d = s.cState d := by
  unfold State.cState State.cf
  rw [State.cw_setCw, if_neg (by omega)]

/-! ### Candidate marks -/

@[simp] theorem State.touch_mem (s : State) (c : Nat) : (s.touch c).mem = s.mem :=
  (apply_ite State.mem ..).trans (ite_self _)
@[simp] theorem State.touch_ctxR (s : State) (c : Nat) : (s.touch c).ctxR = s.ctxR :=
  (apply_ite State.ctxR ..).trans (ite_self _)
@[simp] theorem State.touch_owner (s : State) (c : Nat) : (s.touch c).hop.owner = s.hop.owner :=
  (apply_ite (fun t : State => t.hop.owner) ..).trans (ite_self _)
@[simp] theorem State.touch_cState (s : State) (c d : Nat) : (s.touch c).cState d = s.cState d := by
  unfold State.cState State.cf State.cw
  rw [State.touch_ctxR]
@[simp] theorem State.touch_cRingBase (s : State) (c d : Nat) : (s.touch c).cRingBase d = s.cRingBase d := by
  unfold State.cRingBase State.cAddr State.c64 State.cw
  rw [State.touch_ctxR]

/-- What the Hopper holds for a context, its candidate marks left out. -/
def HopCtx.unmarked (h : HopCtx) : HopCtx := { h with candAt := none, candWin := false }

/-- Marking candidates changes nothing else that the Hopper holds (07 R171, R172). -/
theorem hx_touch (s : State) (c d : Nat) : ((s.touch c).hx d).unmarked = (s.hx d).unmarked := by
  have marked : ∀ at_ win, ((s.setHx c { s.hx c with candAt := at_, candWin := win }).hx d).unmarked
      = (s.hx d).unmarked := by
    intro at_ win
    rw [State.hx_setHx]
    split
    · next e => rw [e]; rfl
    · rfl
  unfold State.touch
  dsimp only
  split <;> exact marked ..

/-! ### What a change of a context's state leaves -/

/-- Memory, every HEAD, and what the Hopper holds of every context beside its candidate marks are as they were. -/
structure LeavesRings (s t : State) : Prop where
  mem : t.mem = s.mem
  head : ∀ d, t.cHead d = s.cHead d
  hx : ∀ d, (t.hx d).unmarked = (s.hx d).unmarked

theorem LeavesRings.trans {s t u : State} (h : LeavesRings s t) (k : LeavesRings t u) : LeavesRings s u :=
  ⟨k.mem.trans h.mem, fun d => (k.head d).trans (h.head d), fun d => (k.hx d).trans (h.hx d)⟩
theorem LeavesRings.ended {s t : State} (h : LeavesRings s t) (d : Nat) : (t.hx d).ended = (s.hx d).ended :=
  (congrArg HopCtx.ended (h.hx d) :)
theorem LeavesRings.waiting {s t : State} (h : LeavesRings s t) (d : Nat) : (t.hx d).waiting = (s.hx d).waiting :=
  (congrArg HopCtx.waiting (h.hx d) :)
theorem LeavesRings.copies {s t : State} (h : LeavesRings s t) (d : Nat) : (t.hx d).copies = (s.hx d).copies :=
  (congrArg HopCtx.copies (h.hx d) :)
theorem LeavesRings.seq {s t : State} (h : LeavesRings s t) (d : Nat) : (t.hx d).seq = (s.hx d).seq :=
  (congrArg HopCtx.seq (h.hx d) :)

theorem touch_leavesRings (s : State) (c : Nat) : LeavesRings s (s.touch c) :=
  ⟨s.touch_mem c, fun d => by unfold State.cHead State.cf State.cw; rw [State.touch_ctxR], hx_touch s c⟩
theorem setCw_leavesRings (s : State) (c : Nat) {w : Nat} (v : W32) (other : w ≠ 30) (inside : w < 128) :
    LeavesRings s (s.setCw c w v) := ⟨rfl, fun d => cHead_setCw s c d v other inside, fun _ => rfl⟩
theorem setCState_leavesRings (s : State) (c v : Nat) : LeavesRings s (s.setCState c v) :=
  (setCw_leavesRings s c _ (by decide) (by decide)).trans (touch_leavesRings ..)
theorem release_leavesRings (s : State) (c : Nat) : LeavesRings s (s.release c) := by
  unfold State.release
  split <;> exact ⟨rfl, fun _ => rfl, fun _ => rfl⟩
/-- A descriptor boundary moves states and the Anvil, no ring (07 R170). -/
theorem boundary_leavesRings (s : State) (c : Nat) : LeavesRings s (s.boundary c) := by
  have gaveUp := fun v => (release_leavesRings s c).trans (setCState_leavesRings _ c v)
  unfold State.boundary
  split
  · split
    · exact gaveUp _
    · split
      · exact touch_leavesRings s c
      · exact gaveUp _
  · exact touch_leavesRings s c

/-! ### Prefetch -/

/-- The positions of the window that a fetch copies: not copied yet, and touched by no unacknowledged write (07 R198, R200). -/
def State.toCopy (s : State) (c : Nat) : List Nat :=
  (s.window c).filter fun p => !((s.hx c).copies.any fun cp => cp.pos == p)
    && !(s.unacked.any fun r => overlaps r.1 r.2 (s.cRingBase c + 64 * p) 64)
/-- The copies that a fetch adds, as memory holds them. -/
def State.newCopies (s : State) (c : Nat) : List Copy :=
  (s.toCopy c).map fun p => ⟨p, s.bytes (s.cRingBase c + 64 * p) 64, false⟩
/-- The state with the new copies, before its candidate marks are brought up to date. -/
def State.copied (s : State) (c : Nat) : State :=
  s.setHx c { s.hx c with copies := (s.hx c).copies ++ s.newCopies c }

theorem fetch_eq (c : Nat) (s : State) :
    fetch c s = if !s.cRunnable c || s.quiescing 0x300000 || !s.tunOpen then s else (s.copied c).touch c := rfl

/-- A fetch keeps memory and the waiting descriptor, and copies only what memory holds. -/
theorem fetch_leaves (c : Nat) (s : State) :
    (fetch c s).mem = s.mem ∧ ((fetch c s).hx c).waiting = (s.hx c).waiting
      ∧ ∀ cp ∈ ((fetch c s).hx c).copies, cp ∈ (s.hx c).copies
        ∨ cp.bytes = s.bytes (s.cRingBase c + 64 * cp.pos) 64 := by
  rw [fetch_eq]
  split
  · exact ⟨rfl, rfl, fun _ => .inl⟩
  · have marked := touch_leavesRings (s.copied c) c
    have held : (s.copied c).hx c = { s.hx c with copies := (s.hx c).copies ++ s.newCopies c } :=
      (State.hx_setHx ..).trans (if_pos rfl)
    refine ⟨marked.mem, by rw [marked.waiting, held], fun cp h => ?_⟩
    rw [marked.copies, held] at h
    refine (List.mem_append.1 h).imp_right fun new => ?_
    obtain ⟨p, -, rfl⟩ := List.mem_map.1 new
    rfl

end Sys2Proof.Machine
end

section
/-! What DESCRIPTOR_FETCH, ANVIL_GRANT and ACCOUNTING_WINDOW_END do: the order of R18 among the candidates, the grant to the first
of them, and the charges with which a window starts. -/
namespace Sys2Proof.Machine
open Sys2Proof

/-! ### The order of R18 -/

/-- Where a context stands among the candidates: contexts under their reservation first, then by PRIO, then by how long they
have been candidates, then by index (01 R18). -/
def State.rank (s : State) (c : Nat) : List Nat := [b2n (!s.under c), s.cPrio c, (s.hx c).candAt.getD 0, c]

/-- A context goes before another when it ranks below it. -/
theorem goesFirst_iff (s : State) (a b : Nat) : s.goesFirst a b = true ↔ s.rank a < s.rank b := by
  simp only [State.rank, List.cons_lt_cons_iff]
  unfold State.goesFirst
  split
  · next reserved => cases ua : s.under a <;> cases ub : s.under b <;> simp [ua, ub, b2n] at reserved ⊢
  · next reserved =>
    rw [show s.under a = s.under b by simpa using reserved]
    split
    · next prio => simp [show s.cPrio a ≠ s.cPrio b by simpa using prio]
    · next prio =>
      rw [show s.cPrio a = s.cPrio b by simpa using prio]
      dsimp only
      split
      · next since => simp [show (s.hx a).candAt.getD 0 ≠ (s.hx b).candAt.getD 0 by simpa using since]
      · next since => simp [show (s.hx a).candAt.getD 0 = (s.hx b).candAt.getD 0 by simpa using since]

/-- A context does not go before another when it does not rank below it. -/
theorem goesFirst_false_iff (s : State) (a b : Nat) : s.goesFirst a b = false ↔ ¬ s.rank a < s.rank b := by
  rw [← goesFirst_iff, Bool.not_eq_true]
theorem goesFirst_irrefl (s : State) (a : Nat) : s.goesFirst a a = false :=
  (goesFirst_false_iff ..).2 (List.lt_irrefl _)
theorem goesFirst_asymm {s : State} {a b : Nat} (h : s.goesFirst a b = true) : s.goesFirst b a = false :=
  (goesFirst_false_iff ..).2 (List.lt_asymm ((goesFirst_iff ..).1 h))
/-- What does not go before `b` does not go before `a`, where `b` does not either. -/
theorem goesFirst_false_trans {s : State} {a b e : Nat} (h : s.goesFirst b a = false) (k : s.goesFirst e b = false) :
    s.goesFirst e a = false := by
  rw [goesFirst_false_iff, List.not_lt] at h k ⊢
  exact List.le_trans h k

theorem pick_eq_none {s : State} {cs : List Nat} (h : s.pick cs = none) : cs = [] := by
  cases cs with
  | nil => rfl
  | cons c cs =>
    unfold State.pick at h
    split at h
    · cases h
    · split at h <;> cases h

/-- The context picked from a list is in it, and no other of it goes first. -/
theorem pick_first {s : State} {cs : List Nat} {d : Nat} (h : s.pick cs = some d) :
    d ∈ cs ∧ ∀ e ∈ cs, s.goesFirst e d = false := by
  induction cs generalizing d with
  | nil => cases h
  | cons c cs ih =>
    unfold State.pick at h
    split at h
    · next alone =>
      cases h
      rw [pick_eq_none alone]
      exact ⟨List.mem_cons_self, List.forall_mem_cons.2 ⟨goesFirst_irrefl s c, fun _ none => absurd none List.not_mem_nil⟩⟩
    · next l rest =>
      obtain ⟨mem, first⟩ := ih rest
      split at h
      · next before =>
        cases h
        exact ⟨List.mem_cons_of_mem _ mem, List.forall_mem_cons.2 ⟨goesFirst_asymm before, first⟩⟩
      · next later =>
        cases h
        have behind : s.goesFirst l c = false := Bool.eq_false_iff.2 later
        exact ⟨List.mem_cons_self,
          List.forall_mem_cons.2 ⟨goesFirst_irrefl s c, fun e he => goesFirst_false_trans behind (first e he)⟩⟩

/-! ### What charging and recording leave -/

/-- Memory, the context that holds the Anvil, and the state of every context are as they were. -/
structure LeavesHolder (s t : State) : Prop where
  mem : t.mem = s.mem
  owner : t.hop.owner = s.hop.owner
  cState : ∀ d, t.cState d = s.cState d

theorem LeavesHolder.refl (s : State) : LeavesHolder s s := ⟨rfl, rfl, fun _ => rfl⟩
theorem LeavesHolder.trans {s t u : State} (h : LeavesHolder s t) (k : LeavesHolder t u) : LeavesHolder s u :=
  ⟨k.mem.trans h.mem, k.owner.trans h.owner, fun d => (k.cState d).trans (h.cState d)⟩
theorem LeavesHolder.ite {s t u : State} {p : Prop} [Decidable p] (h : LeavesHolder s t) (k : LeavesHolder s u) :
    LeavesHolder s (if p then t else u) := by split <;> assumption
theorem LeavesHolder.foldl {α : Type} {f : State → α → State} (step : ∀ s x, LeavesHolder s (f s x)) (xs : List α)
    (s : State) : LeavesHolder s (xs.foldl f s) :=
  List.foldlRecOn xs f (.refl s) fun t kept x _ => kept.trans (step t x)

@[simp] theorem State.countEv_hop (s : State) (pg ev n : Nat) : (s.countEv pg ev n).hop = s.hop :=
  (apply_ite State.hop ..).trans (ite_self _)
@[simp] theorem krdyEdge_hop (was : Bool) (s : State) : (krdyEdge was s).hop = s.hop := by
  unfold krdyEdge
  split
  · exact State.countEv_hop ..
  · split <;> rfl
@[simp] theorem State.attend_hop (s : State) (n : Nat) : (s.attend n).hop = s.hop := krdyEdge_hop ..
@[simp] theorem State.raise_hop (s : State) (pg bits : Nat) : (s.raise pg bits).hop = s.hop := by
  simp [State.raise, apply_ite State.hop]
@[simp] theorem State.err_hop (s : State) (pg i : Nat) : (s.err pg i).hop = s.hop := raise_hop ..

/-- What changes neither contexts nor the Hopper leaves the holder of the Anvil. -/
theorem LeavesCtx.leavesHolder {s t : State} (h : LeavesCtx s t) (hop : t.hop = s.hop) : LeavesHolder s t :=
  ⟨h.mem, congrArg Hop.owner hop, h.cState⟩
theorem countEv_leavesHolder (s : State) (pg ev n : Nat) : LeavesHolder s (s.countEv pg ev n) :=
  (countEv_leavesCtx ..).leavesHolder (State.countEv_hop ..)
theorem err_leavesHolder (s : State) (pg i : Nat) : LeavesHolder s (s.err pg i) :=
  (err_leavesCtx ..).leavesHolder (State.err_hop ..)
theorem bump_leavesHolder (s : State) (a n : Nat) : LeavesHolder s (s.bump a n) := ⟨rfl, rfl, fun _ => rfl⟩
theorem setCw_leavesHolder (s : State) (c : Nat) {w : Nat} (v : W32) (other : w ≠ 0) (inside : w < 128) :
    LeavesHolder s (s.setCw c w v) := ⟨rfl, rfl, fun d => cState_setCw s c d v other inside⟩
theorem setYields_leavesHolder (s : State) (ys : List W64) :
    LeavesHolder s { s with hop := { s.hop with yields := ys } } := ⟨rfl, rfl, fun _ => rfl⟩
theorem charge_leavesHolder (s : State) (c hc : Nat) : LeavesHolder s (s.charge c hc) :=
  (setCw_leavesHolder s c _ (by decide) (by decide)).trans (countEv_leavesHolder ..)
theorem yieldEv_leavesHolder (s : State) (c guarantee reason : Nat) : LeavesHolder s (s.yieldEv c guarantee reason) :=
  .ite (err_leavesHolder ..) ((setYields_leavesHolder ..).trans (err_leavesHolder ..))
theorem chargeRun_leavesHolder (s : State) (hc : Nat) : LeavesHolder s (s.chargeRun hc) := by
  unfold State.chargeRun
  split
  · exact .refl s
  · exact .ite (.refl s) ((charge_leavesHolder ..).trans ⟨rfl, rfl, fun _ => rfl⟩)

/-! ### Grants -/

theorem cState_setCState (s : State) (c v : Nat) : (s.setCState c v).cState c = v % 8 :=
  (State.touch_cState ..).trans (cState_setCf_same ..)

/-- A grant makes the context the owner and RUNNING; counting and charging follow. -/
theorem grant_ends (s : State) (c : Nat) :
    ∃ u : State, u.hop.owner = some c ∧ LeavesHolder (u.setCState c stRunning) (s.grant c) := by
  unfold State.grant
  dsimp only
  refine ⟨_, ?_, .ite ((((countEv_leavesHolder ..).trans (charge_leavesHolder ..)).trans (bump_leavesHolder ..)).trans
    (countEv_leavesHolder ..)) (countEv_leavesHolder ..)⟩
  rfl

/-- The context that a grant goes to holds the Anvil and is RUNNING (07 R170). -/
theorem grant_leaves (s : State) (c : Nat) : (s.grant c).hop.owner = some c ∧ (s.grant c).cState c = stRunning := by
  obtain ⟨u, owned, kept⟩ := grant_ends s c
  exact ⟨kept.owner.trans ((State.touch_owner ..).trans owned), (kept.cState c).trans (cState_setCState ..)⟩

/-- The Anvil, free, goes to the candidate picked. -/
def State.grantNext (s : State) : State := (s.pick s.cands).elim s s.grant

/-- ANVIL_GRANT by who holds the Anvil: nobody, an owner whose slice is over, or one whose slice lasts. -/
theorem anvilGrant_free {s : State} (hc : Nat) (running : s.quiescing 0x300000 = false) (free : s.hop.owner = none) :
    anvilGrant hc s = s.grantNext := by
  unfold anvilGrant
  refine (if_neg (Bool.eq_false_iff.1 running)).trans ?_
  rw [free]
  dsimp only [State.grantNext]
  cases s.pick s.cands <;> rfl
theorem anvilGrant_over {s : State} {hc o : Nat} (running : s.quiescing 0x300000 = false) (owned : s.hop.owner = some o)
    (ended : s.sliceOver o hc = true) : anvilGrant hc s = (s.endSlice o).grantNext := by
  unfold anvilGrant
  refine (if_neg (Bool.eq_false_iff.1 running)).trans ?_
  rw [owned]
  refine (if_pos ended).trans ?_
  dsimp only [State.grantNext]
  cases (s.endSlice o).pick (s.endSlice o).cands <;> rfl
theorem anvilGrant_lasts {s : State} {hc o : Nat} (owned : s.hop.owner = some o) (lasts : s.sliceOver o hc = false) :
    anvilGrant hc s = s := by
  unfold anvilGrant
  rw [owned]
  simp [lasts]

theorem grantNext_none {s : State} (nobody : s.cands = []) : s.grantNext = s := by
  rw [State.grantNext, nobody]
  rfl
/-- The grant goes to a candidate that no other precedes. -/
theorem grantNext_first {s : State} (waited : s.cands ≠ []) :
    ∃ d ∈ s.cands, (∀ e ∈ s.cands, s.goesFirst e d = false) ∧ s.grantNext = s.grant d := by
  obtain ⟨d, picked⟩ := Option.ne_none_iff_exists'.1 fun nobody => waited (pick_eq_none (s := s) nobody)
  obtain ⟨mem, first⟩ := pick_first picked
  exact ⟨d, mem, first, by rw [State.grantNext, picked, Option.elim_some]⟩

/-! ### Accounting windows -/

theorem mem_ctxIds {m : SMap W32} {c : Nat} (h : ∃ e ∈ m, e.1 / 128 = c) : c ∈ ctxIds m := by
  induction m with
  | nil => simp at h
  | cons e m ih =>
    obtain ⟨k, v⟩ := e
    have here : k / 128 = c ∨ c ∈ ctxIds m := by
      obtain ⟨e, mem, rfl⟩ := h
      rcases List.mem_cons.1 mem with rfl | mem
      · exact .inl rfl
      · exact .inr (ih ⟨e, mem, rfl⟩)
    unfold ctxIds
    split
    · next nil => rw [nil] at here; simpa [eq_comm] using here
    · next d ds cons =>
      rw [cons] at here
      split
      · next same => rw [← same] at here; simpa [eq_comm] using here
      · simpa [eq_comm] using here

/-- The contexts listed are those that are not FREE. -/
theorem mem_live (s : State) (c : Nat) : c ∈ s.live ↔ s.cState c ≠ stFree := by
  refine ⟨fun h => by simpa using (List.mem_filter.1 h).2, fun h => List.mem_filter.2 ⟨mem_ctxIds ?_, by simpa using h⟩⟩
  refine Classical.byContradiction fun unlisted => h ?_
  have zero : s.cw c 0 = 0 :=
    SMap.get_none zero32 fun e mem key => unlisted ⟨e, mem, by omega⟩
  unfold State.cState State.cf
  rw [zero]
  decide

/-- WIN_HC of a context at the start of a window: what is left of the holder's switch, and nothing for any other. -/
def State.winStart (s : State) (back d : Nat) : W32 := if s.hop.owner = some d then BitVec.ofNat 32 back else 0
/-- A context's accounting starts afresh. -/
def State.winRestart (back : Nat) (s : State) (c : Nat) : State :=
  (s.setCw c 33 (s.winStart back c)).setHx c { s.hx c with candWin := s.isCand c || s.hop.owner == some c }

theorem winRestart_leavesHolder (back : Nat) (s : State) (c : Nat) : LeavesHolder s (s.winRestart back c) :=
  ⟨rfl, rfl, fun d => cState_setCw s c d _ (by decide) (by decide)⟩
theorem cw_winRestart (back : Nat) (s : State) (c d : Nat) :
    (s.winRestart back c).cw d 33 = if d = c then s.winStart back c else s.cw d 33 :=
  (State.cw_setCw ..).trans (by simp only [Nat.add_right_cancel_iff, Nat.mul_left_inj (by decide : (128 : Nat) ≠ 0)])

/-- Every context of a list has its start charge once all of them have restarted. -/
theorem cw_foldl_winRestart (back : Nat) {d : Nat} (cs : List Nat) (s : State)
    (h : d ∈ cs ∨ s.cw d 33 = s.winStart back d) : (cs.foldl (State.winRestart back) s).cw d 33 = s.winStart back d := by
  induction cs generalizing s with
  | nil => exact h.resolve_left List.not_mem_nil
  | cons c cs ih =>
    refine ih (s.winRestart back c) ?_
    rw [cw_winRestart]
    by_cases e : d = c
    · exact .inr (by rw [if_pos e, e]; rfl)
    · rw [if_neg e]
      exact h.imp_left fun mem => (List.mem_cons.1 mem).resolve_left e

/-- ACCOUNTING_WINDOW_END: the running descriptor is charged, contexts that were never served yield, and every context that is
not FREE starts afresh. -/
theorem windowEnd_ends (run : Nat) (s : State) : ∃ u, LeavesHolder s u ∧
    windowEnd run s = { u.live.foldl (State.winRestart (s.switchLeft run)) u with
      hop := { (u.live.foldl (State.winRestart (s.switchLeft run)) u).hop with winW := [], swHc := s.switchLeft run } } :=
  ⟨_, (chargeRun_leavesHolder s (run - s.hop.swHc)).trans
    (LeavesHolder.foldl (fun _ _ => .ite (yieldEv_leavesHolder ..) (.refl _)) _ _), rfl⟩

theorem windowEnd_leaves (run : Nat) (s : State) :
    (windowEnd run s).hop.winW = [] ∧ (windowEnd run s).hop.owner = s.hop.owner ∧ (windowEnd run s).mem = s.mem
      ∧ ∀ d ∈ s.live, (windowEnd run s).cWinHc d = if s.hop.owner = some d then s.switchLeft run % 2 ^ 32 else 0 := by
  obtain ⟨u, kept, e⟩ := windowEnd_ends run s
  have restarted := LeavesHolder.foldl (winRestart_leavesHolder (s.switchLeft run)) u.live u
  rw [e]
  refine ⟨rfl, restarted.owner.trans kept.owner, restarted.mem.trans kept.mem, fun d live => ?_⟩
  have listed : d ∈ u.live := by
    rw [mem_live] at live ⊢
    rwa [kept.cState]
  have charged := cw_foldl_winRestart (s.switchLeft run) u.live u (.inl listed)
  show fld ((u.live.foldl (State.winRestart (s.switchLeft run)) u).cw d 33) 0 32 = _
  rw [charged, State.winStart, kept.owner]
  split <;> simp [fld, nfld]

/-- Settles O34: the fetch by its condition, the grant by who holds the Anvil, and the window by what restarting leaves. -/
theorem hopperFetchesAndGrants : Obligations.HopperFetchesAndGrants := by
  intro s x hc run
  refine ⟨fun runnable running reach => congrArg done ?_, fun running t boundary => ?_,
    fun o owned lasts => congrArg done (anvilGrant_lasts owned lasts), _, rfl, windowEnd_leaves run s⟩
  · rw [fetch_eq, if_neg (by simp [runnable, running, reach])]
    rfl
  · have next : anvilGrant hc s = t.grantNext := by
      rcases boundary with ⟨free, rfl⟩ | ⟨o, owned, ended, rfl⟩
      · exact anvilGrant_free hc running free
      · exact anvilGrant_over running owned ended
    refine ⟨fun nobody => congrArg done (next.trans (grantNext_none nobody)), fun waited => ?_⟩
    obtain ⟨d, mem, first, granted⟩ := grantNext_first waited
    exact ⟨d, mem, first, congrArg done (next.trans granted), grant_leaves t d⟩

end Sys2Proof.Machine
end

section
/-! What a descriptor leaves when it ends, and what the descriptors of the Hopper and of the Anvil do: each is refused at decode,
or runs. -/
namespace Sys2Proof.Machine
open Sys2Proof

/-! ### The end of a descriptor -/

/-- What joins the descriptors that wait for completion (07 R175, R178). -/
def State.endedAs (s : State) (c : Nat) (w : Waiting) (f : Fin) : Ended :=
  { pos := w.pos, op := dOp w.d, tag := dTag w.d, status := f.status, cmpl := dCmpl w.d, cnt := dCnt w.d, nf := f.nf,
    big := f.big, refetch := w.refetch, result := f.result, hc := f.hc, seq := (s.hx c).seq, writes := f.writes, upd := f.upd }
/-- What the Hopper holds for the context after a descriptor's end. -/
def State.hxAfter (s : State) (c : Nat) (w : Waiting) (f : Fin) : HopCtx :=
  { s.hx c with
    waiting := none, ended := (s.hx c).ended ++ [s.endedAs c w f], seq := (s.hx c).seq + 1, candAt := none,
    copies := (s.hx c).copies.filter fun cp => cp.pos != w.pos }
/-- HEAD stands behind the descriptor, which has joined those that wait for completion. -/
def State.headOn (s : State) (c : Nat) (w : Waiting) (f : Fin) : State :=
  (s.setHx c (s.hxAfter c w f)).setCf c 30 0 16 ((w.pos + 1) % s.cRing c)

/-- An end with status OK moves HEAD on; counting the descriptor and the boundary leave the rings. -/
theorem endDesc_ends {s : State} {f : Fin} (c : Nat) (w : Waiting) (ok : f.status = 0) :
    LeavesRings (s.headOn c w f) (s.endDesc c w f) := by
  have counted := setCw_leavesRings (s.headOn c w f) c (w := 32) (BitVec.ofNat 32 ((s.hx c).seq + 1)) (by decide) (by decide)
  have after : ∀ u : State, u.afterStatus c f.status = u := fun _ => if_pos ok
  unfold State.endDesc
  dsimp only
  rw [after]
  exact counted.trans (boundary_leavesRings ..)

theorem hx_headOn (s : State) (c d : Nat) (w : Waiting) (f : Fin) :
    (s.headOn c w f).hx d = if d = c then s.hxAfter c w f else s.hx d := State.hx_setHx ..
theorem cHead_headOn (s : State) (c d : Nat) (w : Waiting) (f : Fin) :
    (s.headOn c w f).cHead d = if d = c then (w.pos + 1) % s.cRing c % 2 ^ 16 else s.cHead d := cHead_setCf_head ..

/-- Settles O36: HEAD and the ended descriptors are read off the state in which HEAD has moved on. -/
theorem endOfADescriptor : Obligations.EndOfADescriptor := by
  intro s c w f ok ring t e
  have rings := endDesc_ends (s := s) c w ok
  have here : (s.headOn c w f).hx c = s.hxAfter c w f := (hx_headOn ..).trans (if_pos rfl)
  have inRing : (w.pos + 1) % s.cRing c < 2 ^ 16 := Nat.lt_of_lt_of_le (Nat.mod_lt _ (Nat.two_pow_pos _)) ring
  have joined : e = s.endedAs c w f := by rw [State.endedAs, ok]
  refine ⟨?_, ?_, ?_, ?_, rings.mem, fun d other => ?_⟩
  · rw [rings.head, cHead_headOn, if_pos rfl, Nat.mod_eq_of_lt inRing]
  · rw [rings.ended, here, joined]
    rfl
  · rw [rings.waiting, here]
    rfl
  · rw [rings.seq, here]
    rfl
  · have there : (s.headOn c w f).hx d = s.hx d := (hx_headOn ..).trans (if_neg other)
    rw [rings.head, rings.ended, rings.waiting, there]
    exact ⟨(cHead_headOn ..).trans (if_neg other), rfl, rfl⟩

/-! ### Control descriptors -/

/-- A control descriptor that is free to start runs where decoding accepts it, and else ends with the status of decoding. -/
theorem runCtl_free {s : State} {c op : Nat} {k : Nat → Dec} {act : Waiting → State → State} {w : Waiting}
    (free : s.ready c = some w) (isOp : dOp w.d = op) :
    (s.decode c w (k w.d) = 0 → s.runCtl c op k act = act w s)
      ∧ (s.decode c w (k w.d) ≠ 0 → s.runCtl c op k act = s.endDesc c w (Fin.plain (s.decode c w (k w.d)))) := by
  unfold State.runCtl
  rw [free]
  simp +contextual [isOp]

/-- A command that runs a control descriptor answers what `runCtl_free` says. -/
theorem exec_runCtl {s t : State} {c op : Nat} {k : Nat → Dec} {act : Waiting → State → State} {w : Waiting} {i : Instr}
    (free : s.ready c = some w) (runs : exec i s = done (s.runCtl c op k act)) (acts : act w s = t) (isOp : dOp w.d = op) :
    (s.decode c w (k w.d) = 0 → exec i s = .next t)
      ∧ (s.decode c w (k w.d) ≠ 0 → exec i s = .next (s.endDesc c w (Fin.plain (s.decode c w (k w.d))))) :=
  (runCtl_free free isOp).imp (fun good ok => runs.trans (congrArg done ((good ok).trans acts)))
    fun bad refused => runs.trans (congrArg done (bad refused))

theorem badOp_unknown {s : State} {c : Nat} {w : Waiting} (free : s.ready c = some w)
    (unknown : knownOp (dOp w.d) = false) : badOp c s = s.endDesc c w (Fin.plain 2) := by
  unfold badOp
  rw [free]
  exact if_neg (Bool.eq_false_iff.1 unknown)

/-- What the Hopper holds for the context once the descriptor is latched, before the fetch (07 R198). -/
def State.hxStarted (s : State) (c : Nat) (w : Waiting) : HopCtx :=
  { s.hx c with waiting := some w, copies := (s.hx c).copies.filter fun cp => cp.pos != w.pos }

theorem latch_eq (s : State) (c : Nat) (w : Waiting) :
    s.latch c w = fetch c ((s.setHx c (s.hxStarted c w)).touch c) := rfl

/-- A descriptor that starts is waited in, its own copy is gone, and the window has been fetched. -/
theorem latch_leaves (s : State) (c : Nat) (w : Waiting) :
    ((s.latch c w).hx c).waiting = some w ∧ (s.latch c w).mem = s.mem
      ∧ ∀ cp ∈ ((s.latch c w).hx c).copies,
        cp ∈ (s.hx c).copies ∨ cp.bytes = s.bytes (s.cRingBase c + 64 * cp.pos) 64 := by
  rw [latch_eq]
  have held : (s.setHx c (s.hxStarted c w)).hx c = s.hxStarted c w := (State.hx_setHx ..).trans (if_pos rfl)
  have marked := touch_leavesRings (s.setHx c (s.hxStarted c w)) c
  obtain ⟨mem, waiting, copies⟩ := fetch_leaves c ((s.setHx c (s.hxStarted c w)).touch c)
  refine ⟨by rw [waiting, marked.waiting, held]; rfl, mem.trans marked.mem,
    fun cp h => (copies cp h).imp (fun old => ?_) fun new => ?_⟩
  · rw [marked.copies, held] at old
    exact (List.mem_filter.1 old).1
  · rw [new, State.touch_cRingBase]
    unfold State.bytes
    rw [State.touch_mem]
    rfl

/-- Settles O37: each command runs its control descriptor, and a descriptor that waits is one that has been latched. -/
theorem controlDescriptorsRun : Obligations.ControlDescriptorsRun := by
  intro s x w c runs waits ws free
  exact ⟨exec_runCtl free rfl rfl, exec_runCtl free rfl rfl, exec_runCtl free rfl rfl, exec_runCtl free rfl rfl,
    fun unknown => congrArg done (badOp_unknown free unknown), latch_leaves s c w⟩

/-! ### Waiting descriptors -/

theorem waitCntMet_reached {s : State} {c : Nat} {w : Waiting} (waits : s.waitingOp c 0x02 = some w)
    (reached : dq w.d 2 0 48 ≤ s.cCmplCnt (dq w.d 1 0 12)) : waitCntMet c s = s.endDesc c w (Fin.plain 0) := by
  unfold waitCntMet
  rw [waits]
  exact if_pos reached

/-- The step opens where R181's conditions hold and pacing does not hold its launch back; a RESUME's it never does
(13 R385). -/
theorem stepEnd_opens {s : State} {c free : Nat} {w : Waiting} (waits : s.waitingOp c 0x01 = some w)
    (holds : s.stepFree c w = some free) (paced : (s.gx c).launch.isSome ∨ ∀ l, s.paceAt c = some l → l ≤ s.time.ktime) :
    stepEnd c s = s.openStep c w free := by
  unfold stepEnd
  rw [waits]
  dsimp only
  rw [holds]
  dsimp only
  split
  · next l noResume pace =>
    refine if_pos (paced.elim (fun resume => ?_) fun reached => reached l pace)
    simp [noResume] at resume
  · rfl

/-- A SORT that starts is loaded where Lauter is idle, and else waits its turn (07 R188). -/
theorem sortDesc_starts {s : State} {c : Nat} {w : Waiting} (free : s.ready c = some w) (isSort : dOp w.d = 0x0A)
    (running : s.quiescing 0x700000 = false) (good : s.decode c w (decSort w.d) = 0) :
    sortDesc c s = if s.hop.sort.isSome then
        { s.latch c w with hop := { (s.latch c w).hop with sortQ := (s.latch c w).hop.sortQ ++ [c] } }
      else (s.latch c w).sortLoad c w.d :=
  (if_neg (Bool.eq_false_iff.1 running)).trans ((runCtl_free free isSort).1 good)

/-- The bytes that a SORT stores: its pairs in sorted order (04 R109). -/
def sortedBytes (d : Nat) (xs : List W64) : Bytes :=
  ((sortPairs (dq d 3 17 2) (d.testBit (64 * 3 + 19)) xs).map fun y => leBytes 8 y.toNat).flatten

/-- The sort of a context ends by storing its pairs, or at an uncorrectable error by the writes made before it. -/
theorem sortDone_ends {s : State} {c : Nat} {w : Waiting} {xs : List W64} (loaded : s.hop.sort = some (c, xs))
    (waits : s.waitingOp c 0x0A = some w) (ecc : Option Nat) :
    sortDone c ecc s = ecc.elim
      (((((s.busWrite (dq w.d 2 0 48) (sortedBytes w.d xs)).bump 0x700054 1).countEv 0x700000 0x11
          xs.length).sortNext).endDesc c w { Fin.plain 0 with writes := [(dq w.d 2 0 48, (sortedBytes w.d xs).length)] })
      fun n => ((s.issue (takeWrites n [(dq w.d 2 0 48, sortedBytes w.d xs)])).sortNext).endDesc c w
        { Fin.plain 7 with writes := ranges (takeWrites n [(dq w.d 2 0 48, sortedBytes w.d xs)]) } := by
  unfold sortDone
  rw [loaded]
  refine (if_neg (by simp)).trans ?_
  rw [waits]
  cases ecc <;> rfl

/-- The oldest ended descriptor is gone from the list and its record is written where one is due; CMPL_CNT has advanced with CNT
and status OK (07 R178, R179). -/
def State.recorded (s : State) (c : Nat) (e : Ended) (es : List Ended) : State :=
  let written := (s.setHx c { s.hx c with ended := es }).writeCmpl c e
  if e.cnt = true ∧ e.status = 0 then written.advCmpl c else written

/-- A completion records its descriptor; where it advanced CMPL_CNT, a publication ends UPDATE of its step (01 Table 1-4). -/
theorem complete_oldest {s : State} {c : Nat} {e : Ended} {es : List Ended} (oldest : (s.hx c).ended = e :: es) :
    complete c s = (e.upd.elim (s.recorded c e es) fun k =>
      if e.cnt = true ∧ e.status = 0 then (s.recorded c e es).phEnd c k phUpdate else s.recorded c e es).touch c := by
  unfold complete
  rw [oldest]
  simp only [Bool.and_eq_true, decide_eq_true_eq]
  cases e.upd <;> rfl

/-- Settles O38: a wait that is over ends, a sort starts and ends, and the oldest ended descriptor completes. -/
theorem waitingDescriptorsEnd : Obligations.WaitingDescriptorsEnd := by
  intro s x w free e es xs
  refine ⟨fun waits reached => congrArg done (waitCntMet_reached waits reached),
    fun waits holds paced => congrArg done (stepEnd_opens waits holds paced),
    fun ready isSort running good => congrArg done (sortDesc_starts ready isSort running good),
    fun loaded waits => congrArg done (sortDone_ends loaded waits none),
    fun n loaded waits => congrArg done (sortDone_ends loaded waits (some n)), fun oldest => congrArg done ?_⟩
  refine (complete_oldest oldest).trans ?_
  cases e.upd <;> rfl

/-! ### Anvil descriptors -/

/-- The context holds the Anvil and is RUNNING, and ANV 0 does not quiesce (07 R169, 15 Table 15-1). -/
structure State.AnvilHeld (s : State) (c : Nat) : Prop where
  owner : s.hop.owner = some c
  running : s.cState c = stRunning
  quiet : s.quiescing 0x400000 = false

/-- The run of an Anvil descriptor has begun: latched, charged, its correctable errors counted (07 R172, R189). -/
def State.anvilBegun (s : State) (c : Nat) (w : Waiting) (run : Run) (k : Dec) : State :=
  ((s.latch c w).account c k.w run.hc).corr run.corr
/-- It has run to its end: its writes are made, and it ends OK. -/
def State.anvilDone (c : Nat) (w : Waiting) (run : Run) (r : Work) : State :=
  ((r.st.issue r.writes).noteNf r.nf).endDesc c w ⟨0, r.nf, r.big, r.result, run.hc, ranges r.writes, none⟩
/-- It has been cut by an uncorrectable error after `n` bytes of its writes (07 Table 7-3). -/
def State.anvilCut (s : State) (c : Nat) (w : Waiting) (run : Run) (r : Work) (n : Nat)
    (loc : Option (BitVec 5 × BitVec 8)) : State :=
  (((s.issue (takeWrites n r.writes)).eccLoc loc).noteNf (nfWithin n r.marks)).endDesc c w
    ⟨7, nfWithin n r.marks, false, 0, run.hc, ranges (takeWrites n r.writes), none⟩

/-- Only U_APPLY waits for its verdict and its bank (08 R213). -/
theorem applyFree_of_ne (s : State) (c : Nat) {d : Nat} (other : dOp d ≠ 0x40) : s.applyFree c d = true :=
  if_pos (by simp [other])

section
variable {s : State} {c op : Nat} {run : Run} {k : Nat → State → Dec} {act : Nat → State → Work} {w : Waiting}

theorem runAnv_refused (free : s.ready c = some w) (isOp : dOp w.d = op) (bad : s.decode c w (k w.d s) ≠ 0) :
    s.runAnv c op run k act = s.endDesc c w (Fin.plain (s.decode c w (k w.d s))) := by
  unfold State.runAnv
  rw [free]
  simp [isOp, bad]

/-- An accepted descriptor of the Anvil's own opcodes runs to its end, or to its uncorrectable error. -/
theorem runAnv_runs (free : s.ready c = some w) (isOp : dOp w.d = op) (good : s.decode c w (k w.d s) = 0)
    (held : s.AnvilHeld c) (anvil : op < 0x40) :
    s.runAnv c op run k act =
      let u := s.anvilBegun c w run (k w.d s)
      run.ecc.elim (State.anvilDone c w run (act w.d u)) fun e => u.anvilCut c w run (act w.d u) e.1 e.2 := by
  obtain ⟨owner, running, quiet⟩ := held
  have starts : (s.hop.owner != some c || s.cState c != stRunning || !s.applyFree c w.d || s.quiescing 0x400000
      || (decide (0x40 ≤ op) && s.quiescing 0xA00000)) = false := by
    simp [owner, running, quiet, applyFree_of_ne s c (isOp ▸ Nat.ne_of_lt anvil), Nat.not_le.2 anvil]
  unfold State.runAnv
  rw [free]
  refine (if_neg (by simp [isOp])).trans ((if_neg (by simp [good])).trans ((if_neg (Bool.eq_false_iff.1 starts)).trans ?_))
  dsimp only
  cases run.ecc <;> rfl

/-- A command that runs an Anvil descriptor: refused at decode, run to its end, or cut by an uncorrectable error. -/
theorem exec_runAnv {i : Instr} (free : s.ready c = some w) (runs : exec i s = done (s.runAnv c op run k act))
    (anvil : op < 0x40) (isOp : dOp w.d = op) :
    (s.decode c w (k w.d s) ≠ 0 → exec i s = .next (s.endDesc c w (Fin.plain (s.decode c w (k w.d s)))))
      ∧ (s.decode c w (k w.d s) = 0 → s.hop.owner = some c → s.cState c = stRunning → s.quiescing 0x400000 = false →
        let u := s.anvilBegun c w run (k w.d s)
        (run.ecc = none → exec i s = .next (State.anvilDone c w run (act w.d u)))
          ∧ ∀ n loc, run.ecc = some (n, loc) → exec i s = .next (u.anvilCut c w run (act w.d u) n loc)) := by
  refine ⟨fun bad => runs.trans (congrArg done (runAnv_refused free isOp bad)), fun good owner running quiet => ?_⟩
  have ran := runAnv_runs (run := run) (act := act) free isOp good ⟨owner, running, quiet⟩ anvil
  refine ⟨fun whole => runs.trans (congrArg done (ran.trans ?_)), fun n loc cut => runs.trans (congrArg done (ran.trans ?_))⟩
  · rw [whole, Option.elim_none]
  · rw [cut, Option.elim_some]

end

/-- Settles O39: the six commands run their descriptors in the one way that `exec_runAnv` states. -/
theorem anvilDescriptorsRun : Obligations.AnvilDescriptorsRun := by
  intro s x run w c runs free
  exact ⟨exec_runAnv free rfl (by decide), exec_runAnv free rfl (by decide), exec_runAnv free rfl (by decide),
    exec_runAnv free rfl (by decide), exec_runAnv free rfl (by decide), exec_runAnv free rfl (by decide)⟩

end Sys2Proof.Machine
end

section
/-! What the descriptors of the update unit do once they may start: an Anvil-class descriptor runs to its end or to its
uncorrectable error, and a publication writes its word. -/
namespace Sys2Proof.Machine
open Sys2Proof

/-! ### Update descriptors on the Anvil -/

section
variable {s : State} {c op : Nat} {run : Run} {k : Nat → State → Dec} {act : Nat → State → Work} {w : Waiting}

/-- An accepted descriptor of any Anvil-class opcode that may start runs to its end, or to its uncorrectable error: those of the
update unit start while UPD 0 does not quiesce (16 Table 16-1), and a U_APPLY once its step's verdict and bank allow it
(08 R213). -/
theorem runAnv_free (free : s.ready c = some w) (isOp : dOp w.d = op) (good : s.decode c w (k w.d s) = 0)
    (held : s.AnvilHeld c) (updates : s.quiescing 0xA00000 = false) (applies : s.applyFree c w.d = true) :
    s.runAnv c op run k act =
      let u := s.anvilBegun c w run (k w.d s)
      run.ecc.elim (State.anvilDone c w run (act w.d u)) fun e => u.anvilCut c w run (act w.d u) e.1 e.2 := by
  obtain ⟨owner, running, quiet⟩ := held
  have starts : (s.hop.owner != some c || s.cState c != stRunning || !s.applyFree c w.d || s.quiescing 0x400000
      || (decide (0x40 ≤ op) && s.quiescing 0xA00000)) = false := by
    simp [owner, running, quiet, applies, updates]
  unfold State.runAnv
  rw [free]
  refine (if_neg (by simp [isOp])).trans ((if_neg (by simp [good])).trans ((if_neg (Bool.eq_false_iff.1 starts)).trans ?_))
  dsimp only
  cases run.ecc <;> rfl

/-- A command that runs an Anvil-class descriptor without an uncorrectable error runs it to its end. -/
theorem exec_runAnv_done {i : Instr} (free : s.ready c = some w) (updates : s.quiescing 0xA00000 = false)
    (runs : exec i s = done (s.runAnv c op run k act)) (isOp : dOp w.d = op) (good : s.decode c w (k w.d s) = 0)
    (owner : s.hop.owner = some c) (running : s.cState c = stRunning) (quiet : s.quiescing 0x400000 = false)
    (applies : s.applyFree c w.d = true) (whole : run.ecc = none) :
    exec i s = .next (State.anvilDone c w run (act w.d (s.anvilBegun c w run (k w.d s)))) := by
  have ran := runAnv_free (run := run) (act := act) free isOp good ⟨owner, running, quiet⟩ updates applies
  rw [whole, Option.elim_none] at ran
  exact runs.trans (congrArg done ran)

end

/-! ### Publications -/

/-- The publication word of a step with verdict `v`: STEP, bit 48 where the step was not committed, bit 49 where its update was
held (08 R215). -/
def State.publication (s : State) (c step v : Nat) : Nat :=
  step + (if v = 0 then 0 else 2 ^ 48) + (if (c, step) ∈ s.upd.heldIn then 2 ^ 49 else 0)

/-- The two flags of the word, as U_PUBLISH adds them up. -/
theorem publication_eq (s : State) (c step v : Nat) :
    step + b2n (v != 0) * 2 ^ 48 + b2n (s.upd.heldIn.contains (c, step)) * 2 ^ 49 = s.publication c step v := by
  have skipped : b2n (v != 0) * 2 ^ 48 = if v = 0 then 0 else 2 ^ 48 := by
    by_cases commit : v = 0 <;> simp [b2n, commit]
  have held : b2n (s.upd.heldIn.contains (c, step)) * 2 ^ 49 = if (c, step) ∈ s.upd.heldIn then 2 ^ 49 else 0 := by
    by_cases isHeld : (c, step) ∈ s.upd.heldIn <;> simp [b2n, isHeld]
  rw [skipped, held, State.publication]

/-- An accepted U_PUBLISH whose verdict is held writes its word and ends OK; after a commit it carries the step whose UPDATE its
completion ends (08 R215). -/
theorem publish_writes {s : State} {c v : Nat} {w : Waiting} (free : s.ready c = some w)
    (updates : s.quiescing 0xA00000 = false) (isOp : dOp w.d = 0x41) (good : s.decode c w (decPublish w.d) = 0)
    (verdict : s.verdictOf c (dq w.d 1 0 48) = some v) :
    publish c s = ((s.latch c w).busWrite (dq w.d 2 0 48) (leBytes 8 (s.publication c (dq w.d 1 0 48) v))).endDesc c w
      { Fin.plain 0 with writes := [(dq w.d 2 0 48, 8)], upd := if v = 0 then some (dq w.d 1 0 48) else none } := by
  refine (if_neg (Bool.eq_false_iff.1 updates)).trans (((runCtl_free free isOp).1 good).trans ?_)
  dsimp only
  rw [verdict, ← publication_eq]

/-- Settles O40: the four commands of the Anvil run as `exec_runAnv_done` states, and U_PUBLISH as `publish_writes` does. -/
theorem updateDescriptorsRun : Obligations.UpdateDescriptorsRun := by
  intro s x run w v c runs step a word free updates
  exact ⟨exec_runAnv_done free updates rfl, exec_runAnv_done free updates rfl, exec_runAnv_done free updates rfl,
    exec_runAnv_done free updates rfl,
    fun isOp good verdict => congrArg done (publish_writes free updates isOp good verdict)⟩

end Sys2Proof.Machine
end

section
/-! What Quicon forgets in time, how MAC ports come and go, what the egress arbiter hands over, and how attempts and messages
that get no answer end. -/
namespace Sys2Proof.Machine
open Sys2Proof

/-! ### What is forgotten in time -/

/-- An incomplete message has had no new segment for 3.2 ms (09 R252). -/
def State.rxStale (s : State) (r : Rx) : Bool := !r.full && decide (r.last + 3200 * usec ≤ s.time.ktime)

theorem reassemblyTimeout_drops {s : State} (stale : ∃ r ∈ s.qcn.rx, s.rxStale r = true) :
    reassemblyTimeout s =
      ({ s with qcn := { s.qcn with rx := s.qcn.rx.filter fun r => !s.rxStale r } } : State).bump 0xB0206C
        (s.qcn.rx.filter s.rxStale).length := by
  obtain ⟨r, held, dead⟩ := stale
  have counted : 0 < (s.qcn.rx.filter s.rxStale).length := List.length_pos_of_mem (List.mem_filter.2 ⟨held, dead⟩)
  exact if_neg (Nat.ne_of_gt counted)

/-- The step of a close entry closed 32 ms ago (09 R248). -/
def State.closeOld (s : State) (x : Close) : Bool := decide (x.at_ + 32000 * usec ≤ s.time.ktime)
/-- The close entries of such steps are gone, and with them the cooling entries of their blocks. -/
def State.coolingGone (s : State) : State :=
  { s with qcn := { s.qcn with
    closes := s.qcn.closes.filter fun x => !s.closeOld x,
    cool := s.qcn.cool.filter fun e => !(s.qcn.closes.filter s.closeOld).any fun x =>
      x.ctx == e.ctx && x.gen == e.gen && x.step == e.step } }
/-- A verdict of the context that waits for room in the cooling list is tried again (09 R249). -/
def State.endHeld (s : State) (c : Nat) : State :=
  match (s.gx c).toHold with
  | some v => s.verdictEnd c v
  | none => s

theorem coolingExpiry_eq (s : State) : coolingExpiry s = s.live.foldl State.endHeld s.coolingGone := rfl

theorem endHeld_none {s : State} {c : Nat} (free : (s.gx c).toHold = none) : s.endHeld c = s := by
  rw [State.endHeld, free]
theorem endHeld_some {s : State} {c : Nat} {v : Vd} (held : (s.gx c).toHold = some v) :
    s.endHeld c = s.verdictEnd c v := by
  rw [State.endHeld, held]

/-- Where no verdict waits, expiry only removes entries. -/
theorem coolingExpiry_noneHeld {s : State} (free : ∀ c ∈ s.live, (s.gx c).toHold = none) :
    coolingExpiry s = s.coolingGone := by
  rw [coolingExpiry_eq]
  refine List.foldlRecOn (motive := (· = s.coolingGone)) _ _ rfl fun t same c live => ?_
  rw [same]
  exact endHeld_none (free c live)

theorem coolingExpiry_oneHeld {s : State} {c : Nat} {v : Vd} (alone : s.live = [c]) (held : (s.gx c).toHold = some v) :
    coolingExpiry s = s.coolingGone.verdictEnd c v := by
  rw [coolingExpiry_eq, alone]
  exact endHeld_some held

/-- Settles O49: each of the three timers removes what is old enough; expiry then tries the verdicts that wait. -/
theorem quiconForgetsInTime : Obligations.QuiconForgetsInTime := by
  intro s
  exact ⟨fun stale => congrArg done (reassemblyTimeout_drops stale), fun free => congrArg done (coolingExpiry_noneHeld free),
    fun c v alone held => congrArg done (coolingExpiry_oneHeld alone held), rfl⟩

/-! ### MAC ports -/

theorem macPort_setPort_same (s : State) (p : Nat) (x : MacPort) : (s.setPort p x).macPort p = x :=
  (SMap.get_set ..).trans (if_pos rfl)
theorem xing_setPort (s : State) (p cls idx : Nat) (x : MacPort) : (s.setPort p x).xing cls idx = s.xing cls idx := rfl

/-- The MAC client has reported link up (09 R257). -/
def State.linkOn (s : State) (p : Nat) : State := s.setPort p { s.macPort p with link := true }

/-- LINK_UP starts the hold interval where the crossing is OPEN and the interval has not started. -/
theorem linkUp_eq (p : Nat) (s : State) :
    linkUp p s = if s.xing 3 p = .opened ∧ (s.macPort p).since = none then
        (s.linkOn p).setPort p { s.macPort p with link := true, since := some s.time.ktime }
      else s.linkOn p := by
  show (s.linkOn p).portGood p = _
  have here : (s.linkOn p).macPort p = { s.macPort p with link := true } := macPort_setPort_same ..
  have crossing : (s.linkOn p).xing 3 p = s.xing 3 p := xing_setPort ..
  unfold State.portGood
  rw [here, crossing]
  simp only [Bool.true_and, Bool.and_eq_true, beq_iff_eq, Option.isNone_iff_eq_none]
  rfl

theorem portUp_back {s : State} {p t0 : Nat} (link : (s.macPort p).link = true) (opened : s.xing 3 p = .opened)
    (since : (s.macPort p).since = some t0) (ended : t0 + s.regN 0xB01054 * usec ≤ s.time.ktime) :
    portUp p s = ((s.setPort p { s.macPort p with up := true }).portBack p).timePort := by
  unfold portUp
  dsimp only
  rw [since]
  exact if_pos (by simp [link, opened, ended])

/-- The link of a port is down, and the port neither up nor holding (09 R258). -/
def State.portOff (s : State) (p : Nat) : State :=
  (s.setPort p { s.macPort p with link := false }).setPort p ⟨false, false, none⟩

/-- An attempt under way on a port that is lost is whole again and goes on the port that its hash names among those up in its
group (09 R258, R259). -/
theorem withdraw_eq (s : State) (p : Nat) (m : Msg) :
    s.withdraw p m = if m.active = true ∧ m.port = some p then
      { m with withdrawn := true, port := hashPort (hashOf m.key m.spec) (s.upPorts m.group), done := 0 } else m := by
  simp only [State.withdraw, Bool.and_eq_true, beq_iff_eq]
theorem withdrawShot_eq (s : State) (p : Nat) (q : Shot) :
    s.withdrawShot p q = if q.cls ≠ 1 ∧ q.port = some p then
      { q with moved := true, port := hashPort (hashOf q.key q.spec) (s.upPorts 0), done := 0 } else q := by
  simp only [State.withdrawShot, Bool.and_eq_true, bne_iff_ne, beq_iff_eq]

/-- The attempts and single frames that were under way on a port have left it, and the port is noted as down. -/
def State.portLeft (s : State) (p : Nat) : State :=
  { s.portOff p with
    qcn := { (s.portOff p).qcn with
      msgs := s.qcn.msgs.map ((s.portOff p).withdraw p), shots := s.qcn.shots.map ((s.portOff p).withdrawShot p) },
    iden := { (s.portOff p).iden with down := (s.portOff p).iden.down ++ [p] } }

/-- PORT_DOWN of a port that was up withdraws what is under way on it and counts it; of any other it only notes the link. -/
theorem portDown_eq (p : Nat) (s : State) :
    portDown p s = if (s.macPort p).up = true then
        ((((s.portLeft p).bump (qcn3 p 0x44) 1).bump (qcn3 p 0x54)
          (s.qcn.msgs.filter fun m => m.active && m.port == some p).length).err (qcn3 p 0) 8).portless.timePort
      else s.portOff p := by
  have here : (s.setPort p { s.macPort p with link := false }).macPort p = { s.macPort p with link := false } :=
    macPort_setPort_same ..
  unfold portDown State.portBad
  rw [here]
  by_cases wasUp : (s.macPort p).up = true
  · rw [if_pos wasUp]
    exact if_neg (by simp [wasUp])
  · rw [if_neg wasUp]
    exact if_pos (by simpa using wasUp)

/-- Settles O48: LINK_UP and PORT_DOWN by their two outcomes, PORT_UP by its condition. -/
theorem macPortsComeAndGo : Obligations.MacPortsComeAndGo := by
  intro s pt t0
  refine ⟨fun opened unheld => congrArg done ((linkUp_eq ..).trans (if_pos ⟨opened, unheld⟩)),
    fun waits => congrArg done ((linkUp_eq ..).trans (if_neg fun ⟨opened, unheld⟩ => waits.elim (· opened) (· unheld))),
    fun link opened since ended => congrArg done (portUp_back link opened since ended),
    fun down => congrArg done ((portDown_eq ..).trans (if_neg (Bool.eq_false_iff.1 down))),
    fun up => congrArg done (((portDown_eq ..).trans (if_pos up)).trans ?_)⟩
  simp only [State.portLeft, funext (withdraw_eq (s.portOff pt.toNat) pt.toNat),
    funext (withdrawShot_eq (s.portOff pt.toNat) pt.toNat)]
  rfl

/-! ### The egress arbiter -/

/-- A segment of what the arbiter has picked is handed over. -/
def State.grantPick (s : State) (p : Nat) : Pick → State
  | .shot q => s.grantShot p q
  | .msg m => s.grantMsg p m

theorem egressGrant_up {s : State} {p : Nat} {x : Option Pick} (up : (s.macPort p).up = true) (next : s.nextGrant p = x) :
    egressGrant p s = x.elim s (s.grantPick p) := by
  unfold egressGrant
  rw [next]
  refine (if_neg (by simp [up])).trans ?_
  rcases x with _ | _ | _ <;> rfl

/-- The next frame of what is sent once (09 R237, R239, R263). -/
def State.shotFrame (s : State) (p : Nat) (q : Shot) : Output :=
  if q.key.kind = 7 then s.kx1Frame p q.key q.spec q.payload
  else s.frameOf p q.key q.attempt q.spec q.done (q.tsend.getD s.time.ktime) q.payload
/-- The frames that a single frame's payload takes: its segments, or one under KX1. -/
def State.shotFrames (s : State) (q : Shot) : Nat := if q.key.kind = 7 then 1 else s.segCount q.payload
/-- What is sent once after the grant: gone after its last segment. -/
def State.shotsAfter (s : State) (p : Nat) (q : Shot) : List Shot :=
  if q.done + 1 = s.shotFrames q then s.qcn.shots.filter fun x => x.order != q.order
  else s.qcn.shots.map fun x =>
    if x.order = q.order then { x with done := q.done + 1, port := some p, tsend := some (s.shotTime q) } else x

/-- A grant drives the frame and leaves the shots that remain; the turn of class 5 is no part of either. -/
theorem grantShot_leaves (s : State) (p : Nat) (q : Shot) :
    (s.grantShot p q).out = s.shotFrame p q :: s.out ∧ (s.grantShot p q).qcn.shots = s.shotsAfter p q := by
  unfold State.grantShot State.shotFrame State.shotsAfter State.shotFrames
  simp only [beq_iff_eq]
  split <;> exact ⟨rfl, rfl⟩

theorem shotsAfter_last {s : State} (p : Nat) {q : Shot} (last : q.done + 1 = s.shotFrames q) :
    ∀ z ∈ s.shotsAfter p q, z.order ≠ q.order := by
  intro z held
  rw [State.shotsAfter, if_pos last] at held
  exact bne_iff_ne.1 (List.mem_filter.1 held).2

/-! ### Retries -/

/-- The flow of a message that has timed out sends at half its window, but no less than the minimum (09 R254). -/
def State.slowed (s : State) (m : Msg) : State :=
  s.onFlow m fun f => { f with cwnd := max (s.regN 0xB01044) (f.cwnd / 2) }

theorem retry_last {s : State} {m : Msg} (last : m.attempt = 12) :
    s.retry m = (((s.slowed m).bump 0xB02070 1).err 0xB00000 8).endUnknown m := if_pos last
/-- With a port of the group up, the next attempt is queued (09 R242). -/
theorem retry_queued {s : State} {m : Msg} (more : m.attempt < 12) (up : (s.slowed m).upPorts m.group ≠ []) :
    s.retry m = (s.slowed m).putMsg
      { m with attempt := m.attempt + 1, active := true, done := 0, port := none, withdrawn := false } :=
  (if_neg (Nat.ne_of_lt more)).trans (if_neg up)
/-- With none up, it counts as handed over when it was due (09 R243). -/
theorem retry_portless {s : State} {m : Msg} (more : m.attempt < 12) (down : (s.slowed m).upPorts m.group = []) :
    s.retry m = (s.slowed m).putMsg
      { m with attempt := m.attempt + 1, sentAt := m.sentAt + timeoutOf m.attempt * usec } :=
  (if_neg (Nat.ne_of_lt more)).trans (if_pos down)

/-- RETRY_TIMEOUT retries what has timed out once the attempts without a port count as handed over (09 R242, R243). -/
theorem retryTimeout_of_timedOut {s : State} {ms : List Msg} (timedOut : s.portless.qcn.msgs.filter s.portless.timedOut = ms) :
    retryTimeout s = ms.foldl State.retry s.portless := by
  rw [← timedOut]
  rfl

/-- Settles O47: the grant by what the arbiter picks, and a retry by its attempt and the ports of its group. -/
theorem egressAndRetries : Obligations.EgressAndRetries := by
  intro s pt q m
  refine ⟨fun up => ⟨fun idle => congrArg done (egressGrant_up up idle), fun next => ?_,
      fun next => congrArg done (egressGrant_up up next)⟩,
    fun quiet => congrArg done (retryTimeout_of_timedOut quiet), fun one => ?_, rfl⟩
  · obtain ⟨out, shots⟩ := grantShot_leaves s pt.toNat q
    exact ⟨congrArg done (egressGrant_up up next), out, fun last => by rw [shots]; exact shotsAfter_last _ last⟩
  · have retried : exec .retryTimeout s = done (s.portless.retry m) := congrArg done (retryTimeout_of_timedOut one)
    exact ⟨fun last => retried.trans (congrArg done (retry_last last)),
      fun more up => retried.trans (congrArg done (retry_queued more up)),
      fun more down => retried.trans (congrArg done (retry_portless more down))⟩

end Sys2Proof.Machine
end

section
/-! What becomes of a frame that arrives, test by test, and of the acknowledgements and credits that complete. -/
namespace Sys2Proof.Machine
open Sys2Proof

/-! ### Tests 2 to 6 of 09 Table 9-6 -/

/-- The sender's incarnation is the one held; of a node of which none is held, a GUARD frame of incarnation 0 is taken. -/
def State.incarnOk (s : State) (h : Hdr) : Bool :=
  match s.incOf h.src with
  | some i => h.incarn == i
  | none => h.kind == 3 && h.incarn == 0
/-- How long ago the message was first handed over, in units of TSEND (09 R243). -/
def State.frameAge (s : State) (h : Hdr) : Nat := (s.time.ktime / 256 + 2 ^ 40 - h.tsend) % 2 ^ 40
/-- An ACK, a CREDIT or a Tongs answer of a generation that has retired (09 R262, 10 R288). -/
abbrev State.retiredAnswer (s : State) (h : Hdr) : Prop :=
  (h.kind = 1 ∨ h.kind = 2 ∨ (h.kind = 4 ∧ 3 ≤ nfld h.spec 0 3 ∧ nfld h.spec 0 3 ≤ 5)) ∧ s.wasRetired h.ctx h.gen = true

/-- The tests as conditions on the state, in their order; what passes them all is stored. -/
theorem rxTests_eq (s : State) (p : Nat) (h : Hdr) (ce : Bool) (seg : Bytes) :
    s.rxTests p h ce seg =
      if h.src = s.node then s.fence
      else if h.dst ≠ s.node then s.bump 0xB02048 1
      else if s.incarnOk h = false then s.bump 0xB0204C 1
      else if 195313 < s.frameAge h then s.bump 0xB02050 1
      else if s.genOk h = false then (if s.retiredAnswer h then s.stray else s.bump 0xB02054 1)
      else (s.rxStore p h ce seg).dropBadTop := by
  have answer : ((h.kind = 1 || h.kind = 2 || (h.kind = 4 && 3 ≤ nfld h.spec 0 3 && nfld h.spec 0 3 ≤ 5))
      && s.wasRetired h.ctx h.gen) = decide (s.retiredAnswer h) := by
    simp [State.retiredAnswer, Bool.decide_and, Bool.decide_or, Bool.and_assoc, Bool.or_assoc]
  unfold State.rxTests
  rw [answer]
  simp only [bne_iff_ne, Bool.not_eq_true', Bool.and_eq_true, decide_eq_true_eq]
  cases s.genOk h
  · simp only [and_true, if_true]
    rfl
  · simp only [Bool.true_eq_false, and_false, if_false]
    rfl

/-! ### Frames -/

/-- A frame taken from its encapsulation counts as received on its port, and by its CE mark (09 R253, 16 R430). -/
def State.frameCounted (s : State) (p : Nat) (ce : Bool) : State :=
  if ce then (s.bump (qcn3 p 0x4C) 1).bump (qcn3 p 0x50) 1 else s.bump (qcn3 p 0x4C) 1
/-- A frame with a KX1 header: test 1 of R265, then the others. -/
def State.kx1In (s : State) (p : Nat) (bs : Bytes) (out : Option Nat) : State :=
  if Machine.kx1Ok bs then
    (s.frameCounted p (out == some 3)).kx1Tests p (out == some 3) (kx1Of bs) ((bs.take (bs.length - 4)).drop 32)
  else s.bump 0xB02040 1
/-- The CE mark of a Quicon frame: of its encapsulation, or of its header. -/
def ceMark (bs : Bytes) (out : Option Nat) : Bool := (out.getD (hdrOf bs).ecn) == 3
/-- A frame with a Quicon header: R237, the trailer of R240 and the length make up test 1. -/
def State.quiconIn (s : State) (p : Nat) (bs : Bytes) (out : Option Nat) : State :=
  if s.hdrOk bs = false then s.bump 0xB02040 1
  else if s.e2eOk bs = false then s.bump 0xB02044 1
  else if s.frameLen bs = false then s.bump 0xB02040 1
  else (s.frameCounted p (ceMark bs out)).rxTests p (hdrOf bs) (ceMark bs out) ((bs.drop 48).take (hdrOf bs).slen)

/-- The port takes frames: its link is up and its crossing OPEN (09 R257). -/
structure State.PortTakes (s : State) (p : Nat) : Prop where
  link : (s.macPort p).link = true
  opened : s.xing 3 p = .opened

/-- A frame that the port takes: discarded by R236, else VER selects its header. -/
theorem frameIn_eq {s : State} {p : Nat} (frame : Bytes) (takes : s.PortTakes p) :
    frameIn p frame s = (s.decap frame).elim (s.bump 0xB02040 1) fun f =>
      if nfld (ofLe (f.1.take 1)) 0 4 = 1 then s.kx1In p f.1 f.2 else s.quiconIn p f.1 f.2 := by
  unfold frameIn
  refine (if_neg (by simp [takes.link, takes.opened])).trans ?_
  simp only [Bool.not_eq_true']
  cases s.decap frame <;> rfl

section
variable {s : State} {p : Nat} {frame bs : Bytes} {out : Option Nat}

theorem frameIn_discards (takes : s.PortTakes p) (bad : s.decap frame = none) :
    frameIn p frame s = s.bump 0xB02040 1 := by
  rw [frameIn_eq frame takes, bad, Option.elim_none]
theorem frameIn_kx1 (takes : s.PortTakes p) (taken : s.decap frame = some (bs, out))
    (kx1 : nfld (ofLe (bs.take 1)) 0 4 = 1) : frameIn p frame s = s.kx1In p bs out := by
  rw [frameIn_eq frame takes, taken, Option.elim_some]
  exact if_pos kx1
theorem frameIn_quicon (takes : s.PortTakes p) (taken : s.decap frame = some (bs, out))
    (quicon : nfld (ofLe (bs.take 1)) 0 4 ≠ 1) : frameIn p frame s = s.quiconIn p bs out := by
  rw [frameIn_eq frame takes, taken, Option.elim_some]
  exact if_neg quicon

theorem kx1In_bad (bad : kx1Ok bs = false) : s.kx1In p bs out = s.bump 0xB02040 1 := if_neg (Bool.eq_false_iff.1 bad)
theorem kx1In_good (good : kx1Ok bs = true) : s.kx1In p bs out =
    (s.frameCounted p (out == some 3)).kx1Tests p (out == some 3) (kx1Of bs) ((bs.take (bs.length - 4)).drop 32) :=
  if_pos good

theorem quiconIn_badHeader (bad : s.hdrOk bs = false) : s.quiconIn p bs out = s.bump 0xB02040 1 := if_pos bad
theorem quiconIn_badTrailer (header : s.hdrOk bs = true) (bad : s.e2eOk bs = false) :
    s.quiconIn p bs out = s.bump 0xB02044 1 := by
  rw [State.quiconIn, if_neg (by simp [header]), if_pos bad]
theorem quiconIn_whole (header : s.hdrOk bs = true) (trailer : s.e2eOk bs = true) (whole : s.frameLen bs = true) :
    s.quiconIn p bs out = (s.frameCounted p (ceMark bs out)).rxTests p (hdrOf bs) (ceMark bs out)
      ((bs.drop 48).take (hdrOf bs).slen) := by
  simp [State.quiconIn, header, trailer, whole]

end

/-- Settles O45: both commands take a frame in alike; test 1 by its parts, then tests 2 to 6 in their order. -/
theorem framesPassTheReceiveTests : Obligations.FramesPassTheReceiveTests := by
  intro s pt frame bs out p h ce seg count u age inc top late kept link opened i command
  have takes : s.PortTakes p := ⟨link, opened⟩
  have runs : exec i s = done (frameIn p frame s) := by rcases command with rfl | rfl <;> rfl
  rw [runs]
  refine ⟨fun bad => congrArg done (frameIn_discards takes bad), fun taken kx1 => ?_, fun taken quicon => ?_⟩
  · rw [frameIn_kx1 takes taken kx1]
    exact ⟨fun bad => congrArg done (kx1In_bad bad), fun good => congrArg done (kx1In_good good)⟩
  · rw [frameIn_quicon takes taken quicon]
    exact ⟨fun bad => congrArg done (quiconIn_badHeader bad),
      fun header bad => congrArg done (quiconIn_badTrailer header bad),
      fun header trailer whole => congrArg done ((quiconIn_whole header trailer whole).trans (rxTests_eq ..))⟩

/-! ### Acknowledgements -/

theorem ackRx_ends {s : State} {r : Rx} {m : Msg} (found : s.rxFind (fun r => r.key.kind == 1) = some r)
    (mine : (s.rxDrop r).ackedMsg r = some m) : ackRx s =
      ((s.rxDrop r).answered m (nfld r.spec 56 20) (if r.spec.testBit 77 then 1 else 0)).afterAck r m := by
  unfold ackRx
  rw [found]
  dsimp only
  rw [mine]
theorem ackRx_stray {s : State} {r : Rx} (found : s.rxFind (fun r => r.key.kind == 1) = some r)
    (nobody : (s.rxDrop r).ackedMsg r = none) : ackRx s = (s.rxDrop r).stray := by
  unfold ackRx
  rw [found]
  dsimp only
  rw [nobody]

/-! ### Credit -/

/-- The credit that a CREDIT message carries for Billet slot `b` (09 R246). -/
def Rx.credit (r : Rx) (b : Nat) : Credit :=
  ⟨r.src, r.key.ctx, r.key.step, b, nfld r.spec 0 20, nfld r.spec 56 20, nfld r.spec 20 20, nfld r.spec 40 16⟩
/-- The credit is held where its Billet is one of the context. -/
def State.creditHeld (s : State) (r : Rx) : State :=
  (s.billetSlot r.key.ctx r.key.billet).elim s fun b => s.putCredit (r.credit b)

/-- The oldest complete message is the CREDIT `r`, of a runnable context and its GEN. -/
structure State.CreditNext (s : State) (r : Rx) : Prop where
  found : s.rxFind (fun r => r.key.kind == 2) = some r
  runnable : (s.rxDrop r).cRunnable r.key.ctx = true
  gen : (s.rxDrop r).cGen r.key.ctx = r.key.gen

/-- CREDIT is acknowledged for the current or the next step, and dropped for any other. -/
theorem creditRx_next {s : State} {r : Rx} (next : s.CreditNext r) :
    creditRx s =
      if r.key.step = (s.rxDrop r).cStep r.key.ctx ∨ r.key.step = (s.rxDrop r).cStep r.key.ctx + 1 then
        ((s.rxDrop r).creditHeld r).ack r 0 0 0 false false
      else s.rxDrop r := by
  obtain ⟨found, runnable, gen⟩ := next
  unfold creditRx
  rw [found]
  refine (if_neg (by simp [runnable, gen])).trans ?_
  by_cases near : r.key.step = (s.rxDrop r).cStep r.key.ctx ∨ r.key.step = (s.rxDrop r).cStep r.key.ctx + 1
  · rw [if_pos near]
    refine (if_neg (by simpa [Decidable.or_iff_not_imp_left] using near)).trans ?_
    unfold State.creditHeld
    cases (s.rxDrop r).billetSlot r.key.ctx r.key.billet <;> rfl
  · rw [if_neg near]
    exact if_pos (by simpa using near)

/-- Settles O46: an ACK by the message that it answers, a CREDIT by its step. -/
theorem answersEndMessages : Obligations.AnswersEndMessages := by
  intro s r m b u k mine c cr
  refine ⟨fun found => ⟨fun ours => congrArg done (ackRx_ends found ours), fun nobody => congrArg done (ackRx_stray found nobody)⟩,
    fun found runnable gen => ?_⟩
  have runs := congrArg done (creditRx_next ⟨found, runnable, gen⟩)
  refine ⟨fun near => ?_, fun other later => runs.trans (congrArg done (if_neg (not_or.2 ⟨other, later⟩)))⟩
  have held : exec .credit s = done ((u.creditHeld r).ack r 0 0 0 false false) := runs.trans (congrArg done (if_pos near))
  refine ⟨fun named => ?_, fun unnamed => ?_⟩
  · rw [held, State.creditHeld, named, Option.elim_some]
    rfl
  · rw [held, State.creditHeld, unnamed, Option.elim_none]
    rfl

end Sys2Proof.Machine
end

section
/-! What DATA makes of the oldest complete block, and how BLOCK_EMIT sends a complete block on. -/
namespace Sys2Proof.Machine
open Sys2Proof

/-! ### A received block -/

/-- The oldest complete DATA message is `m`, of the open step of a runnable context and its GEN, while MSH 0 does not quiesce. -/
structure State.DataNext (s : State) (m : Rx) : Prop where
  running : s.quiescing 0x900000 = false
  found : s.rxFind (fun r => r.key.kind == 0) = some m
  runnable : (s.rxDrop m).cRunnable m.key.ctx = true
  gen : (s.rxDrop m).cGen m.key.ctx = m.key.gen
  step : m.key.step = (s.rxDrop m).cStep m.key.ctx

/-- The answer DUP to a block of the open step, with the record's D and WIN (09 R244, Table 9-6 tests 9 and 10). -/
def State.dupAnswered (s : State) (m : Rx) (r : Route) : State :=
  s.ansDup m r.first (s.dOf m.key.ctx r) (s.winFor m.key.ctx r m.src)
/-- The answer LATE (tests 10 and 11). -/
def State.lateAnswered (s : State) (m : Rx) (r : Route) : State :=
  s.ansLate m r.first (s.dOf m.key.ctx r) (s.winFor m.key.ctx r m.src)
/-- The D and WIN that the answer carries, those of `s`, are those last advertised from then on (09 R246). -/
def State.advertised (t s : State) (m : Rx) (r : Route) (i : Nat) : State :=
  t.setAdv m.key.ctx r i (s.dOf m.key.ctx r) (s.winFor m.key.ctx r m.src)
/-- The step has its close entry, or the block has been emitted: test 10 decides. -/
def State.blockGone (s : State) (m : Rx) (b : Nat) : Prop :=
  (s.closeOf m.key.ctx m.key.gen m.key.step).isSome = true ∨ m.key.blk ∈ s.emitted m.key.ctx b
/-- The block is checked, and becomes the child's operand where the checks pass (test 8). -/
def State.dataChecked (s : State) (m : Rx) (b : Nat) (r : Route) (i : Nat) : State :=
  (s.checkBlock m.key.ctx b m.key.blk m.bytes).elim (fun g => s.operand m r i g) fun k => s.integrity m.key.ctx k m.src
/-- What becomes of a block of the open step from child `i` of record `r`: the tests 8 to 11, in the order of the model. -/
def State.dataFrom (s : State) (m : Rx) (b : Nat) (r : Route) (i : Nat) : State :=
  if (s.closeOf m.key.ctx m.key.gen m.key.step).isSome || (s.emitted m.key.ctx b).contains m.key.blk then
    (if s.cooled m then s.lateAnswered m r else s.dupAnswered m r).advertised s m r i
  else if (s.openOf m.key.ctx b m.key.blk).marked.contains i then (s.dupAnswered m r).advertised s m r i
  else if (s.openOf m.key.ctx b m.key.blk).released || s.listed m.key.ctx m.key.billet m.key.blk m.src then
    (s.lateAnswered m r).advertised s m r i
  else s.dataChecked m b r i

/-- DATA on a block of the open step: an unknown Billet, block or sender is counted (test 7); else the tests go on. -/
theorem dataMsg_next {s : State} {m : Rx} (next : s.DataNext m) :
    dataMsg s =
      let u := s.rxDrop m
      (u.billetSlot m.key.ctx m.key.billet).elim (u.bump 0xB02048 1) fun b =>
        (u.routeFor m.key.ctx b m.key.blk).elim (u.bump 0xB02048 1) fun r =>
          (r.childPos m.src).elim (u.bump 0xB02048 1) (u.dataFrom m b r) := by
  obtain ⟨running, found, runnable, gen, step⟩ := next
  have now : (m.key.step == (s.rxDrop m).cStep m.key.ctx) = true := beq_iff_eq.2 step
  have begun : ¬ (s.rxDrop m).cStep m.key.ctx < m.key.step := Nat.not_lt.2 (Nat.le_of_eq step)
  unfold dataMsg
  refine (if_neg (Bool.eq_false_iff.1 running)).trans ?_
  rw [found]
  unfold State.dataRx
  dsimp only
  rw [if_neg (by simp [runnable, gen]), if_neg begun, now]
  cases (s.rxDrop m).billetSlot m.key.ctx m.key.billet with
  | none => rfl
  | some b =>
    dsimp only [Option.elim_some]
    cases (s.rxDrop m).routeFor m.key.ctx b m.key.blk with
    | none => rfl
    | some r =>
      dsimp only [Option.elim_some]
      cases r.childPos m.src with
      | none => rfl
      | some i =>
        unfold State.dataFrom State.dataChecked
        simp only [Option.elim_some, if_true, Bool.true_and, Bool.not_true, Bool.false_eq_true, if_false]
        cases (s.rxDrop m).checkBlock m.key.ctx b m.key.blk m.bytes <;> rfl

section
variable {s : State} {m : Rx} {b i : Nat} {r : Route}

theorem dataMsg_noBillet (next : s.DataNext m) (unknown : (s.rxDrop m).billetSlot m.key.ctx m.key.billet = none) :
    dataMsg s = (s.rxDrop m).bump 0xB02048 1 := by
  simp only [dataMsg_next next, unknown, Option.elim_none]
theorem dataMsg_noChild (next : s.DataNext m) (billet : (s.rxDrop m).billetSlot m.key.ctx m.key.billet = some b)
    (route : (s.rxDrop m).routeFor m.key.ctx b m.key.blk = some r) (stranger : r.childPos m.src = none) :
    dataMsg s = (s.rxDrop m).bump 0xB02048 1 := by
  simp only [dataMsg_next next, billet, route, stranger, Option.elim_some, Option.elim_none]
theorem dataMsg_child (next : s.DataNext m) (billet : (s.rxDrop m).billetSlot m.key.ctx m.key.billet = some b)
    (route : (s.rxDrop m).routeFor m.key.ctx b m.key.blk = some r) (child : r.childPos m.src = some i) :
    dataMsg s = (s.rxDrop m).dataFrom m b r i := by
  simp only [dataMsg_next next, billet, route, child, Option.elim_some]

theorem dataFrom_gone (gone : s.blockGone m b) :
    s.dataFrom m b r i = (if s.cooled m = true then s.lateAnswered m r else s.dupAnswered m r).advertised s m r i :=
  if_pos (by simpa [State.blockGone] using gone)
theorem dataFrom_marked (here : ¬ s.blockGone m b) (marked : i ∈ (s.openOf m.key.ctx b m.key.blk).marked) :
    s.dataFrom m b r i = (s.dupAnswered m r).advertised s m r i :=
  (if_neg (by simpa [State.blockGone] using here)).trans (if_pos (by simpa using marked))
theorem dataFrom_late (here : ¬ s.blockGone m b) (new : i ∉ (s.openOf m.key.ctx b m.key.blk).marked)
    (late : (s.openOf m.key.ctx b m.key.blk).released = true ∨ s.listed m.key.ctx m.key.billet m.key.blk m.src = true) :
    s.dataFrom m b r i = (s.lateAnswered m r).advertised s m r i :=
  (if_neg (by simpa [State.blockGone] using here)).trans ((if_neg (by simpa using new)).trans (if_pos (by simpa using late)))
theorem dataFrom_checked (here : ¬ s.blockGone m b) (new : i ∉ (s.openOf m.key.ctx b m.key.blk).marked)
    (awaited : (s.openOf m.key.ctx b m.key.blk).released = false)
    (unlisted : s.listed m.key.ctx m.key.billet m.key.blk m.src = false) : s.dataFrom m b r i = s.dataChecked m b r i :=
  (if_neg (by simpa [State.blockGone] using here)).trans
    ((if_neg (by simpa using new)).trans (if_neg (by simp [awaited, unlisted])))

theorem dataChecked_good {g : Grist} (good : s.checkBlock m.key.ctx b m.key.blk m.bytes = .inl g) :
    s.dataChecked m b r i = s.operand m r i g := by
  rw [State.dataChecked, good, Sum.elim_inl]
theorem dataChecked_bad {k : Nat} (bad : s.checkBlock m.key.ctx b m.key.blk m.bytes = .inr k) :
    s.dataChecked m b r i = s.integrity m.key.ctx k m.src := by
  rw [State.dataChecked, bad, Sum.elim_inr]

end

/-! ### Emission -/

/-- Block `n` of Billet `b` of an active context with a step open is complete in `o`, under a record `r` by which the package
receives it, and has not gone (06 R148). -/
structure State.EmitNext (s : State) (c b n : Nat) (r : Route) : Prop where
  routed : s.routeFor c b n = some r
  active : s.cActive c = true
  opened : (s.hx c).opened ≠ 0
  receives : s.receives r = true
  here : n ∉ s.emitted c b
  whole : s.isComplete r (s.openOf c b n) = true

/-- A block handed over goes to the nodes `ns`; after the last it leaves, else the rest wait (06 R149, R160). -/
def State.emitTodo (s : State) (r : Route) (o : Open) (ns : List Nat) : State :=
  if (s.sendTodo r o ns).2 = [] then (s.sendTodo r o ns).1.endEmit r o
  else (s.sendTodo r o ns).1.putOpen { o with todo := some (s.sendTodo r o ns).2 }

/-- A complete block that has not gone is handed over, unless it has been, and then sent on. -/
theorem blockEmit_next {s : State} {c b n : Nat} {r : Route} (next : s.EmitNext c b n r) :
    blockEmit c b n s =
      let v := if (s.openOf c b n).todo.isSome then s else s.startEmit r (s.openOf c b n)
      (v.openOf c b n).todo.elim v (v.emitTodo r (v.openOf c b n)) := by
  obtain ⟨routed, active, opened, receives, here, whole⟩ := next
  unfold blockEmit
  rw [routed]
  refine (if_neg (by simp [active, opened, receives, here, whole])).trans ?_
  dsimp only
  generalize (if (s.openOf c b n).todo.isSome then s else s.startEmit r (s.openOf c b n)) = v
  cases (v.openOf c b n).todo <;> rfl

section
variable {s v : State} {c b n : Nat} {r : Route} {ns : List Nat}

theorem blockEmit_goesOn (next : s.EmitNext c b n r) (handed : (s.openOf c b n).todo = some ns) :
    blockEmit c b n s = s.emitTodo r (s.openOf c b n) ns := by
  simp only [blockEmit_next next, handed, Option.isSome_some, if_true, Option.elim_some]
/-- Without room for its cooling entries the block is not handed over, and waits (09 R249). -/
theorem blockEmit_waits (next : s.EmitNext c b n r) (fresh : (s.openOf c b n).todo = none)
    (starts : s.startEmit r (s.openOf c b n) = v) (waits : (v.openOf c b n).todo = none) : blockEmit c b n s = v := by
  simp only [blockEmit_next next, fresh, Option.isSome_none, Bool.false_eq_true, if_false, starts, waits, Option.elim_none]
theorem blockEmit_handsOver (next : s.EmitNext c b n r) (fresh : (s.openOf c b n).todo = none)
    (starts : s.startEmit r (s.openOf c b n) = v) (handed : (v.openOf c b n).todo = some ns) :
    blockEmit c b n s = v.emitTodo r (v.openOf c b n) ns := by
  simp only [blockEmit_next next, fresh, Option.isSome_none, Bool.false_eq_true, if_false, starts, handed, Option.elim_some]

end

/-- Settles O44: DATA by the tests of a block of the open step, BLOCK_EMIT by whether the block has been handed over. -/
theorem receivedBlocksAndEmission : Obligations.ReceivedBlocksAndEmission := by
  intro s x bs bk m b i r ns u c n o d win closed e z
  refine ⟨fun running found runnable gen step => ?_, fun routed active opened receives here whole handed => ?_,
    fun routed active opened receives here whole fresh => ?_⟩
  · have next : s.DataNext m := ⟨running, found, runnable, gen, step⟩
    refine ⟨fun unknown => congrArg done (dataMsg_noBillet next unknown), fun billet route =>
      ⟨fun stranger => congrArg done (dataMsg_noChild next billet route stranger), fun child => ?_⟩⟩
    have tested : exec .data s = done (u.dataFrom m b r i) := congrArg done (dataMsg_child next billet route child)
    rw [tested]
    refine ⟨fun gone => congrArg done (dataFrom_gone gone),
      fun live kept marked => congrArg done (dataFrom_marked (not_or.2 ⟨live, kept⟩) marked),
      fun live kept new late => congrArg done (dataFrom_late (not_or.2 ⟨live, kept⟩) new late),
      fun live kept new awaited unlisted => ?_⟩
    have checked := dataFrom_checked (r := r) (not_or.2 ⟨live, kept⟩) new awaited unlisted
    exact ⟨fun g good => congrArg done (checked.trans (dataChecked_good good)),
      fun k bad => congrArg done (checked.trans (dataChecked_bad bad))⟩
  · have goes := blockEmit_goesOn ⟨routed, active, opened, receives, here, whole⟩ handed
    exact ⟨fun last => congrArg done (goes.trans (if_pos last)), fun more => congrArg done (goes.trans (if_neg more))⟩
  · have next : s.EmitNext x.toNat bs.toNat bk.toNat r := ⟨routed, active, opened, receives, here, whole⟩
    exact ⟨fun waits => congrArg done (blockEmit_waits next fresh rfl waits),
      fun handed => congrArg done (blockEmit_handsOver next fresh rfl handed)⟩

end Sys2Proof.Machine
end

section
/-! What the next entry of a queue does once it may start, what ends its local wait and what sends its poll again. -/
namespace Sys2Proof.Machine
open Sys2Proof

/-! ### Entries that start -/

/-- Entry `w` is next of its queue: it is posted, no skip span runs, and the queue's mode lets it start (10 R281, R282). -/
structure State.EntryNext (s : State) (q w : Nat) : Prop where
  posted : s.qPosted q = true
  noSpan : (s.qx q).skip = false
  word : s.entWord q (s.qx q).next = w
  may : s.qMay q (eOp w) = true

/-- A write that has started: ECC where its local read met an error, held where it is a FLAG write, else issued (10 R282). -/
def State.startWrite (s : State) (q : Nat) (ecc : Bool) (e : QEnt) : State :=
  if ecc = true then s.tngDone q e.pos 5
  else if e.w.testBit 9 = true then (s.mapEnt q e.pos fun y => { y with held := true }).flagOne q e.pos
  else s.tngIssue q e
/-- What a started entry does by its opcode (10 Table 10-8). -/
def State.startOp (s : State) (q : Nat) (ecc : Bool) (e : QEnt) : Nat → State
  | 0 => s.tngDone q e.pos 0
  | 1 => s.startWrite q ecc e
  | 3 => s
  | _ => s.tngIssue q e

section
variable {s : State} {q w op : Nat} {ecc : Bool}

/-- A bad entry completes BAD_ENTRY, whichever command starts it. -/
theorem queueStart_bad (next : s.EntryNext q w) (bad : s.badEntry q w = true) :
    queueStart q op ecc s = (s.qBegin q (s.qx q).next w).tngDone q (s.qx q).next 8 := by
  obtain ⟨posted, noSpan, rfl, may⟩ := next
  unfold queueStart
  simp [posted, noSpan, may, bad]

/-- A good entry does what its opcode says, a WRITE where it reads no footprint. -/
theorem queueStart_good (next : s.EntryNext q w) (good : s.badEntry q w = false) (isOp : eOp w = op)
    (clear : op = 1 → s.inFootprint (eLocal w) (eLen w) = false) :
    queueStart q op ecc s = (s.qBegin q (s.qx q).next w).startOp q ecc ⟨(s.qx q).next, w, none, none, none, false⟩ op := by
  obtain ⟨posted, noSpan, rfl, may⟩ := next
  rw [isOp] at may
  have reads : (op = 1 && s.inFootprint (eLocal (s.entWord q (s.qx q).next)) (eLen (s.entWord q (s.qx q).next))) = false := by
    by_cases isWrite : op = 1
    · rw [clear isWrite, Bool.and_false]
    · simp [isWrite]
  unfold queueStart
  simp only [posted, noSpan, isOp, may, good, reads, bne_self_eq_false, Bool.not_true, Bool.false_eq_true, if_false]
  match op with
  | 0 => rfl
  | 1 => simp [State.startOp, State.startWrite]
  | 2 => rfl
  | 3 => rfl
  | _ + 4 => simp [State.startOp]

end

/-! ### Waits and polls -/

/-- The local count that a started WAIT_LCNT waits on is compared with its VALUE (10 R282). -/
theorem waitLcntMet_waiting {s : State} {q : Nat} {e : QEnt}
    (waiting : (s.qx q).ents.find? (fun e => eOp e.w == 3 && e.status.isNone) = some e) :
    waitLcntMet q s = if s.eValue q e.w ≤ s.localCount q e.w then s.tngDone q e.pos 0 else s := by
  rw [waitLcntMet, waiting]
theorem queuePoll_due {s : State} {q : Nat} {e : QEnt} (due : (s.qx q).ents.find? (pollDue s.time.ktime) = some e) :
    queuePoll q s = s.tngIssue q e := by
  rw [queuePoll, due]

/-- Settles O50: a good entry by its opcode and a bad one under every command, then a wait by its count, and a poll. -/
theorem queueEntriesStart : Obligations.QueueEntriesStart := by
  intro s q ecc n x w e t
  refine ⟨fun posted noSpan may => ?_, fun y waiting => ?_, fun y due => congrArg done (queuePoll_due due)⟩
  · have next : s.EntryNext n w := ⟨posted, noSpan, rfl, may⟩
    refine ⟨fun good => ?_, fun bad i command => ?_⟩
    · have starts : ∀ {op : Nat} (ecc : Bool), eOp w = op → (op = 1 → s.inFootprint (eLocal w) (eLen w) = false) →
          queueStart n op ecc s = t.startOp n ecc e op := fun _ => queueStart_good next good
      exact ⟨fun nop => congrArg done (starts false nop nofun),
        fun write clear => congrArg done (starts ecc write fun _ => clear),
        fun read => congrArg done (starts false read nofun), fun wait => congrArg done (starts false wait nofun),
        fun wait => congrArg done (starts false wait nofun), fun check => congrArg done (starts false check nofun)⟩
    · rcases command with rfl | rfl | rfl | rfl | rfl | rfl <;> exact congrArg done (queueStart_bad next bad)
  · have compared := waitLcntMet_waiting waiting
    exact ⟨fun reached => congrArg done (compared.trans (if_pos reached)),
      fun below => congrArg done (compared.trans (if_neg (Nat.not_le.2 below)))⟩

end Sys2Proof.Machine
end

section
/-! What the target makes of a request that passes tests 1 and 2 of 10 Table 10-5, and what the done list holds of it. -/
namespace Sys2Proof.Machine
open Sys2Proof

/-! ### What a write to memory leaves of Tongs -/

/-- What Tongs holds, and its domain records, are as they were. -/
structure LeavesTongs (s t : State) : Prop where
  tng : t.tng = s.tng
  domR : t.domR = s.domR

theorem LeavesTongs.refl (s : State) : LeavesTongs s s := ⟨rfl, rfl⟩
theorem LeavesTongs.trans {s t u : State} (h : LeavesTongs s t) (k : LeavesTongs t u) : LeavesTongs s u :=
  ⟨k.tng.trans h.tng, k.domR.trans h.domR⟩
theorem LeavesTongs.ite {s t u : State} {p : Prop} [Decidable p] (h : LeavesTongs s t) (k : LeavesTongs s u) :
    LeavesTongs s (if p then t else u) := by split <;> assumption

theorem countEv_leavesTongs (s : State) (pg ev n : Nat) : LeavesTongs s (s.countEv pg ev n) := .ite ⟨rfl, rfl⟩ (.refl s)
theorem touch_leavesTongs (s : State) (c : Nat) : LeavesTongs s (s.touch c) := .ite ⟨rfl, rfl⟩ ⟨rfl, rfl⟩
theorem patched_leavesTongs (s : State) (cs : List Nat) (hits : Nat) : LeavesTongs s (s.patched cs hits) := by
  have touched : LeavesTongs s (cs.foldl State.touch s) :=
    List.foldlRecOn cs State.touch (.refl s) fun t kept c _ => kept.trans (touch_leavesTongs t c)
  exact .ite (.refl s) (touched.trans (countEv_leavesTongs ..))
theorem busWrite_leavesTongs (s : State) (a : Nat) (bs : Bytes) : LeavesTongs s (s.busWrite a bs) :=
  have landed : LeavesTongs s (s.land a bs) := ⟨rfl, rfl⟩
  landed.trans (patched_leavesTongs ..)
/-- What is written to memory of a list's entry changes nothing of the list itself (10 R278). -/
theorem listEntry_leavesTongs (s : State) (base size slot n : Nat) : LeavesTongs s (s.listEntry base size slot n) :=
  have drawn : LeavesTongs s { s with fresh := s.fresh + n / 8 } := ⟨rfl, rfl⟩
  drawn.trans (busWrite_leavesTongs ..)

/-! ### The done list -/

/-- The entry once its WRITE has been performed, where it is that of request `r`: the answer is stored (10 R278). -/
def DoneEnt.answered (r : Rx) (e : DoneEnt) : DoneEnt := if e.isOf r = true then { e with answer := some 0 } else e

/-- Storing an answer changes every entry of its request, and none where there is none; the domain records stay. -/
theorem setDone_leaves (s : State) (r : Rx) :
    (s.setDone r).tng.dones = s.tng.dones.map (DoneEnt.answered r) ∧ (s.setDone r).domR = s.domR := by
  unfold State.setDone
  split
  · next gone =>
    have other : ∀ e ∈ s.tng.dones, e.answered r = e := fun e held =>
      if_neg (Bool.eq_false_iff.1 (List.findIdx?_eq_none_iff.1 gone e held))
    exact ⟨((List.map_congr_left other).trans (List.map_id _)).symm, rfl⟩
  · next i _ =>
    have written : LeavesTongs s (s.doneEntry i) := listEntry_leavesTongs ..
    exact ⟨congrArg (fun t : Tng => t.dones.map (DoneEnt.answered r)) written.tng, written.domR⟩

/-- The arrival count that an ADV write names has advanced (10 R277). -/
def State.arrived (s : State) (adv : Option Nat) : State :=
  match adv with
  | none => s
  | some i => s.setArrival (i / 16) (i % 16) ((s.arrival (i / 16) (i % 16) + 1) % 2 ^ 48)

/-- Arrival counts are read from the domain records alone. -/
theorem arrival_congr {s t : State} (same : t.domR = s.domR) (d a : Nat) : t.arrival d a = s.arrival d a := by
  unfold State.arrival State.dw
  rw [same]

theorem tongsWriteDone_oldest {s : State} {p : Perf} {ps : List Perf} (oldest : s.tng.perf = p :: ps) :
    tongsWriteDone s =
      ((({ s with tng := { s.tng with perf := ps } } : State).setDone p.rx).arrived p.adv).ack p.rx 0 0 0 false false := by
  unfold tongsWriteDone
  rw [oldest]
  rfl

/-! ### Requests -/

/-- The oldest complete request of `top` is `r`; tests 1 and 2 pass it, with its plain payload (10 Table 10-5). -/
structure State.RequestNext (s : State) (top : Nat) (r : Rx) (u : State) (pt : Bytes) : Prop where
  found : s.tngRx top = some r
  taken : s.tngTake r = .inr (u, pt)

/-- Where in memory a request's OFF points: its domain's WBASE + OFF. -/
def State.reqAddr (s : State) (r : Rx) : Nat := s.dAddr (s.cPdom r.key.ctx) 0 + nfld r.spec 11 48
/-- A request's LEN. -/
def Rx.reqLen (r : Rx) : Nat := nfld r.spec 59 17

/-- A WRITE that stands in the done list is counted and gets its stored answer again; with none stored yet, none (10 R278). -/
def State.writeAgain (s : State) (r : Rx) (e : DoneEnt) : State :=
  match e.answer with
  | none => s.bump 0xC00080 1
  | some 0 => (s.bump 0xC00080 1).ack r 0 0 0 true false
  | some k => (s.bump 0xC00080 1).tngNak r k
/-- The arrival count that an ADV write advances, over all domains. -/
def State.reqAdv (s : State) (r : Rx) : Option Nat :=
  if r.spec.testBit 5 = true then some (16 * s.cPdom r.key.ctx + nfld r.spec 6 4) else none
/-- A WRITE is made, enters the done list, and waits for the fabric (10 R276). -/
def State.performWrite (s : State) (r : Rx) (pt : Bytes) : State :=
  let t := ((s.busWrite (s.reqAddr r) (pt.drop 8)).addDone r none).countEv 0xC00000 0x10 1
  { t with tng := { t.tng with perf := t.tng.perf ++ [⟨{ r with segs := [] }, s.reqAdv r, (s.reqAddr r, r.reqLen)⟩] } }
/-- A WRITE that needs a new entry: test 3, tests 4 to 7, then the footprints. -/
def State.writeNew (s : State) (r : Rx) (pt : Bytes) : State :=
  if 2 ^ s.regF 0xC0006C 0 5 ≤ s.tng.dones.length then (s.bump 0xC00088 1).err 0xC00000 11
  else if s.tngCode r pt ≠ 0 then (s.addDone r (some (s.tngCode r pt))).tngNak r (s.tngCode r pt)
  else if s.inFootprint (s.reqAddr r) r.reqLen = true then s.faultCtx r.key.ctx
  else s.performWrite r pt
/-- The SPEC of a READ's answer. -/
def State.readSpec (s : State) (r : Rx) : Nat := tngSpec 3 false (s.cEnc r.key.ctx) false 0 0 0 r.reqLen 0
/-- The payload of a READ's answer: in clear without encryption, none where the domain has no key to seal it (10 R272). -/
def State.readSealed (s : State) (r : Rx) : Option (Bytes × State) :=
  s.tngSeal r.key.ctx (s.readSpec r) (s.bytes (s.reqAddr r) r.reqLen)
/-- A READ: tests 4 to 7, the footprints and the poison of the read, then the answer. -/
def State.readOut (s : State) (poison : Bool) (r : Rx) (pt : Bytes) : State :=
  if s.tngCode r pt ≠ 0 then s.tngNak r (s.tngCode r pt)
  else if s.inFootprint (s.reqAddr r) r.reqLen = true then s.faultCtx r.key.ctx
  else if poison = true then s.tngNak r 5
  else
    match s.readSealed r with
    | none => s
    | some (bs, t) => (t.countEv 0xC00000 0x10 1).tngAnswer r (s.readSpec r) bs
/-- A CNT_READ: tests 4 to 7, then the count that CSEL selects. -/
def State.countOut (s : State) (r : Rx) (pt : Bytes) : State :=
  if s.tngCode r pt ≠ 0 then s.tngNak r (s.tngCode r pt)
  else (s.countEv 0xC00000 0x10 1).tngAnswer r (tngSpec 4 false false false 0 0
    (if r.spec.testBit 10 then s.arrival (s.cPdom r.key.ctx) (nfld r.spec 6 4) else s.cCmplCnt r.key.ctx) 0 0) []

section
variable {s u : State} {r : Rx} {pt : Bytes}

theorem tongsWrite_next (next : s.RequestNext 0 r u pt) :
    tongsWrite s = (u.tng.dones.find? fun e => e.isOf r).elim (u.writeNew r pt) (u.writeAgain r) := by
  obtain ⟨found, taken⟩ := next
  unfold tongsWrite
  rw [found]
  dsimp only
  rw [taken]
  dsimp only
  cases u.tng.dones.find? fun e => e.isOf r with
  | none =>
    simp only [bne_iff_ne]
    rfl
  | some e => rfl
theorem tongsWrite_again {e : DoneEnt} (next : s.RequestNext 0 r u pt)
    (held : u.tng.dones.find? (fun e => e.isOf r) = some e) : tongsWrite s = u.writeAgain r e := by
  rw [tongsWrite_next next, held, Option.elim_some]
theorem tongsWrite_new (next : s.RequestNext 0 r u pt) (new : u.tng.dones.find? (fun e => e.isOf r) = none) :
    tongsWrite s = u.writeNew r pt := by
  rw [tongsWrite_next next, new, Option.elim_none]

theorem writeNew_full (full : 2 ^ u.regF 0xC0006C 0 5 ≤ u.tng.dones.length) :
    u.writeNew r pt = (u.bump 0xC00088 1).err 0xC00000 11 := if_pos full
theorem writeNew_refused (room : u.tng.dones.length < 2 ^ u.regF 0xC0006C 0 5) (refused : u.tngCode r pt ≠ 0) :
    u.writeNew r pt = (u.addDone r (some (u.tngCode r pt))).tngNak r (u.tngCode r pt) :=
  (if_neg (Nat.not_le.2 room)).trans (if_pos refused)
theorem writeNew_performed (room : u.tng.dones.length < 2 ^ u.regF 0xC0006C 0 5) (passed : u.tngCode r pt = 0)
    (clear : u.inFootprint (u.reqAddr r) r.reqLen = false) : u.writeNew r pt = u.performWrite r pt :=
  (if_neg (Nat.not_le.2 room)).trans ((if_neg fun refused => refused passed).trans (if_neg (Bool.eq_false_iff.1 clear)))

theorem tongsRead_next (next : s.RequestNext 1 r u pt) (poison : Bool) : tongsRead poison s = u.readOut poison r pt := by
  obtain ⟨found, taken⟩ := next
  unfold tongsRead
  rw [found]
  dsimp only
  rw [taken]
  simp only [bne_iff_ne]
  rfl
theorem readOut_refused {poison : Bool} (refused : u.tngCode r pt ≠ 0) :
    u.readOut poison r pt = u.tngNak r (u.tngCode r pt) := if_pos refused
theorem readOut_poisoned (passed : u.tngCode r pt = 0) (clear : u.inFootprint (u.reqAddr r) r.reqLen = false) :
    u.readOut true r pt = u.tngNak r 5 := by
  simp [State.readOut, passed, clear]
theorem readOut_keyless (passed : u.tngCode r pt = 0) (clear : u.inFootprint (u.reqAddr r) r.reqLen = false)
    (keyless : u.readSealed r = none) : u.readOut false r pt = u := by
  simp [State.readOut, passed, clear, keyless]
theorem readOut_sealed {bs : Bytes} {v : State} (passed : u.tngCode r pt = 0)
    (clear : u.inFootprint (u.reqAddr r) r.reqLen = false) (sealed : u.readSealed r = some (bs, v)) :
    u.readOut false r pt = (v.countEv 0xC00000 0x10 1).tngAnswer r (u.readSpec r) bs := by
  simp [State.readOut, passed, clear, sealed]

theorem cntRead_next (next : s.RequestNext 2 r u pt) : cntRead s = u.countOut r pt := by
  obtain ⟨found, taken⟩ := next
  unfold cntRead
  rw [found]
  dsimp only
  rw [taken]
  simp only [State.countOut, bne_iff_ne]

end

/-- DONE_EXPIRY keeps exactly the entries that are not yet 32 ms old (10 R278). -/
theorem mem_doneExpiry (s : State) (e : DoneEnt) :
    e ∈ (doneExpiry s).tng.dones ↔ e ∈ s.tng.dones ∧ s.time.ktime < e.at_ + 32000 * usec :=
  List.mem_filter.trans (and_congr_right' decide_eq_true_iff)

/-- Settles O51: the three requests by the first test that decides, then the end of a WRITE, and the list's expiry. -/
theorem tongsTargetTests : Obligations.TongsTargetTests := by
  intro s u r pt poison c a len code put
  refine ⟨fun taken => ⟨fun found => ?_, fun found => ?_, fun found => ?_⟩, fun p ps oldest => ?_,
    doneExpiry s, rfl, rfl, mem_doneExpiry s⟩
  · have next : s.RequestNext 0 r u pt := ⟨found, taken⟩
    refine ⟨fun e held => (congrArg done (tongsWrite_again next held)).trans ?_, fun new => ?_⟩
    · unfold State.writeAgain
      rcases e.answer with _ | _ | _ <;> rfl
    · have runs : exec .tongsWrite s = done (u.writeNew r pt) := congrArg done (tongsWrite_new next new)
      exact ⟨fun full => runs.trans (congrArg done (writeNew_full full)),
        fun room => ⟨fun refused => runs.trans (congrArg done (writeNew_refused room refused)),
          fun passed clear => runs.trans (congrArg done (writeNew_performed room passed clear))⟩⟩
  · have runs : ∀ b, exec (.tongsRead b) s = done (u.readOut b r pt) := fun b =>
      congrArg done (tongsRead_next ⟨found, taken⟩ b)
    refine ⟨fun refused => (runs poison).trans (congrArg done (readOut_refused refused)), fun passed clear => ⟨?_, ?_⟩⟩
    · rintro rfl
      exact (runs true).trans (congrArg done (readOut_poisoned passed clear))
    · rintro rfl
      exact ⟨fun keyless => (runs false).trans (congrArg done (readOut_keyless passed clear keyless)),
        fun _ _ sealed => (runs false).trans (congrArg done (readOut_sealed passed clear sealed))⟩
  · have runs : exec .cntRead s = done (u.countOut r pt) := congrArg done (cntRead_next ⟨found, taken⟩)
    exact ⟨fun refused => runs.trans (congrArg done (if_pos refused)),
      fun passed => runs.trans (congrArg done (if_neg fun refused => refused passed))⟩
  · obtain ⟨dones, domR⟩ := setDone_leaves { s with tng := { s.tng with perf := ps } } p.rx
    refine ⟨(congrArg done (tongsWriteDone_oldest oldest)).trans ?_, dones, domR⟩
    unfold State.arrived
    simp only [arrival_congr domR]
    rfl

end Sys2Proof.Machine
end

section
/-! What an answer to a Tongs request does: it ends the request that it matches and completes its entry, or is stray. -/
namespace Sys2Proof.Machine
open Sys2Proof

/-- The oldest complete answer of `top` is `r`, and the held request that it matches, if any, is `held` (10 R274). -/
structure State.AnswerNext (s : State) (top : Nat) (r : Rx) (held : Option (Msg × Option QEnt)) : Prop where
  found : s.tngRx top = some r
  held : (s.rxDrop r).tngHeld r = held

/-- The answer has left the received messages and ended its request (10 R274, 09 R241). -/
def State.requestEnded (s : State) (r : Rx) (m : Msg) : State := (s.rxDrop r).answered m (nfld r.ce 0 20) 0
/-- A PUBCHK completes OK; the SKIP bit of the word that it read starts a skip span (10 R282). -/
def State.checkEnds (s : State) (q : Nat) (e : QEnt) (pt : Bytes) : State :=
  let t := s.setQx q { s.qx q with skip := (ofLe pt).testBit 48 }
  skipRun q (t.qRing q) (t.tngDone q e.pos 0)
/-- The data of a READ is written at LADDR, and the entry waits for the fabric (10 R282). -/
def State.readLands (s : State) (c q : Nat) (e : QEnt) (pt : Bytes) : State :=
  let t := (s.ctxWrite c (eLocal e.w) pt).mapEnt q e.pos fun y => { y with key := none }
  { t with tng := { t.tng with locals := t.tng.locals ++ [⟨q, e.pos, eLocal e.w, pt.length⟩] } }
/-- A wait has no request outstanding, and its next poll is due at a time (10 R282). -/
def State.pollLater (s : State) (q : Nat) (e : QEnt) (due : Nat) : State :=
  s.mapEnt q e.pos fun y => { y with key := none, pollAt := some due }

section
variable {s : State} {r : Rx} {m : Msg} {e : QEnt} {pt : Bytes}

/-! ### Answers to nothing -/

theorem rresp_stray (next : s.AnswerNext 3 r none) : rresp s = (s.rxDrop r).stray := by
  rw [rresp, next.found]
  dsimp only
  rw [next.held]
theorem cntResp_stray (next : s.AnswerNext 4 r none) : cntResp s = (s.rxDrop r).stray := by
  rw [cntResp, next.found]
  dsimp only
  rw [next.held]
theorem nakRx_stray (next : s.AnswerNext 5 r none) : nakRx s = (s.rxDrop r).stray := by
  rw [nakRx, next.found]
  dsimp only
  rw [next.held]

/-! ### Answers to a held request -/

/-- An RRESP with the length asked, opened to `pt`: a PUBCHK is over, a READ has its data. -/
theorem rresp_ends (next : s.AnswerNext 3 r (some (m, some e))) (isRead : nfld m.spec 0 3 = 1)
    (opened : (s.rxDrop r).tngOpen r.key.ctx r.spec r.bytes = some pt) (whole : pt.length = nfld m.spec 59 17)
    (asked : nfld r.spec 59 17 = nfld m.spec 59 17) (sealed : r.spec.testBit 4 = (s.rxDrop r).cEnc r.key.ctx) :
    rresp s = if eOp e.w = 5 then (s.requestEnded r m).checkEnds r.key.billet e pt
      else (s.requestEnded r m).readLands r.key.ctx r.key.billet e pt := by
  unfold rresp
  rw [next.found]
  dsimp only
  rw [next.held]
  refine (if_neg (by simp [isRead])).trans ?_
  rw [opened]
  exact if_neg (by simp [whole, asked, sealed])

/-- A CNT_RESP: the wait is over at VALUE, and polls again below it. -/
theorem cntResp_ends (next : s.AnswerNext 4 r (some (m, some e))) (isCount : nfld m.spec 0 3 = 2) :
    cntResp s = if (s.requestEnded r m).eValue r.key.billet e.w ≤ nfld r.spec 11 48 then
        (s.requestEnded r m).tngDone r.key.billet e.pos 0
      else (s.requestEnded r m).pollLater r.key.billet e (s.time.ktime + 2 * s.regN 0xC00060) := by
  unfold cntResp
  rw [next.found]
  dsimp only
  rw [next.held]
  exact if_neg (by simp [isCount])

theorem nakRx_ends (next : s.AnswerNext 5 r (some (m, some e))) :
    nakRx s = if nfld r.spec 76 4 = 0 ∨ 5 < nfld r.spec 76 4 then s.rxDrop r
      else (s.requestEnded r m).tngDone r.key.billet e.pos (nfld r.spec 76 4) := by
  unfold nakRx
  rw [next.found]
  dsimp only
  rw [next.held]
  simp only [Bool.or_eq_true, decide_eq_true_eq]
  rfl

end

theorem localWriteAck_oldest {s : State} {l : LocalW} {ls : List LocalW} (oldest : s.tng.locals = l :: ls) :
    localWriteAck s = ({ s with tng := { s.tng with locals := ls } } : State).tngDone l.queue l.pos 0 := by
  rw [localWriteAck, oldest]

/-- Settles O52: each answer without a held request, then with one, by what it says of its entry; then the end of a READ. -/
theorem tongsAnswersEndEntries : Obligations.TongsAnswersEndEntries := by
  intro s r m e pt u c q v code
  refine ⟨fun nobody => ⟨fun found => congrArg done (rresp_stray ⟨found, nobody⟩),
      fun found => congrArg done (cntResp_stray ⟨found, nobody⟩), fun found => congrArg done (nakRx_stray ⟨found, nobody⟩)⟩,
    fun held => ⟨fun found isRead opened whole asked sealed => ?_, fun found isCount => ?_, fun found => ?_⟩,
    fun l ls oldest => congrArg done (localWriteAck_oldest oldest)⟩
  · have ends := rresp_ends ⟨found, held⟩ isRead opened whole asked sealed
    exact ⟨fun check => congrArg done (ends.trans (if_pos check)), fun read => congrArg done (ends.trans (if_neg read))⟩
  · have ends := cntResp_ends ⟨found, held⟩ isCount
    exact ⟨fun reached => congrArg done (ends.trans (if_pos reached)),
      fun below => congrArg done (ends.trans (if_neg (Nat.not_le.2 below)))⟩
  · have ends := nakRx_ends ⟨found, held⟩
    exact ⟨fun named => congrArg done (ends.trans (if_neg (by omega))),
      fun reserved => congrArg done (ends.trans (if_pos reserved))⟩

end Sys2Proof.Machine
end

section
/-! What REFILL, CHANNEL_ADMIT and the client accesses of a Malt slice do: tokens, the request that is admitted, and how an
access is served or refused. -/
namespace Sys2Proof.Machine
open Sys2Proof

/-! ### REFILL -/

/-- Steps of a fold that leave a view alone but for one, which occurs once: the fold acts on the view as that step does. -/
theorem foldl_acts_once {σ ι β : Type} {f : σ → ι → σ} {view : σ → β} {i : ι} {xs : List ι} (s : σ) (mem : i ∈ xs)
    (once : xs.Nodup) (others : ∀ a j, j ≠ i → view (f a j) = view a)
    (own : ∀ a b, view a = view b → view (f a i) = view (f b i)) : view (xs.foldl f s) = view (f s i) := by
  have skip : ∀ (ws : List ι) (t : σ), i ∉ ws → view (ws.foldl f t) = view t := fun ws t absent =>
    List.foldlRecOn (motive := fun u => view u = view t) ws f rfl fun u same j hj =>
      (others u j fun e => absent (e ▸ hj)).trans same
  obtain ⟨ys, zs, rfl⟩ := List.append_of_mem mem
  obtain ⟨before, after⟩ : i ∉ ys ∧ i ∉ zs := by
    obtain ⟨-, hz, apart⟩ := List.nodup_append.1 once
    exact ⟨fun h => apart i h i List.mem_cons_self rfl, (List.nodup_cons.1 hz).1⟩
  calc view ((ys ++ i :: zs).foldl f s) = view (zs.foldl f (f (ys.foldl f s) i)) := by rw [List.foldl_append, List.foldl_cons]
    _ = view (f (ys.foldl f s) i) := skip zs _ after
    _ = view (f s i) := own _ _ (skip ys s before)

@[simp] theorem State.countEv_mlt (s : State) (pg ev n : Nat) : (s.countEv pg ev n).mlt = s.mlt :=
  (apply_ite State.mlt ..).trans (ite_self _)
@[simp] theorem State.countEv_out (s : State) (pg ev n : Nat) : (s.countEv pg ev n).out = s.out :=
  (apply_ite State.out ..).trans (ite_self _)

theorem State.tok_setTok (s : State) (i c k d : Nat) (v : Int) :
    (s.setTok i c v).tok k d = if 9 * k + d = 9 * i + c then v else s.tok k d := SMap.get_set ..

/-- What RATE, BURST and CEIL_B come from is as it was: the registers of the regulators and the partition records (11 R307). -/
structure LeavesRates (s t : State) : Prop where
  regN : ∀ k off, 0x60 ≤ off → off < 0x1000 → t.regN (mltReg k off) = s.regN (mltReg k off)
  partR : t.partR = s.partR

theorem LeavesRates.refl (s : State) : LeavesRates s s := ⟨fun _ _ _ _ => rfl, rfl⟩
theorem LeavesRates.trans {s t u : State} (h : LeavesRates s t) (k : LeavesRates t u) : LeavesRates s u :=
  ⟨fun i off lo hi => (k.regN i off lo hi).trans (h.regN i off lo hi), k.partR.trans h.partR⟩
theorem LeavesRates.chRate {s t : State} (h : LeavesRates s t) (k c : Nat) : t.chRate k c = s.chRate k c := by
  unfold State.chRate State.pEn State.pw
  rw [h.regN k 0x6C (by decide) (by decide), h.regN k 0x70 (by decide) (by decide), h.partR]
theorem LeavesRates.ceilB {s t : State} (h : LeavesRates s t) (k : Nat) : t.ceilB k = s.ceilB k := by
  unfold State.ceilB
  rw [h.regN k 0x60 (by decide) (by decide), h.regN k 0x64 (by decide) (by decide)]

theorem setTok_leavesRates (s : State) (i c : Nat) (v : Int) : LeavesRates s (s.setTok i c v) := ⟨fun _ _ _ _ => rfl, rfl⟩
/-- The event counter of a slice's page is no register of its regulator. -/
theorem countEv_leavesRates (s : State) (i ev n : Nat) : LeavesRates s (s.countEv (mltReg i 0) ev n) where
  regN k off lo hi := congrArg BitVec.toNat (reg_countEv _ _ _ _ _ (by unfold mltReg; omega))
  partR := (countEv_leavesCtx ..).partR

/-- REFILL of one channel: RATE tokens, up to BURST. -/
def State.refillCh (s : State) (i c : Nat) : State :=
  s.setTok i c (min ((s.chRate i c).2 : Int) (s.tok i c + (s.chRate i c).1))
/-- REFILL of the eight channels of a slice. -/
def State.refillChs (s : State) (i : Nat) : State := (List.range 8).foldl (fun s c => s.refillCh i c) s
/-- REFILL of the bucket of a slice: CEIL_B tokens, up to its depth. -/
def State.refillBucket (s : State) (i : Nat) : State :=
  s.setTok i 8 (min (s.regN (mltReg i 0x68) : Int) (s.tok i 8 + s.ceilB i))

theorem refillCh_leavesRates (s : State) (i c : Nat) : LeavesRates s (s.refillCh i c) := setTok_leavesRates ..
theorem refillBucket_leavesRates (s : State) (i : Nat) : LeavesRates s (s.refillBucket i) := setTok_leavesRates ..
theorem refillChs_leavesRates (s : State) (i : Nat) : LeavesRates s (s.refillChs i) :=
  List.foldlRecOn (motive := LeavesRates s) _ _ (.refl s) fun u same c _ => same.trans (refillCh_leavesRates u i c)

theorem State.tok_refillCh (s : State) (i c k d : Nat) : (s.refillCh i c).tok k d =
    if 9 * k + d = 9 * i + c then min ((s.chRate i c).2 : Int) (s.tok i c + (s.chRate i c).1) else s.tok k d :=
  State.tok_setTok ..

/-- REFILL of a slice is that of its channels and of its bucket; what it may count beside is no token (11 R308). -/
theorem refillOne_ends (s : State) (i : Nat) :
    (s.refillOne i).mlt = ((s.refillChs i).refillBucket i).mlt ∧ LeavesRates s (s.refillOne i) := by
  have rates := refillChs_leavesRates s i
  have filled : s.refillOne i =
      (let t := (s.refillChs i).refillBucket i
       if s.mlt.reqs.any (fun r => r.inst == i) || s.mlt.walks.any (fun x => x.inst == i) then t.countEv (mltReg i 0) 0x11 1
       else t) := by
    unfold State.refillBucket
    rw [rates.regN i 0x68 (by decide) (by decide), rates.ceilB]
    rfl
  have leaves := rates.trans (refillBucket_leavesRates (s.refillChs i) i)
  rw [filled]
  dsimp only
  split
  · exact ⟨State.countEv_mlt .., leaves.trans (countEv_leavesRates ..)⟩
  · exact ⟨rfl, leaves⟩

theorem tok_refillOne (s : State) (i k c : Nat) : (s.refillOne i).tok k c = ((s.refillChs i).refillBucket i).tok k c := by
  unfold State.tok
  rw [(refillOne_ends s i).1]

/-- The channels of a slice touch no other bucket. -/
theorem tok_refillChs_apart (s : State) {i k d : Nat} (apart : ∀ c < 8, 9 * k + d ≠ 9 * i + c) :
    (s.refillChs i).tok k d = s.tok k d :=
  List.foldlRecOn (motive := fun u : State => u.tok k d = s.tok k d) _ _ rfl fun _ same c hc =>
    ((State.tok_refillCh ..).trans (if_neg (apart c (List.mem_range.1 hc)))).trans same

theorem tok_refillOne_channel (s : State) (i : Nat) {c : Nat} (hc : c < 8) :
    (s.refillOne i).tok i c = min ((s.chRate i c).2 : Int) (s.tok i c + (s.chRate i c).1) := by
  have own : ((s.refillChs i).tok i c, (s.refillChs i).chRate i c) = ((s.refillCh i c).tok i c, (s.refillCh i c).chRate i c) :=
    foldl_acts_once (view := fun u : State => (u.tok i c, u.chRate i c)) s (List.mem_range.2 hc) List.nodup_range
      (fun a j hj => Prod.ext ((State.tok_refillCh ..).trans (if_neg (by omega))) ((refillCh_leavesRates a i j).chRate i c))
      (fun a b same => by
        obtain ⟨tok, rate⟩ := Prod.mk.inj same
        simp only [(refillCh_leavesRates _ i c).chRate, rate, State.tok_refillCh, tok])
  calc (s.refillOne i).tok i c = (s.refillChs i).tok i c := by
        rw [tok_refillOne, State.refillBucket, State.tok_setTok, if_neg (by omega)]
    _ = (s.refillCh i c).tok i c := congrArg Prod.fst own
    _ = _ := (State.tok_refillCh ..).trans (if_pos rfl)

theorem tok_refillOne_bucket (s : State) (i : Nat) :
    (s.refillOne i).tok i 8 = min (s.regN (mltReg i 0x68) : Int) (s.tok i 8 + s.ceilB i) := by
  have rates := refillChs_leavesRates s i
  rw [tok_refillOne, State.refillBucket, State.tok_setTok, if_pos rfl, rates.regN i 0x68 (by decide) (by decide), rates.ceilB,
    tok_refillChs_apart s (by omega)]

/-- REFILL of one slice leaves the tokens of the others. -/
theorem tok_refillOne_other (s : State) {i k c : Nat} (hi : i ≠ k) (hc : c ≤ 8) : (s.refillOne i).tok k c = s.tok k c := by
  rw [tok_refillOne, State.refillBucket, State.tok_setTok, if_neg (by omega), tok_refillChs_apart s (by omega)]

/-- What the slices but one leave alone, REFILL changes as that slice's own refill does. -/
theorem refill_acts_once {β : Type} (view : State → β) (s : State) {k : Nat} (hk : k < 16)
    (others : ∀ a j, j ≠ k → view (State.refillOne a j) = view a)
    (own : ∀ a b, view a = view b → view (a.refillOne k) = view (b.refillOne k)) : view (refill s) = view (s.refillOne k) :=
  foldl_acts_once (f := State.refillOne) (xs := List.range 16) s (List.mem_range.2 hk) List.nodup_range others own

/-- REFILL gives every channel RATE tokens up to BURST (11 R308). -/
theorem tok_refill_channel (s : State) {k c : Nat} (hk : k < 16) (hc : c < 8) :
    (refill s).tok k c = min ((s.chRate k c).2 : Int) (s.tok k c + (s.chRate k c).1) := by
  have once := refill_acts_once (fun u => (u.tok k c, u.chRate k c)) s hk
    (fun a j hj => Prod.ext (tok_refillOne_other a hj (by omega)) ((refillOne_ends a j).2.chRate k c))
    (fun a b same => by
      obtain ⟨tok, rate⟩ := Prod.mk.inj same
      simp only [(refillOne_ends _ k).2.chRate, tok_refillOne_channel _ k hc, tok, rate])
  exact (Prod.mk.inj once).1.trans (tok_refillOne_channel s k hc)

/-- REFILL gives the bucket of every slice CEIL_B tokens up to its depth (11 R308). -/
theorem tok_refill_bucket (s : State) {k : Nat} (hk : k < 16) :
    (refill s).tok k 8 = min (s.regN (mltReg k 0x68) : Int) (s.tok k 8 + s.ceilB k) := by
  have depth : ∀ (a : State) j, (a.refillOne j).regN (mltReg k 0x68) = a.regN (mltReg k 0x68) := fun a j =>
    (refillOne_ends a j).2.regN k 0x68 (by decide) (by decide)
  have once := refill_acts_once (fun u => (u.tok k 8, u.regN (mltReg k 0x68), u.ceilB k)) s hk
    (fun a j hj => by simp only [tok_refillOne_other a hj (Nat.le_refl 8), depth, (refillOne_ends a j).2.ceilB])
    (fun a b same => by
      simp only [Prod.mk.injEq] at same
      obtain ⟨tok, cap, ceil⟩ := same
      simp only [tok_refillOne_bucket, depth, (refillOne_ends _ k).2.ceilB, tok, cap, ceil])
  exact (Prod.mk.inj once).1.trans (tok_refillOne_bucket s k)

/-! ### CHANNEL_ADMIT -/

section
variable {s : State} {i : Nat}

theorem admitOne_req {r : MReq} (longest : (s.waits i).find? (fun w => s.admits i w.ch) = some (.req r)) :
    s.admitOne i = (s.chargeTok i r.ch r.bytes).perform r := by
  rw [State.admitOne, longest]

theorem admitOne_walk {x : MWalk} (longest : (s.waits i).find? (fun w => s.admits i w.ch) = some (.walk x)) :
    s.admitOne i = s.walkOne x := by
  rw [State.admitOne, longest]

theorem admitOne_none (nobody : (s.waits i).find? (fun w => s.admits i w.ch) = none) : s.admitOne i = s := by
  rw [State.admitOne, nobody]

end

/-- What follows the admission: whole entries are encoded, then the reads held back are tried again (11 R306). -/
def State.afterAdmit (s : State) (i : Nat) : State := (encodeWhole i s.mlt.ents s).retryHeld i

theorem channelAdmit_eq (i : Nat) (tun : Option Nat) (s : State) :
    channelAdmit i tun s = (((initOne i s).present i tun).admitOne i).afterAdmit i := rfl

/-- A channel 0 request that is performed drives the ready signal of the Tun port high (11 R308). -/
theorem perform_tun_out {r : MReq} (tun : r.kind = .tun) (s : State) : (s.perform r).out = .tunReady r.inst true :: s.out := by
  unfold State.perform
  rw [tun]
  exact congrArg (Output.tunReady r.inst true :: ·) (State.countEv_out ..)

/-! ### Client accesses -/

/-- A partition serves an access of `n` bytes at `a`: it is READY in an open slice, and the access is not empty and stays in its
logical range (11 R293, R297, R311). -/
structure State.Serves (s : State) (i p a n : Nat) : Prop where
  ready : s.pState i p = 2
  sliceOpen : s.sliceOpen i = true
  nonempty : n ≠ 0
  inside : a + n ≤ s.pAddr i p 1 + s.pAddr i p 3

section
variable {s : State} {i p a : Nat}

theorem clientRead_nowhere (nowhere : s.partAt i a = none) (n : Nat) (poison : Bool) :
    clientRead i a n poison s = s.emit (.client i a 1 []) := by
  rw [clientRead, nowhere]; rfl

/-- NOT_READY (11 R293). -/
theorem clientRead_closed (here : s.partAt i a = some p) (closed : s.pState i p ≠ 2 ∨ s.sliceOpen i = false) (n : Nat)
    (poison : Bool) : clientRead i a n poison s = (s.bumpPw i p 22 1).emit (.client i a 1 []) := by
  rw [clientRead, here]
  exact if_pos (by rcases closed with h | h <;> simp [h])

/-- One request for each logical block (11 R297, R303). -/
theorem clientRead_serves {n : Nat} (here : s.partAt i a = some p) (serves : s.Serves i p a n) (poison : Bool) :
    clientRead i a n poison s = (s.pieces i p a n).foldl (fun s x => s.readPiece i p poison x) s := by
  rw [clientRead, here]
  exact if_neg (by simp [serves.ready, serves.sliceOpen, serves.nonempty, serves.inside])

theorem clientWrite_nowhere (nowhere : s.partAt i a = none) (bs : Bytes) :
    clientWrite i a bs s = s.emit (.client i a 1 []) := by
  rw [clientWrite, nowhere]; rfl

/-- WR_REFUSED (11 R298). -/
theorem clientWrite_vr (here : s.partAt i a = some p) (vr : (s.mset i p).mode = 2) (bs : Bytes) :
    clientWrite i a bs s = (s.bumpPw i p 23 1).emit (.client i a 1 []) := by
  rw [clientWrite, here]
  exact if_pos vr

theorem clientWrite_closed (here : s.partAt i a = some p) (fixed : (s.mset i p).mode ≠ 2)
    (closed : s.pState i p ≠ 2 ∨ s.sliceOpen i = false) (bs : Bytes) :
    clientWrite i a bs s = (s.bumpPw i p 22 1).emit (.client i a 1 []) := by
  rw [clientWrite, here]
  refine (if_neg fixed).trans (if_pos ?_)
  rcases closed with h | h <;> simp [h]

/-- Every piece finds an entry for its block, and the write is answered (11 R298). -/
theorem clientWrite_serves {bs : Bytes} {t : State} (here : s.partAt i a = some p) (fixed : (s.mset i p).mode ≠ 2)
    (serves : s.Serves i p a bs.length) (written : writePieces i p bs a (s.pieces i p a bs.length) s = some t) :
    clientWrite i a bs s = t.emit (.client i a 0 []) := by
  rw [clientWrite, here]
  refine (if_neg fixed).trans ((if_neg ?_).trans ?_)
  · simp [serves.ready, serves.sliceOpen, mt List.length_eq_zero_iff.2 serves.nonempty, serves.inside]
  · rw [written]; rfl

end

/-- Settles O53: the tokens by REFILL's folds, an admission by what waits longest, and an access by the partition that holds
its address. -/
theorem maltClientsAndRegulator : Obligations.MaltClientsAndRegulator := by
  intro s t inst addr len poison data tun p n r x i a z waits after ends
  have admits : exec (.channelAdmit inst tun) s = done (after (z.admitOne i)) := congrArg done (channelAdmit_eq i tun s)
  refine ⟨⟨refill s, rfl, fun k c hk hc => ⟨tok_refill_channel s hk hc, tok_refill_bucket s hk⟩⟩, ?_, ?_,
    fun longest => admits.trans (congrArg (done ∘ after) (admitOne_req longest)),
    fun longest => admits.trans (congrArg (done ∘ after) (admitOne_walk longest)),
    fun nobody => admits.trans (congrArg (done ∘ after) (admitOne_none nobody)), fun isTun => perform_tun_out isTun s,
    fun nowhere => ⟨congrArg done (clientRead_nowhere nowhere ..), congrArg done (clientWrite_nowhere nowhere data)⟩,
    fun here => ⟨fun closed => congrArg done (clientRead_closed here closed ..), fun ready sliceOpen nonempty inside => ?_,
      fun vr => congrArg done (clientWrite_vr here vr data), fun fixed =>
        ⟨fun closed => congrArg done (clientWrite_closed here fixed closed data),
          fun ready sliceOpen nonempty inside written => ?_⟩⟩⟩
  · rintro rfl; rfl
  · rintro rfl; rfl
  · exact congrArg done (clientRead_serves here ⟨ready, sliceOpen, Nat.pos_iff_ne_zero.1 nonempty, inside⟩ poison)
  · exact congrArg done
      (clientWrite_serves here fixed ⟨ready, sliceOpen, mt List.length_eq_zero_iff.1 nonempty, inside⟩ written)

end Sys2Proof.Machine
end

section
/-! What INIT_DONE, PACK_PASS1_END and PACK_END do: a walk that has done its blocks ends, and its partition changes state. -/
namespace Sys2Proof.Machine
open Sys2Proof

section
variable {s : State} {i p : Nat} {x : MWalk}

/-- The walk found for a partition is of that partition. -/
theorem walkOf_spec (found : s.walkOf i p = some x) : x.inst = i ∧ x.part = p := by
  simpa using List.find?_some found

/-! ### INIT -/

theorem initDone_ends (found : s.walkOf i p = some x) (isInit : x.pass = 0) (placed : s.walking x = false)
    (drained : s.draining i p = false) : initDone i p s = (s.endWalk x.inst x.part).setPw i p 16 2 := by
  obtain ⟨rfl, rfl⟩ := walkOf_spec found
  rw [initDone, found]
  exact if_pos (by simp [isInit, placed, drained])

theorem initDone_waits (found : s.walkOf i p = some x) (busy : s.walking x = true ∨ s.draining i p = true) :
    initDone i p s = s := by
  rw [initDone, found]
  exact if_neg (by rcases busy with h | h <;> simp [h])

/-! ### The passes of a pack -/

/-- Pass 1 is over: pass 2 starts at the first block (11 R302). -/
def State.startPass2 (s : State) (x : MWalk) : State :=
  { s with mlt := { s.mlt with walks := s.mlt.walks.map fun z => if z == x then { x with pass := 2, next := 0 } else z } }

theorem packPass1End_indexed (found : s.mlt.walks.find? (fun y => y.inst == i && y.pass == 1) = some x)
    (indexed : s.walking x = false) :
    packPass1End i s = if s.pAddr i x.part 7 < 64 * x.off then s.packEnd x 2 else s.startPass2 x := by
  rw [packPass1End, found]
  exact if_neg (by simp [indexed])

theorem packEndCmd_draining (found : s.mlt.walks.find? (fun y => y.inst == i && y.pass == 2) = some x)
    (queued : s.draining i x.part = true) : packEndCmd i s = s := by
  rw [packEndCmd, found]
  exact if_pos (by simp [queued])

theorem packEndCmd_placed (found : s.mlt.walks.find? (fun y => y.inst == i && y.pass == 2) = some x)
    (placed : s.walking x = false) (drained : s.draining i x.part = false) :
    packEndCmd i s = s.packEnd x (if x.changed then 3 else 0) := by
  rw [packEndCmd, found]
  exact if_neg (by simp [placed, drained])

end

/-- Settles O54: each command by the walk that it finds, and by what that walk has still to do. -/
theorem initAndPacksEnd : Obligations.InitAndPacksEnd := by
  intro s inst part x i p rest ends
  refine ⟨fun found isInit placed drained => congrArg done (initDone_ends found isInit placed drained),
    fun found busy => congrArg done (initDone_waits found busy), fun found indexed => ?_, fun found placed =>
      ⟨fun queued => congrArg done (packEndCmd_draining found queued), fun drained same => ?_, fun drained changed => ?_⟩⟩
  · have pass1 := packPass1End_indexed found indexed
    exact ⟨fun full => congrArg done (pass1.trans (if_pos full)),
      fun fits => congrArg done (pass1.trans (if_neg (Nat.not_lt.2 fits)))⟩
  · have pass2 := packEndCmd_placed found placed drained
    rw [same] at pass2
    exact congrArg done pass2
  · have pass2 := packEndCmd_placed found placed drained
    rw [changed] at pass2
    exact congrArg done pass2

end Sys2Proof.Machine
end

section
/-! What MLT_PACK_GO and a write of a regulator register do: how a pack starts or ends BAD_ARG, and which values a regulator
takes. -/
namespace Sys2Proof.Machine
open Sys2Proof

/-! ### Writes to the pages of a slice -/

section
variable {i off : Nat}

theorem instOf_mltReg (hi : i < 16) (hoff : off < 0x10000) : instOf (mltReg i off) = i := by
  unfold instOf mltReg; omega
theorem inst0_mltReg (hi : i < 16) (hoff : off < 0x10000) : inst0 (mltReg i off) = 0xD00000 + off := by
  unfold inst0; rw [instOf_mltReg hi hoff]; unfold mltReg; omega
theorem pageOf_mltReg (i off : Nat) : pageOf (mltReg i off) = mltReg i (off / 4096 * 4096) := by
  unfold pageOf mltReg; omega
theorem offOf_mltReg (i off : Nat) : offOf (mltReg i off) = offOf off := by
  unfold offOf mltReg; omega

/-- Every slice has its two pages (16 R422). -/
theorem pageRow_mltReg (hi : i < 16) (hoff : off < 0x2000) : (pageRow (mltReg i off)).isSome = true := by
  have page : off / 4096 * 4096 = 0 ∨ off / 4096 * 4096 = 0x1000 := by omega
  obtain ⟨p, found, multi⟩ :
      ∃ p, pageRows.find? (fun p => p.base == 0xD00000 + off / 4096 * 4096) = some p ∧ p.multi = true := by
    rcases page with h | h <;> rw [h] <;> exact ⟨_, rfl, rfl⟩
  unfold pageRow
  rw [pageOf_mltReg, inst0_mltReg hi (by omega), found]
  simp [multi]

/-- No register in the body of a slice's page is protected (02 Table 2-4). -/
theorem isProtected_mltReg (s : State) (v : W32) (hi : i < 16) (hoff : off < 0x2000) (body : 0x40 ≤ offOf off) :
    s.isProtected (mltReg i off) v = false := by
  have notSet : offOf (mltReg i off) ≠ 0x1C := by rw [offOf_mltReg]; omega
  have elsewhere : mltReg i off ≠ 0x1040 ∧ mltReg i off ≠ 0xE01054 ∧ mltReg i off ≠ 0xC00048 := by unfold mltReg; omega
  simp [State.isProtected, notSet, elsewhere]

/-- An acknowledged write of a register in the body of a slice's page. -/
theorem kcpWrite_mltReg {s t : State} {v : W32} (up : s.hostUp = true) (hi : i < 16) (hoff : off < 0x2000) (word : off % 4 = 0)
    (body : 0x40 ≤ offOf off) (writes : (s.locked (mltReg i off)).bodyWrite (mltReg i off) v 0 = (t, true)) :
    kcpWrite (mltReg i off) v s = t.acked (mltReg i off) :=
  body_write up (by unfold mltReg; omega) (by unfold mltReg; omega) (pageRow_mltReg hi hoff) (by rwa [offOf_mltReg])
    (.inl (isProtected_mltReg s v hi hoff body)) writes

end

@[simp] theorem State.acked_mlt (s : State) (a : Nat) : (s.acked a).mlt = s.mlt := by
  unfold State.acked State.countPg
  split <;> simp
theorem acked_leavesCtx (s : State) (a : Nat) : LeavesCtx s (s.acked a) :=
  ((((setRegN_leavesCtx ..).trans (setRegN_leavesCtx ..)).trans (.ite (countEv_leavesCtx ..) (.refl _))).trans
    (emit_leavesCtx ..))

/-- Acknowledging MLT_PACK_GO changes no register in the body of MLT 1. -/
theorem regN_acked_packGo (s : State) (i : Nat) {off : Nat} (lo : 0x1040 ≤ off) (hi : off < 0x2000) :
    (s.acked (mltReg i 0x1058)).regN (mltReg i off) = s.regN (mltReg i off) :=
  congrArg BitVec.toNat (reg_acked _ _ _ (by unfold mltReg; omega) (by unfold mltReg; omega)
    (by rw [pageOf_mltReg]; unfold mltReg; omega))

/-! ### MLT_PACK_GO -/

/-- The arguments of a pack are bad: its partition is not an enabled VR partition, or its source is misplaced (11 R302). -/
def State.badPack (s : State) (i p src n : Nat) : Prop :=
  p = 0 ∨ s.pEn i p = false ∨ (s.mset i p).mode ≠ 2 ∨ src % 4096 ≠ 0 ∨ src < maltFix i 2
    ∨ maltFix i 2 + maltFix i 3 < src + n ∨ s.inFootprint src n = true

/-- A pack of partition `p` starts: pass 1 at block 0, its images placed after the index; the buffer forgets the partition, which
enters PACKING (11 R302). -/
def State.startPack (s : State) (i p : Nat) : State :=
  let t : State := { s with mlt := { s.mlt with
    walks := s.mlt.walks ++ [⟨i, p, 1, 0, s.indexLen i p / 64, false, s.mlt.order⟩]
    ents := s.mlt.ents.filter fun e => !(e.inst == i && e.part == p)
    lines := s.mlt.lines.filter fun l => !(l.1 == i && l.2.1 == p)
    order := s.mlt.order + 1 } }
  (t.setPw i p 16 3).packStat i 1 0 false

section
variable {s : State} {i : Nat} {v : W32}

/-- PACK_BUSY (11 R302). -/
theorem packGo_busy (running : (s.reg (mltReg i 0x1010)).getLsbD 1 = false)
    (packs : s.mlt.walks.any (fun x => x.inst == i && x.pass != 0) = true) :
    packGo i v s = s.err (mltReg i 0x1000) 13 :=
  (if_neg (Bool.eq_false_iff.1 running)).trans (if_pos packs)

/-- BAD_ARG (11 R302; log entry 88). -/
theorem packGo_bad (running : (s.reg (mltReg i 0x1010)).getLsbD 1 = false)
    (idle : s.mlt.walks.any (fun x => x.inst == i && x.pass != 0) = false)
    (bad : s.badPack i (fld v 0 3) (s.reg64 (mltReg i 0x1050)) (s.pAddr i (fld v 0 3) 3)) :
    packGo i v s = (if fld v 0 3 ≠ 0 ∧ s.pEn i (fld v 0 3) = true ∧ (s.mset i (fld v 0 3)).mode = 2 then
      s.setPw i (fld v 0 3) 16 4 else s).packStat i 4 0 true := by
  refine (if_neg (Bool.eq_false_iff.1 running)).trans ((if_neg (Bool.eq_false_iff.1 idle)).trans ((if_pos ?_).trans ?_))
  · simpa [State.badPack, or_assoc] using bad
  · simp [and_assoc]

theorem packGo_starts (running : (s.reg (mltReg i 0x1010)).getLsbD 1 = false)
    (idle : s.mlt.walks.any (fun x => x.inst == i && x.pass != 0) = false)
    (good : ¬ s.badPack i (fld v 0 3) (s.reg64 (mltReg i 0x1050)) (s.pAddr i (fld v 0 3) 3)) :
    packGo i v s = s.startPack i (fld v 0 3) := by
  refine (if_neg (Bool.eq_false_iff.1 running)).trans ((if_neg (Bool.eq_false_iff.1 idle)).trans (if_neg ?_))
  simpa [State.badPack, or_assoc] using good

end

/-- A pack that goes on is not copied to MLT_PACK_CMPL (16 R434). -/
theorem packStat_goesOn (s : State) (i result units : Nat) : s.packStat i result units false =
    (s.setRegN (mltReg i 0x105C) (result + units % 2 ^ 24 * 256)).setRegN (mltReg i 0x1060) (units / 2 ^ 24 % 256) := by
  unfold State.packStat
  exact if_neg (by simp)

/-- A pack that starts leaves its partition PACKING, pass 1 at block 0, MLT_PACK_STAT reading RUNNING, and memory (11 R302). -/
theorem startPack_leaves (s : State) (i p : Nat) : (s.startPack i p).pState i p = 3
    ∧ (s.startPack i p).mlt.walks = s.mlt.walks ++ [⟨i, p, 1, 0, s.indexLen i p / 64, false, s.mlt.order⟩]
    ∧ (s.startPack i p).regN (mltReg i 0x105C) = 1 ∧ (s.startPack i p).regN (mltReg i 0x1060) = 0
    ∧ (s.startPack i p).mem = s.mem := by
  have apart : mltReg i 0x105C ≠ mltReg i 0x1060 := by unfold mltReg; omega
  unfold State.startPack
  rw [packStat_goesOn]
  refine ⟨?_, rfl, ?_, ?_, rfl⟩
  · rw [State.pState, State.pw, State.setRegN_partR, State.setRegN_partR, ← State.pw, State.pw_setPw, if_pos rfl]
    decide
  · exact (regN_setRegN ..).trans ((if_neg apart).trans ((regN_setRegN ..).trans ((if_pos rfl).trans (by decide))))
  · exact (regN_setRegN ..).trans ((if_pos rfl).trans (by decide))

theorem exec_mltPackGo {s : State} (up : s.hostUp = true) (inst : BitVec 4) (v : W32) : exec (.mltPackGo inst v) s =
    .next ((packGo inst.toNat v (s.locked (mltReg inst.toNat 0x1058))).acked (mltReg inst.toNat 0x1058)) := by
  have acts : (s.locked (mltReg inst.toNat 0x1058)).bodyWrite (mltReg inst.toNat 0x1058) v 0 =
      (packGo inst.toNat v (s.locked (mltReg inst.toNat 0x1058)), true) := by
    unfold State.bodyWrite winOf
    simp only [inst0_mltReg inst.isLt (show 0x1058 < 0x10000 by decide), instOf_mltReg inst.isLt (show 0x1058 < 0x10000 by decide)]
  exact congrArg done (kcpWrite_mltReg up inst.isLt (by decide) (by decide) (by decide) acts)

/-! ### Regulator registers -/

/-- The registers of the regulator of a slice: MLT_CTRL_BW, MLT_CEIL, MLT_CAP_BURST, MLT_KX_RATE and MLT_KX_BURST. -/
def regulatorOffs : List Nat := [0x60, 0x64, 0x68, 0x6C, 0x70]
/-- Bits of the field of a regulator register (16 R433). -/
def regulatorBits (off : Nat) : Nat := match off with | 0x60 => 12 | 0x64 => 10 | 0x68 => 25 | 0x6C => 20 | _ => 24
/-- A regulator register takes a value: it is in range, and the reserved rates stay within the ceiling (11 R309). -/
def State.regulatorTakes (s : State) (i off f : Nat) : Bool :=
  match off with
  | 0x60 => decide (1 ≤ f ∧ s.rateSum i ≤ f * s.regN (mltReg i 0x64) / 10)
  | 0x64 => decide (1 ≤ f ∧ f ≤ 1000 ∧ s.rateSum i ≤ s.regN (mltReg i 0x60) * f / 10)
  | 0x68 => decide (4096 ≤ f ∧ f ≤ 2 ^ 24)
  | 0x6C => decide (f + s.partRates i ≤ s.ceilB i)
  | _ => decide (4096 ≤ f)

theorem regulatorReg_mltReg {a : Nat} (h : regulatorReg a = true) : ∃ off ∈ regulatorOffs, a = mltReg (instOf a) off := by
  have listed : inst0 a ∈ regulatorOffs.map (0xD00000 + ·) := by simpa [regulatorReg, regulatorOffs] using h
  obtain ⟨off, mem, e⟩ := List.mem_map.1 listed
  refine ⟨off, mem, ?_⟩
  unfold inst0 instOf at e
  unfold mltReg instOf
  omega

/-- A regulator register stores a value that it takes, and sets REG_BAD for any other (11 R309). -/
theorem maltRegWrite_eq (s : State) (i : Nat) {off : Nat} (h : off ∈ regulatorOffs) (v : W32) : maltRegWrite i off v s =
    if s.regulatorTakes i off (v.toNat % 2 ^ regulatorBits off) then
      s.setRegN (mltReg i off) (v.toNat % 2 ^ regulatorBits off)
    else s.err (mltReg i 0) 8 := by
  simp only [regulatorOffs, List.mem_cons, List.not_mem_nil, or_false] at h
  rcases h with rfl | rfl | rfl | rfl | rfl <;> rfl

theorem offOf_regulator (i : Nat) {off : Nat} (h : off ∈ regulatorOffs) : offOf (mltReg i off) = off :=
  (offOf_mltReg i off).trans ((by decide : ∀ o ∈ regulatorOffs, offOf o = o) off h)

/-- No window and no other register that acts lies at a regulator's address. -/
theorem bodyWrite_regulator (s : State) {i off : Nat} (hi : i < 16) (h : off ∈ regulatorOffs) (v : W32) :
    s.bodyWrite (mltReg i off) v 0 = (maltRegWrite i off v s, true) := by
  have notStage : ¬ mltReg i off < 0x001080 := by unfold mltReg; omega
  have range : 0x60 ≤ off ∧ off < 0x74 := (by decide : ∀ o ∈ regulatorOffs, 0x60 ≤ o ∧ o < 0x74) off h
  have place : inst0 (mltReg i off) = 0xD00000 + off := inst0_mltReg hi (by omega)
  have noWindow : winOf (mltReg i off) = none := by
    unfold winOf
    dsimp only
    split <;> try omega
    rfl
  unfold State.bodyWrite
  rw [noWindow, offOf_regulator i h, instOf_mltReg hi (by omega)]
  dsimp only
  split <;> try omega
  rw [if_neg (by simp [notStage]), if_pos (by rw [place, Bool.and_eq_true, decide_eq_true_eq, decide_eq_true_eq]; omega)]

theorem exec_regulatorWrite {s : State} (up : s.hostUp = true) {a : Addr} {off : Nat} (ha : a.toNat = mltReg (instOf a.toNat) off)
    (h : off ∈ regulatorOffs) (v : W32) : exec (.regulatorWrite a v) s =
      .next ((maltRegWrite (instOf a.toNat) off v (s.locked a.toNat)).acked a.toNat) := by
  have hi : instOf a.toNat < 16 := Nat.mod_lt _ (by decide)
  have inBody : off < 0x2000 ∧ off % 4 = 0 ∧ 0x40 ≤ offOf off :=
    (by decide : ∀ o ∈ regulatorOffs, o < 0x2000 ∧ o % 4 = 0 ∧ 0x40 ≤ offOf o) off h
  obtain ⟨small, word, body⟩ := inBody
  have writes := kcpWrite_mltReg up hi small word body (bodyWrite_regulator _ hi h v)
  rw [← ha] at writes
  exact congrArg done writes

/-- Settles O21: a pack by the order of MLT_PACK_GO's tests, and a regulator register by the one lemma of its five. -/
theorem maltPackAndRegulators : Obligations.MaltPackAndRegulators := by
  intro s inst v up i m u p src n arg
  have goes : exec (.mltPackGo inst v) s = .next ((packGo i v u).acked m) := exec_mltPackGo up inst v
  refine ⟨fun running => ⟨fun packs => ?_, fun idle bad => ?_, fun idle good => ?_⟩, fun a listed _ ofInst => ?_⟩
  · exact goes.trans (congrArg (fun t : State => done (t.acked m)) (packGo_busy running packs))
  · exact goes.trans (congrArg (fun t : State => done (t.acked m)) (packGo_bad running idle bad))
  · have starts : packGo i v u = u.startPack i p := packGo_starts running idle good
    rw [starts] at goes
    obtain ⟨packing, walks, low, high, mem⟩ := startPack_leaves u i p
    have kept := acked_leavesCtx (u.startPack i p) m
    refine ⟨_, goes, ?_, (congrArg Mlt.walks (State.acked_mlt ..)).trans walks, ?_, ?_, kept.mem.trans mem⟩
    · exact (congrArg (fld · 0 3) (kept.pw i p 16)).trans packing
    · exact (regN_acked_packGo _ i (by decide) (by decide)).trans low
    · exact (regN_acked_packGo _ i (by decide) (by decide)).trans high
  · obtain ⟨off, mem, place⟩ := regulatorReg_mltReg listed
    have writes := exec_regulatorWrite up place mem v
    rw [maltRegWrite_eq _ _ mem, ofInst] at writes
    rw [ofInst] at place
    have offset : offOf a.toNat = off := (congrArg offOf place).trans (offOf_regulator i mem)
    rw [← place, ← offset] at writes
    exact writes

end Sys2Proof.Machine
end

section
/-! What a write of a command register of Guard does: GRD_PARK_CMD parks and wakes, GRD_VERDICT_FORCE forces a verdict, and
GRD_CTRL starts and stops heartbeats. -/
namespace Sys2Proof.Machine
open Sys2Proof

/-! ### Writes to the pages of Guard -/

theorem exec_parkCmd {s : State} {i : Instr} {v : W32} (up : s.hostUp = true) (free : s.quiescing 0xE01000 = false)
    (runs : exec i s = done (kcpWrite 0xE0106C v s)) :
    exec i s = .next ((parkCmd v (s.locked 0xE01000)).acked 0xE0106C) := by
  have acts : (s.locked 0xE0106C).bodyWrite 0xE0106C v 0 = (parkCmd v (s.locked 0xE01000), true) :=
    congrArg (·, true) (if_neg (Bool.eq_false_iff.1 free))
  exact runs.trans (congrArg done (body_write up (by decide) (by decide) (by decide) (by decide) (.inl rfl) acts))

theorem exec_grdVerdictForce {s : State} (up : s.hostUp = true) (opened : s.ctl.unlock.get (fun _ => false) 0xE01000 = true)
    (free : s.quiescing 0xE01000 = false) (v : W32) :
    exec (.grdVerdictForce v) s = .next ((verdictForce v (s.locked 0xE01000)).acked 0xE01054) := by
  have acts : (s.locked 0xE01054).bodyWrite 0xE01054 v 0 = (verdictForce v (s.locked 0xE01000), true) :=
    congrArg (·, true) (if_neg (Bool.eq_false_iff.1 free))
  exact congrArg done (body_write (n := 0xE01054) up (by decide) (by decide) (by decide) (by decide) (.inr opened) acts)

theorem exec_hbEn {s : State} (up : s.hostUp = true) (v : W32) :
    exec (.hbEn v) s = .next ((gctrlWrite v (s.locked 0xE00000)).acked 0xE00040) :=
  congrArg done (body_write (t := gctrlWrite v (s.locked 0xE00000)) up (by decide) (by decide) (by decide) (by decide)
    (.inl rfl) rfl)

/-! ### Parks and wakes -/

/-- The step after which GRD_PARK_STEP asks to park (12 R353). -/
def State.parkStep (s : State) : Nat := s.reg64 0xE01070 % 2 ^ 48
/-- The PSEQ that the next park or RESUME of a context takes at its root (log entry 63). -/
def State.nextPseq (s : State) (c : Nat) : Nat := (max (s.gx c).given (s.gx c).pseq + 1) % 2 ^ 32
/-- No park of a context is asked for or agreed, and the step of GRD_PARK_STEP is still to be decided (12 R353). -/
structure State.ParkNext (s : State) (c : Nat) : Prop where
  unasked : (s.gx c).asked = none
  unagreed : (s.gx c).agreed = false
  ahead : s.cStep c ≤ s.parkStep
  unheld : (s.verdictOf c s.parkStep).isSome = false
  unsent : ∀ d ∈ (s.gx c).vlog ++ (s.gx c).decided.toList, d.step ≠ s.parkStep

section
variable {s : State} {v : W32} {c : Nat} (names : fld v 0 12 = c) (root : s.atRoot c = true)
include names root

/-- A PARK is accepted and pends (12 R353). -/
theorem parkCmd_parks (park : bit v 12 = false) (next : s.ParkNext c) :
    parkCmd v s = (s.setGx c { s.gx c with asked := some (s.parkStep, s.nextPseq c) }).parkStat 8 (s.nextPseq c) := by
  subst names
  obtain ⟨unasked, unagreed, ahead, unheld, unsent⟩ := next
  have unlogged : (s.gx (fld v 0 12)).vlog.any (fun d => d.step == s.parkStep) = false :=
    List.any_eq_false.2 fun d held => by simpa using unsent d (List.mem_append_left _ held)
  have undecided : (match (s.gx (fld v 0 12)).decided with | some d => d.step == s.parkStep | none => false) = false := by
    cases waiting : (s.gx (fld v 0 12)).decided with
    | none => rfl
    | some d => exact beq_false_of_ne (unsent d (List.mem_append_right _ (by simp [waiting])))
  refine (if_neg (by simp [root, park, unasked, unagreed])).trans ((if_pos (by simp [park])).trans (if_neg ?_))
  simp only [Bool.or_eq_true, decide_eq_true_eq, not_or]
  exact ⟨Nat.not_lt.2 ahead, ⟨Bool.eq_false_iff.1 undecided, Bool.eq_false_iff.1 unheld⟩, Bool.eq_false_iff.1 unlogged⟩

/-- A WAKE of a park that pends withdraws it (12 R353). -/
theorem parkCmd_cancels {k p : Nat} (wake : bit v 12 = true) (pends : (s.gx c).asked = some (k, p)) :
    parkCmd v s = (s.setGx c { s.gx c with asked := none }).parkStat 1 p := by
  subst names
  refine (if_neg (by simp [root, wake])).trans ((if_neg (by simp [wake])).trans ?_)
  rw [pends]

/-- A WAKE of a park that was agreed sends its RESUME (12 R353). -/
theorem parkCmd_resumes (wake : bit v 12 = true) (unasked : (s.gx c).asked = none) (agreed : (s.gx c).agreed = true) :
    parkCmd v s = (s.rootResume c (s.reg64 0xE01078) []).parkStat 0 (s.nextPseq c) := by
  subst names
  refine (if_neg (by simp [root, wake])).trans ((if_neg (by simp [wake])).trans ?_)
  rw [unasked]
  exact if_pos agreed

end

/-- Settles O22: GRD_PARK_CMD's three ways to go on. -/
theorem parkAndWake : Obligations.ParkAndWake := by
  intro s v k p up free root c g u step next
  have acts : ∀ {i t}, exec i s = done (kcpWrite 0xE0106C v s) → parkCmd v u = t → exec i s = .next (t.acked 0xE0106C) :=
    fun runs gives => (exec_parkCmd up free runs).trans (congrArg (fun t : State => done (t.acked 0xE0106C)) gives)
  exact ⟨fun park unasked unagreed ahead unheld unsent =>
      acts rfl (parkCmd_parks (s := u) rfl root park ⟨unasked, unagreed, ahead, unheld, unsent⟩),
    fun wake pends => acts rfl (parkCmd_cancels (s := u) rfl root wake pends),
    fun wake unasked agreed => acts rfl (parkCmd_resumes (s := u) rfl root wake unasked agreed)⟩

/-! ### Forced verdicts -/

section
variable {s : State} {v : W32}

/-- VERDICT_LOST is clear: CMD_BAD (16 R437). -/
theorem verdictForce_unlost (found : (s.regN 0xE01018).testBit 9 = false) : verdictForce v s = s.err 0xE01000 13 :=
  if_pos (by simp [found])

/-- A verdict forced on a context that waits without one is a VDOWN without tables (12 R330). -/
theorem verdictForce_taken {c : Nat} (names : fld v 0 12 = c) (lost : (s.regN 0xE01018).testBit 9 = true)
    (active : s.cActive c = true) (opened : (s.hx c).opened ≠ 0) (waits : s.noVerdict c = true) (legal : fld v 16 2 ≠ 3) :
    verdictForce v s = s.takeVd c ⟨s.cStep c, fld v 16 2, b2n (bit v 18), 0, manDig [], 0, [], [], [], [], none, 0⟩ := by
  subst names
  exact if_neg (by simp [lost, active, opened, waits, legal])

/-! ### GRD_CTRL -/

theorem gctrlWrite_stops (off : bit v 0 = false) : gctrlWrite v s =
    { s.setReg 0xE00040 (v &&& 3) with grd := { (s.setReg 0xE00040 (v &&& 3)).grd with periodAt := none } } :=
  (if_neg (by simp [off])).trans (if_neg (by simp [off]))
theorem gctrlWrite_goesOn (on : bit v 0 = true) (beats : s.hbEn = true) : gctrlWrite v s = s.setReg 0xE00040 (v &&& 3) :=
  (if_neg (by simp [beats])).trans (if_pos on)

/-- A write of GRD_CTRL starts heartbeats: its two bits are stored, and the 40 ms of every watch entry start again (12 R315). -/
def State.beatsStarted (s : State) (v : W32) : State :=
  (List.range 8).foldl (fun s i => s.watchStart i) (s.setReg 0xE00040 (v &&& 3))

/-- Starting the watch of an entry writes no register. -/
theorem beatsStarted_regs (s : State) (v : W32) : (s.beatsStarted v).regs = (s.setReg 0xE00040 (v &&& 3)).regs :=
  List.foldlRecOn (motive := fun t : State => t.regs = (s.setReg 0xE00040 (v &&& 3)).regs) _ _ rfl fun _ kept _ _ => kept
theorem beatsStarted_role (s : State) (v : W32) : (s.beatsStarted v).regN 0xE0004C = s.regN 0xE0004C := by
  unfold State.regN State.reg
  rw [beatsStarted_regs]
  exact congrArg BitVec.toNat ((State.reg_setReg ..).trans (if_neg (by decide)))

theorem gctrlWrite_spare (on : bit v 0 = true) (rests : s.hbEn = false) (spare : s.regN 0xE0004C = 1) :
    gctrlWrite v s = s.beatsStarted v :=
  (if_pos (by simp [on, rests])).trans (if_pos ((beatsStarted_role s v).trans spare))
/-- A package that is no spare joins its jobs (12 R348). -/
theorem gctrlWrite_joins (on : bit v 0 = true) (rests : s.hbEn = false) (member : s.regN 0xE0004C ≠ 1) :
    gctrlWrite v s = (((s.beatsStarted v).jobCtxs.map (s.beatsStarted v).rootId).eraseDups).foldl (fun s n =>
      if n = s.node then s.join n else s.guardSend n 0 0 0 0 11 0 0 []) (s.beatsStarted v) :=
  (if_pos (by simp [on, rests])).trans (if_neg fun spare => member ((beatsStarted_role s v).symm.trans spare))

end

/-- Settles O23: GRD_VERDICT_FORCE by VERDICT_LOST, GRD_CTRL by its bit 0, by HB_EN before, and by the package's role. -/
theorem verdictForceAndHeartbeatEnable : Obligations.VerdictForceAndHeartbeatEnable := by
  intro s v up c u w x
  have forces : ∀ {t}, s.ctl.unlock.get (fun _ => false) 0xE01000 = true → s.quiescing 0xE01000 = false →
      verdictForce v u = t → exec (.grdVerdictForce v) s = .next (t.acked 0xE01054) :=
    fun opened free gives => (exec_grdVerdictForce up opened free v).trans
      (congrArg (fun t : State => done (t.acked 0xE01054)) gives)
  have writes : ∀ {t}, gctrlWrite v (s.locked 0xE00000) = t → exec (.hbEn v) s = .next (t.acked 0xE00040) :=
    fun gives => (exec_hbEn up v).trans (congrArg (fun t : State => done (t.acked 0xE00040)) gives)
  exact ⟨fun opened free => ⟨fun lost active stepOpen waits legal =>
        forces opened free (verdictForce_taken (s := u) rfl lost active stepOpen waits legal),
      fun found => forces opened free (verdictForce_unlost (s := u) found)⟩,
    fun off => writes (gctrlWrite_stops off),
    fun on beats => writes (gctrlWrite_goesOn (s := s.locked 0xE00000) on beats),
    fun on rests spare => writes (gctrlWrite_spare (s := s.locked 0xE00000) on rests spare),
    fun on rests member => writes (gctrlWrite_joins (s := s.locked 0xE00000) on rests member)⟩

end Sys2Proof.Machine
end

section
/-! What becomes of the oldest complete message of a Guard operation: dropped, only acknowledged, answered DUP, kept as a part, or
handed on. -/
namespace Sys2Proof.Machine
open Sys2Proof

/-- The oldest complete message of Guard operation `gop` is `r` (12 R318). -/
def State.GuardFound (s : State) (gop : Nat) (r : Rx) : Prop :=
  s.rxFind (fun r => r.key.kind == 3 && r.gop == gop) = some r
/-- The test of its context that a Guard message meets in place of test 5; a job operation has none (12 R318). -/
def State.guardFits (s : State) (gop : Nat) (r : Rx) : Prop :=
  jobOp gop = true ∨ (s.rxDrop r).guardCtxOk r.key.ctx r.key.gen = true
/-- The oldest complete message of operation `gop` is `r`, in its context, at a package that is not fenced; with it the payload
`bs` is whole, and `t` is the state in which it has been acknowledged (12 R317 to R319). -/
structure State.GuardTaken (s : State) (gop : Nat) (r : Rx) (bs : Bytes) (t : State) : Prop where
  found : s.GuardFound gop r
  fits : s.guardFits gop r
  alive : (s.rxDrop r).grd.fenced = false
  whole : ((s.rxDrop r).ack r 0 0 0 false false).guardPart r = (some bs, t)

section
variable {s t : State} {gop : Nat} {r : Rx} {had : Rx → Bool} {act : Rx → Bytes → State → State} {bs : Bytes}

theorem not_foreign (fits : s.guardFits gop r) :
    ¬ (!jobOp gop && !(s.rxDrop r).guardCtxOk r.key.ctx r.key.gen) = true := by
  rcases fits with job | ok
  · simp [job]
  · simp [ok]

theorem guardRx_foreign (found : s.GuardFound gop r) (ctxOp : jobOp gop = false)
    (bad : (s.rxDrop r).guardCtxOk r.key.ctx r.key.gen = false) : s.guardRx gop had act = (s.rxDrop r).bump 0xB02054 1 := by
  unfold State.guardRx
  rw [found]
  exact if_pos (by simp [ctxOp, bad])
theorem guardRx_fenced (found : s.GuardFound gop r) (fits : s.guardFits gop r) (fenced : (s.rxDrop r).grd.fenced = true) :
    s.guardRx gop had act = (s.rxDrop r).ack r 0 0 0 false false := by
  unfold State.guardRx
  rw [found]
  exact (if_neg (not_foreign fits)).trans (if_pos fenced)
theorem guardRx_copy (found : s.GuardFound gop r) (fits : s.guardFits gop r) (alive : (s.rxDrop r).grd.fenced = false)
    (copy : had r = true) : s.guardRx gop had act = ((s.rxDrop r).ack r 0 0 0 true false).bump 0xB0205C 1 := by
  unfold State.guardRx
  rw [found]
  exact (if_neg (not_foreign fits)).trans ((if_neg (Bool.eq_false_iff.1 alive)).trans (if_pos copy))
theorem guardRx_waits (found : s.GuardFound gop r) (fits : s.guardFits gop r) (alive : (s.rxDrop r).grd.fenced = false)
    (new : had r = false) (part : ((s.rxDrop r).ack r 0 0 0 false false).guardPart r = (none, t)) :
    s.guardRx gop had act = t := by
  unfold State.guardRx
  rw [found]
  refine (if_neg (not_foreign fits)).trans ((if_neg (Bool.eq_false_iff.1 alive)).trans
    ((if_neg (Bool.eq_false_iff.1 new)).trans ?_))
  rw [part]
/-- A whole new message is handed on. -/
theorem guardRx_taken (taken : s.GuardTaken gop r bs t) (new : had r = false) : s.guardRx gop had act = act r bs t := by
  obtain ⟨found, fits, alive, whole⟩ := taken
  unfold State.guardRx
  rw [found]
  refine (if_neg (not_foreign fits)).trans ((if_neg (Bool.eq_false_iff.1 alive)).trans
    ((if_neg (Bool.eq_false_iff.1 new)).trans ?_))
  rw [whole]

/-- What a command that receives a Guard message does, up to handing its payload on (12 R317 to R319). -/
theorem exec_guardRx {i : Instr} {copy : Bool} (runs : exec i s = done (s.guardRx gop had act)) (tells : had r = copy)
    (found : s.GuardFound gop r) :
    (jobOp gop = false → (s.rxDrop r).guardCtxOk r.key.ctx r.key.gen = false →
      exec i s = .next ((s.rxDrop r).bump 0xB02054 1))
    ∧ (s.guardFits gop r →
      ((s.rxDrop r).grd.fenced = true → exec i s = .next ((s.rxDrop r).ack r 0 0 0 false false))
      ∧ ((s.rxDrop r).grd.fenced = false →
        (copy = true → exec i s = .next (((s.rxDrop r).ack r 0 0 0 true false).bump 0xB0205C 1))
        ∧ (copy = false → ((s.rxDrop r).ack r 0 0 0 false false).guardPart r = (none, t) → exec i s = .next t))) :=
  have gives : ∀ {u}, s.guardRx gop had act = u → exec i s = .next u := fun e => runs.trans (congrArg done e)
  ⟨fun ctxOp bad => gives (guardRx_foreign found ctxOp bad), fun fits =>
    ⟨fun fenced => gives (guardRx_fenced found fits fenced), fun alive =>
      ⟨fun copied => gives (guardRx_copy found fits alive (tells.trans copied)),
        fun new part => gives (guardRx_waits found fits alive (tells.trans new) part)⟩⟩⟩

end

/-- Settles O55: each of the twelve operations receives its messages alike. -/
theorem guardMessagesAreTakenOnce : Obligations.GuardMessagesAreTakenOnce := by
  intro s t r u c g took
  exact ⟨exec_guardRx rfl rfl, exec_guardRx rfl rfl, exec_guardRx rfl rfl, exec_guardRx rfl rfl, exec_guardRx rfl rfl,
    exec_guardRx rfl rfl, exec_guardRx rfl rfl, exec_guardRx rfl rfl, exec_guardRx rfl rfl, exec_guardRx rfl rfl,
    exec_guardRx rfl rfl, exec_guardRx rfl rfl⟩

end Sys2Proof.Machine
end

section
/-! What the messages of a verdict do: the VUP that a package sends and those that it keeps, the VDOWN that it holds, the VQUERY
that it sends and answers, and the signatures of its peer. -/
namespace Sys2Proof.Machine
open Sys2Proof

/-! ### VUP -/

section
variable {s t : State} {c : Nat}

/-- The conditions under which a package has done its part of the open step and sends its VUP (12 R320). -/
structure State.VupNext (s : State) (c : Nat) : Prop where
  active : s.cActive c = true
  opened : (s.hx c).opened ≠ 0
  unsent : (s.gx c).sent = false
  undecided : (s.gx c).decided = none
  waits : s.noVerdict c = true
  part : s.partDone c = true
  signatures : s.lsDone c = true
  summed : s.ssqBlocked c (s.cStep c) = false
  children : ∀ n ∈ s.vchildren c, (s.childVup c n).isSome ∨ s.absent c n = true

/-- The root decides on the merge; any other package sends it to VPARENT and starts its VWAIT (12 R321 to R323, R328). -/
theorem vupSend_next {m : Vup} (next : s.VupNext c) (merge : (s.markVerdict c).merged c = (t, m)) : vupSend c s =
    if s.atRoot c then (t.setGx c { t.gx c with sent := true }).rootDecide c (some m)
    else (t.setGx c { t.gx c with sent := true, vqAt := some (s.time.ktime + s.vwait c), vqN := 0 }).guardSend
      (s.vparent c) c (s.cGen c) (s.cStep c) (s.closingId c) 1 0 0 (vupBytes m) := by
  obtain ⟨active, opened, unsent, undecided, waits, part, signatures, summed, children⟩ := next
  have arrived : (s.vchildren c).all (fun n => (s.childVup c n).isSome || s.absent c n) = true :=
    List.all_eq_true.2 fun n child => by simpa using children n child
  unfold vupSend
  refine (if_neg ?_).trans ((if_neg (Bool.eq_false_iff.1 summed)).trans ?_)
  · simp [active, opened, unsent, undecided, waits, part, signatures, arrived]
  · rw [merge]

variable {r : Rx} {bs : Bytes}

/-- A VUP of a verdict child is kept until the package's own VUP of its step, or its verdict (12 R319, R322). -/
theorem vup_kept (taken : s.GuardTaken 1 r bs t)
    (new : (s.gx r.key.ctx).vups.any (fun v => v.src == r.src && v.step == r.key.step) = false)
    (wanted : t.cStep r.key.ctx < r.key.step ∨ (t.cStep r.key.ctx = r.key.step ∧ (t.gx r.key.ctx).sent = false
      ∧ (t.gx r.key.ctx).decided = none ∧ t.noVerdict r.key.ctx = true))
    (child : (t.vchildren r.key.ctx).contains r.src = true) : vup s = t.setGx r.key.ctx { t.gx r.key.ctx with
      vups := (t.gx r.key.ctx).vups ++ [t.vupOf r.key.ctx r.src r.key.step bs] } := by
  refine (guardRx_taken taken new).trans (if_neg ?_)
  rcases wanted with later | ⟨now, unsent, undecided, waits⟩
  · simp only [child, Bool.not_true, Bool.or_false, Bool.or_eq_true, Bool.and_eq_true, decide_eq_true_eq, beq_iff_eq, not_or]
    exact ⟨Nat.lt_asymm later, fun now => absurd now.1 (Nat.ne_of_gt later)⟩
  · simpa [now, unsent, undecided, waits] using child
theorem vup_past (taken : s.GuardTaken 1 r bs t)
    (new : (s.gx r.key.ctx).vups.any (fun v => v.src == r.src && v.step == r.key.step) = false)
    (past : r.key.step < t.cStep r.key.ctx) : vup s = t :=
  (guardRx_taken taken new).trans (if_pos (by simp [past]))

/-! ### VDOWN -/

variable {v : Vd}

/-- A VDOWN of the open step is forwarded and held, one of a later step forwarded and kept (12 R326). -/
theorem takeVd_open (now : t.stepOpen c v.step = true) : t.takeVd c v = (t.vdTo c (t.vchildren c) v).holdVd c v := if_pos now
theorem takeVd_later (closed : t.stepOpen c v.step = false) (later : t.cStep c < v.step) :
    t.takeVd c v = (t.vdTo c (t.vchildren c) v).setGx c { (t.vdTo c (t.vchildren c) v).gx c with later := some v } :=
  (if_neg (Bool.eq_false_iff.1 closed)).trans (if_pos (by simp [later]))

/-! ### VQUERY -/

/-- The VDOWN that is held for the step is the answer to a VQUERY (12 R328). -/
theorem vquery_held (taken : s.GuardTaken 3 r bs t)
    (held : (t.gx r.key.ctx).vlog.find? (fun v => v.step == r.key.step) = some v) (known : t.noVerdict r.key.ctx = false) :
    vquery s = t.vdTo r.key.ctx [r.src] v := by
  refine (guardRx_taken taken rfl).trans ?_
  have stays : (if t.acting r.key.ctx && t.atStandby r.key.ctx && t.stepOpen r.key.ctx r.key.step && t.noVerdict r.key.ctx
      then t.takeover r.key.ctx else t) = t := if_neg (by simp [known])
  simp only [stays, List.find?_append, held, Option.some_or]

/-- VWAIT expires without a verdict while the root is not lost: a VQUERY in turn to the root and to the standby, the first one
with a yield (12 R328). -/
theorem vwaitExpiry_asks {a : Nat} (due : (s.gx c).vqAt = some a) (expired : a ≤ s.time.ktime) (waits : s.noVerdict c = true)
    (rootThere : (s.grd.confirmed.contains (s.rootId c) || (s.gx c).lostTo.contains (s.rootId c)) = false) :
    vwaitExpiry c s =
      let n := if (s.gx c).vqN % 2 = 0 then s.rootId c else s.standbyId c
      let s1 := s.setGx c { s.gx c with vqAt := some (s.time.ktime + s.vwait c), vqN := (s.gx c).vqN + 1 }
      let s2 := if (s.gx c).vqN = 0 then s1.yieldEv c 5 3 else s1
      if n = s.node then s2
      else (s2.countEv 0xE01000 0x11 1).guardSend n c (s.cGen c) (s.cStep c) (s.closingId c) 3 0 0 [] := by
  unfold vwaitExpiry
  dsimp only
  rw [due]
  exact (if_neg (by simp [expired, waits])).trans (if_neg (by simp only [rootThere, Bool.false_and]; exact Bool.false_ne_true))

/-! ### Lock-step -/

variable {b : Nat}

/-- The peer's signature of a Billet is kept, and compared in its step (12 R351). -/
theorem locksig_kept (taken : s.GuardTaken 9 r bs t)
    (new : (match s.billetSlot r.key.ctx r.key.billet with
      | some b => (s.gx r.key.ctx).peer.any (fun p => p.1 == r.key.step && p.2.1 == b) | none => false) = false)
    (billet : t.billetSlot r.key.ctx r.key.billet = some b) (ahead : t.cStep r.key.ctx ≤ r.key.step)
    (peer : r.src = fld (t.gw r.key.ctx 4) 0 18) :
    let w := t.setGx r.key.ctx { t.gx r.key.ctx with
      peer := (t.gx r.key.ctx).peer ++ [(r.key.step, b, BitVec.ofNat 64 (ofLe (bs.take 8)))] }
    locksig s = if r.key.step = t.cStep r.key.ctx then w.compareSigs r.key.ctx b else w := by
  refine (guardRx_taken taken new).trans ?_
  dsimp only
  rw [billet]
  exact if_neg (by simp [ahead, peer])

/-- The first block whose hash differs from the peer's is reported (12 R351, 16 R436). -/
theorem lslist_differs {i : Nat} {hs : List W64} (taken : s.GuardTaken 10 r bs t)
    (billet : t.billetSlot r.key.ctx r.key.billet = some b) (now : r.key.step = t.cStep r.key.ctx)
    (peer : r.src = fld (t.gw r.key.ctx 4) 0 18) (free : (t.reg 0xE01060).getLsbD 31 = false)
    (hashes : t.billetHashes r.key.ctx b = some hs)
    (differ : firstDiff (hs.map (·.toNat)) (numsOf 8 (bs.length / 8) bs) 0 = some i) :
    lslist s = (((t.setRegN 0xE0105C r.key.step).setRegN 0xE01060
      (nfld r.key.step 32 16 + r.key.ctx * 2 ^ 16 + 2 ^ 31)).setRegN 0xE01064 r.key.billet).setRegN 0xE01068
      ((t.comparedBlocks r.key.ctx b).getD i 0) := by
  refine (guardRx_taken taken rfl).trans ?_
  dsimp only
  rw [billet]
  refine (if_neg (by simpa [now, peer] using free)).trans ?_
  rw [hashes]
  dsimp only
  rw [differ]

end

/-- Settles O56: each message by the one lemma of what it does once it is taken. -/
theorem verdictMessagesAct : Obligations.VerdictMessagesAct := by
  intro s t m1 r bs x m a b i hs had u d c taken
  have takes : ∀ {gop}, taken gop → s.GuardTaken gop r bs t := fun ⟨found, fits, alive, _, whole⟩ =>
    ⟨found, .inr fits, alive, whole⟩
  have isNew : ∀ {gop}, taken gop → had = false := fun ⟨_, _, _, new, _⟩ => new
  refine ⟨fun active opened unsent undecided waits part signatures summed children merge =>
      congrArg done (vupSend_next ⟨active, opened, unsent, undecided, waits, part, signatures, summed, children⟩ merge),
    fun here copy => ?_, fun here copy => ?_,
    fun due expired waits rootThere => congrArg done (vwaitExpiry_asks due expired waits rootThere),
    fun here v held known => congrArg done (vquery_held (takes here) held known),
    fun here billet copy ahead peer =>
      congrArg done (locksig_kept (takes here) (copy.symm.trans (isNew here)) billet ahead peer),
    fun here billet now peer free hashes differ =>
      congrArg done (lslist_differs (takes here) billet now peer free hashes differ)⟩
  · have new := copy.symm.trans (isNew here)
    exact ⟨fun wanted child => congrArg done (vup_kept (takes here) new wanted child),
      fun past => congrArg done (vup_past (takes here) new past)⟩
  · intro v w
    have forwards : vdown s = t.takeVd d v := guardRx_taken (takes here) (copy.symm.trans (isNew here))
    exact ⟨fun now => congrArg done (forwards.trans (takeVd_open now)),
      fun closed later => congrArg done (forwards.trans (takeVd_later closed later))⟩

end Sys2Proof.Machine
end

section
/-! Heartbeats: when one is due and where it goes, which watch a received one renews, and which peers a HEARTBEAT_TIMEOUT declares
failed and reports. -/
namespace Sys2Proof.Machine
open Sys2Proof

/-! ### HEARTBEAT_PERIOD -/

section
variable {s : State}

/-- Heartbeats are sent: full operation, HB_EN, not fenced, and 5 ms since the last period (12 R315). -/
structure State.BeatDue (s : State) : Prop where
  awake : s.dmp.power = 0
  enabled : s.hbEn = true
  alive : s.grd.fenced = false
  due : ∀ a, s.grd.periodAt = some a → a + 5000 * usec ≤ s.time.ktime

/-- Period `k` begins: the configuration registers apply from here (16 R435). -/
def State.beatBegun (s : State) : State :=
  { s with grd := { s.grd with
    period := s.grd.period + 1, periodAt := some s.time.ktime,
    conf := s.regs.filter (fun e => decide (0xE00050 ≤ e.1 ∧ e.1 < 0xE000A0)) } }
/-- One HEARTBEAT of period `k` to each watched peer, on port `p`. -/
def State.beatAll (s : State) (p k : Nat) : State :=
  ((List.range 8).filterMap s.watch).foldl (fun s n =>
    (s.sendShot 2 (some p) ⟨n, 0, 0, k % 2 ^ 48, 0, 0, 3⟩ 0 (guardSpec 0 0 0 1) []).countEv 0xE00000 0x10 1) s

/-- Heartbeats do not live in deep park (log entry 118). -/
theorem heartbeatPeriod_parked (parked : s.dmp.power ≠ 0) : heartbeatPeriod s = s := if_pos (by simp [parked])
theorem heartbeatPeriod_due (due : s.BeatDue) : heartbeatPeriod s =
    match (s.upPorts 0)[s.grd.period % (s.upPorts 0).length]? with
    | none => s.beatBegun.countEv 0xE00000 0x13 1
    | some p => s.beatBegun.beatAll p s.grd.period := by
  obtain ⟨awake, enabled, alive, due⟩ := due
  unfold heartbeatPeriod
  refine (if_neg ?_).trans rfl
  cases last : s.grd.periodAt with
  | none => simp [awake, enabled, alive]
  | some a =>
    have passed : decide (a + hbPeriod ≤ s.time.ktime) = true := decide_eq_true (due a last)
    simp [awake, enabled, alive, passed]
theorem heartbeatPeriod_portless (due : s.BeatDue) (portless : s.upPorts 0 = []) :
    heartbeatPeriod s = s.beatBegun.countEv 0xE00000 0x13 1 := by
  rw [heartbeatPeriod_due due, portless]
  rfl
theorem heartbeatPeriod_sends {p : Nat} (due : s.BeatDue)
    (port : (s.upPorts 0)[s.grd.period % (s.upPorts 0).length]? = some p) :
    heartbeatPeriod s = s.beatBegun.beatAll p s.grd.period := by
  rw [heartbeatPeriod_due due, port]

end

/-! ### HEARTBEAT -/

/-- Watch entry `i` is renewed where it watches node `n` (12 R315). -/
def State.renew (n : Nat) (s : State) (i : Nat) : State :=
  if s.watch i = some n then
    { s with grd := { s.grd with
      seen := s.grd.seen.set (fun _ => 0) i s.time.ktime, heard := s.grd.heard.set (fun _ => false) i true } }
  else s

theorem heartbeat_found {s : State} {r : Rx} (found : s.GuardFound 0 r) :
    heartbeat s = (List.range 8).foldl (State.renew r.src) ((s.rxDrop r).countEv 0xE00000 0x11 1) := by
  unfold heartbeat
  rw [found]
  rfl

/-- Renewing watches moves what was seen and heard, and nothing else. -/
theorem renew_leaves (n : Nat) (is : List Nat) (s : State) : is.foldl (State.renew n) s = { s with grd := { s.grd with
    seen := (is.foldl (State.renew n) s).grd.seen, heard := (is.foldl (State.renew n) s).grd.heard } } := by
  induction is generalizing s with
  | nil => rfl
  | cons i is ih =>
    refine (ih (s.renew n i)).trans ?_
    rw [List.foldl_cons]
    by_cases watched : s.watch i = some n
    · rw [show s.renew n i = _ from if_pos watched]
    · rw [show s.renew n i = s from if_neg watched]

theorem watch_renew (n : Nat) (s : State) (i j : Nat) : (s.renew n i).watch j = s.watch j := by
  unfold State.renew
  split <;> rfl
theorem ktime_renew (n : Nat) (s : State) (i : Nat) : (s.renew n i).time.ktime = s.time.ktime := by
  unfold State.renew
  split <;> rfl
theorem seen_renew (n : Nat) (s : State) (i j : Nat) : (s.renew n i).grd.seen.get (fun _ => 0) j =
    if j = i ∧ s.watch j = some n then s.time.ktime else s.grd.seen.get (fun _ => 0) j := by
  unfold State.renew
  by_cases here : j = i
  · subst here
    split <;> simp [*, SMap.get_set]
  · split <;> simp [here, SMap.get_set]

/-- The watches on a node are renewed, and no other (12 R315). -/
theorem seen_renewed (n j : Nat) (is : List Nat) (s : State) :
    (is.foldl (State.renew n) s).grd.seen.get (fun _ => 0) j =
      if j ∈ is ∧ s.watch j = some n then s.time.ktime else s.grd.seen.get (fun _ => 0) j := by
  induction is generalizing s with
  | nil => simp
  | cons i is ih =>
    rw [List.foldl_cons, ih, watch_renew, ktime_renew, seen_renew]
    by_cases here : j = i
    · subst here
      by_cases watched : s.watch j = some n <;> simp [watched]
    · simp [here]

/-! ### What the watch rests on -/

/-- What Guard holds, KTIME, and the registers in the bodies of Guard's pages are as they were. -/
structure LeavesWatch (s t : State) : Prop where
  grd : t.grd = s.grd
  ktime : t.time.ktime = s.time.ktime
  reg : ∀ a, 0xE00040 ≤ a → a < 0xE01000 → t.reg a = s.reg a

theorem LeavesWatch.refl (s : State) : LeavesWatch s s := ⟨rfl, rfl, fun _ _ _ => rfl⟩
theorem LeavesWatch.trans {s t u : State} (h : LeavesWatch s t) (k : LeavesWatch t u) : LeavesWatch s u :=
  ⟨k.grd.trans h.grd, k.ktime.trans h.ktime, fun a lo hi => (k.reg a lo hi).trans (h.reg a lo hi)⟩
theorem LeavesWatch.ite {s t u : State} {p : Prop} [Decidable p] (h : LeavesWatch s t) (k : LeavesWatch s u) :
    LeavesWatch s (if p then t else u) := by split <;> assumption
theorem LeavesWatch.node {s t : State} (h : LeavesWatch s t) : t.node = s.node :=
  congrArg (fld · 0 18) (h.reg 0xE00044 (by decide) (by decide))
theorem LeavesWatch.watch {s t : State} (h : LeavesWatch s t) {i : Nat} (hi : i < 8) : t.watch i = s.watch i := by
  unfold State.watch State.gconf State.regN
  rw [h.grd, h.reg _ (by omega) (by omega)]

theorem countEv_leavesWatch (s : State) {pg : Nat} (ev n : Nat) (below : pg ≤ 0xE00000) :
    LeavesWatch s (s.countEv pg ev n) where
  grd := by unfold State.countEv; split <;> rfl
  ktime := by unfold State.countEv; split <;> rfl
  reg _ lo _ := reg_countEv _ _ _ _ _ (by omega)

/-- A HEARTBEAT is counted, and moves what was seen and heard (12 R315). -/
theorem heartbeat_leaves {s : State} {r : Rx} (found : s.GuardFound 0 r) : heartbeat s =
    { (s.rxDrop r).countEv 0xE00000 0x11 1 with grd := { (s.rxDrop r).grd with
      seen := (heartbeat s).grd.seen, heard := (heartbeat s).grd.heard } } := by
  rw [heartbeat_found found, ← (countEv_leavesWatch (s.rxDrop r) 0x11 1 (Nat.le_refl 0xE00000)).grd]
  exact renew_leaves ..
/-- A HEARTBEAT renews the watch on its sender, and no other (12 R315). -/
theorem heartbeat_seen {s : State} {r : Rx} (found : s.GuardFound 0 r) {i : Nat} (hi : i < 8) :
    (heartbeat s).grd.seen.get (fun _ => 0) i =
      if s.watch i = some r.src then s.time.ktime else s.grd.seen.get (fun _ => 0) i := by
  have counted := countEv_leavesWatch (s.rxDrop r) 0x11 1 (Nat.le_refl 0xE00000)
  have same : (s.rxDrop r).watch i = s.watch i := rfl
  rw [heartbeat_found found, seen_renewed, counted.watch hi, counted.ktime, counted.grd, same]
  simp only [List.mem_range, hi, true_and]
  rfl

theorem leavesWatch_setQcn (s : State) (q : Qcn) : LeavesWatch s { s with qcn := q } := ⟨rfl, rfl, fun _ _ _ => rfl⟩
theorem setFlow_leavesWatch (s : State) (f : Flow) : LeavesWatch s (s.setFlow f) := by
  unfold State.setFlow
  refine .ite (leavesWatch_setQcn ..) (.ite (leavesWatch_setQcn ..) ?_)
  split
  · exact .refl s
  · exact (leavesWatch_setQcn ..).trans (countEv_leavesWatch _ _ _ (by decide))
theorem chargeFlow_leavesWatch (s : State) (m : Msg) : LeavesWatch s (s.chargeFlow m) := by
  unfold State.chargeFlow
  split
  · exact setFlow_leavesWatch ..
  · exact .refl s
theorem countSent_leavesWatch (s : State) (m : Msg) : LeavesWatch s (s.countSent m) :=
  .trans (.ite (chargeFlow_leavesWatch s m) (.refl s)) (leavesWatch_setQcn ..)
theorem sendMsg_leavesWatch (s : State) (k : MKey) (payload : Bytes) (spec charge group : Nat) (mash : Bool)
    (own : Option (Nat × Int × Grist)) : LeavesWatch s (s.sendMsg k payload spec charge group mash own) :=
  .ite (.refl s) (.ite ((leavesWatch_setQcn ..).trans (countSent_leavesWatch ..)) (leavesWatch_setQcn ..))
/-- Queueing a Guard message changes Quicon alone. -/
theorem guardSend_leavesWatch (s : State) (dst ctx gen step billet gop newinc pseq : Nat) (payload : Bytes) :
    LeavesWatch s (s.guardSend dst ctx gen step billet gop newinc pseq payload) :=
  List.foldlRecOn _ _ (.refl s) fun _ kept _ _ => kept.trans (sendMsg_leavesWatch ..)

/-! ### HEARTBEAT_TIMEOUT -/

/-- Watch entry `i` has been silent for 40 ms and is not declared failed (12 R315). -/
@[reducible] def State.late (s : State) (i : Nat) : Prop :=
  s.grd.declared.get (fun _ => false) i = false ∧ s.grd.seen.get (fun _ => 0) i + 40000 * usec ≤ s.time.ktime
/-- The peer of watch entry `i` is declared failed. -/
def State.declare (s : State) (i : Nat) : State :=
  { s with grd := { s.grd with declared := s.grd.declared.set (fun _ => false) i true } }
/-- What a HEARTBEAT_TIMEOUT does about watch entry `i` (12 R316). -/
def State.watchEnds (s : State) (i : Nat) : State :=
  match s.watch i with
  | none => s
  | some n =>
    if s.grd.declared.get (fun _ => false) i || s.time.ktime < s.grd.seen.get (fun _ => 0) i + 8 * hbPeriod then s
    else (s.declare i).sendFailrep n false

section
variable {s t : State} {i n : Nat}

theorem watchEnds_unused (unused : s.watch i = none) : s.watchEnds i = s := by
  unfold State.watchEnds
  rw [unused]
theorem not_late_iff : (s.grd.declared.get (fun _ => false) i
    || decide (s.time.ktime < s.grd.seen.get (fun _ => 0) i + 8 * hbPeriod)) = true ↔ ¬ s.late i := by
  have lasts : 8 * hbPeriod = 40000 * usec := by decide
  rw [lasts, State.late, Bool.or_eq_true, decide_eq_true_eq, Decidable.not_and_iff_not_or_not, Bool.not_eq_false, Nat.not_le]
theorem watchEnds_some (watched : s.watch i = some n) :
    s.watchEnds i = if s.late i then (s.declare i).sendFailrep n false else s := by
  unfold State.watchEnds
  rw [watched]
  by_cases late : s.late i
  · exact (if_neg fun early => not_late_iff.1 early late).trans (if_pos late).symm
  · exact (if_pos (not_late_iff.2 late)).trans (if_neg late).symm
/-- Nothing ends where an entry is unused or not late. -/
theorem watchEnds_idle (idle : s.watch i = none ∨ ¬ s.late i) : s.watchEnds i = s :=
  idle.elim watchEnds_unused fun early => by
    cases watched : s.watch i with
    | none => exact watchEnds_unused watched
    | some n => exact (watchEnds_some watched).trans (if_neg early)
theorem LeavesWatch.idle (h : LeavesWatch s t) (hi : i < 8) (idle : s.watch i = none ∨ ¬ s.late i) :
    t.watch i = none ∨ ¬ t.late i := by
  unfold State.late at *
  rwa [h.watch hi, h.grd, h.ktime]
theorem idle_declare {j : Nat} (other : j ≠ i) (idle : s.watch j = none ∨ ¬ s.late j) :
    (s.declare i).watch j = none ∨ ¬ (s.declare i).late j := by
  have kept : (s.declare i).grd.declared.get (fun _ => false) j = s.grd.declared.get (fun _ => false) j :=
    (SMap.get_set ..).trans (if_neg other)
  exact idle.imp id fun early late => early ⟨kept.symm.trans late.1, late.2⟩

theorem heartbeatTimeout_parked (parked : s.dmp.power ≠ 0) : heartbeatTimeout s = s := if_pos (by simp [parked])
theorem heartbeatTimeout_eq : heartbeatTimeout s =
    if s.dmp.power != 0 || !s.hbEn then s else (List.range 8).foldl State.watchEnds s := rfl
theorem heartbeatTimeout_ends (awake : s.dmp.power = 0) (enabled : s.hbEn = true) :
    heartbeatTimeout s = (List.range 8).foldl State.watchEnds s := if_neg (by simp [awake, enabled])

/-- A fold that moves no entry leaves the state. -/
theorem foldl_idle {is : List Nat} {f : State → Nat → State} (idle : ∀ i ∈ is, f s i = s) : is.foldl f s = s :=
  List.foldlRecOn (motive := (· = s)) is f rfl fun _ kept i h => by rw [kept, idle i h]
/-- A fold that one entry alone moves is the step of that entry. -/
theorem foldl_once {is : List Nat} {f : State → Nat → State} (nodup : is.Nodup) (here : i ∈ is) (moves : f s i = t)
    (before : ∀ j ∈ is, j ≠ i → f s j = s) (after : ∀ j ∈ is, j ≠ i → f t j = t) : is.foldl f s = t := by
  induction is with
  | nil => simp at here
  | cons j is ih =>
    obtain ⟨unseen, nodup⟩ := List.nodup_cons.1 nodup
    rw [List.foldl_cons]
    by_cases first : j = i
    · subst first
      rw [moves]
      exact foldl_idle fun k h => after k (List.mem_cons_of_mem _ h) fun e => unseen (e ▸ h)
    · rw [before j List.mem_cons_self first]
      exact ih nodup ((List.mem_cons.1 here).resolve_left (Ne.symm first))
        (fun k h => before k (List.mem_cons_of_mem _ h)) (fun k h => after k (List.mem_cons_of_mem _ h))

theorem heartbeatTimeout_idle (idle : ∀ i, i < 8 → s.watch i = none ∨ ¬ s.late i) : heartbeatTimeout s = s := by
  rw [heartbeatTimeout_eq, foldl_idle fun i h => watchEnds_idle (idle i (List.mem_range.1 h)), ite_self]

/-- FAILREPs about a node to a list of packages (12 R316). -/
def State.failrepsTo (s : State) (ts : List Nat) (x : Nat) : State :=
  ts.foldl (fun s t => (s.countEv 0xE00000 0x12 1).guardSend t 0 0 0 x 4 0 0 (leBytes 8 0)) s

theorem failrepTo_leavesWatch (s : State) (t x : Nat) :
    LeavesWatch s ((s.countEv 0xE00000 0x12 1).guardSend t 0 0 0 x 4 0 0 (leBytes 8 0)) :=
  (countEv_leavesWatch s _ _ (Nat.le_refl _)).trans (guardSend_leavesWatch ..)
theorem failrepsTo_leavesWatch (s : State) (ts : List Nat) (x : Nat) : LeavesWatch s (s.failrepsTo ts x) :=
  List.foldlRecOn _ _ (.refl s) fun _ kept _ _ => kept.trans (failrepTo_leavesWatch ..)

/-- A package that is none of the targets itself sends every FAILREP. -/
theorem failreps_sent (ts : List Nat) (x : Nat) (s : State) (others : ∀ t ∈ ts, t ≠ s.node) :
    ts.foldl (fun s t => if t = s.node then s.report x s.node false
      else (s.countEv 0xE00000 0x12 1).guardSend t 0 0 0 x 4 0 0 (leBytes 8 (b2n false))) s = s.failrepsTo ts x := by
  induction ts generalizing s with
  | nil => rfl
  | cons t ts ih =>
    rw [List.foldl_cons, if_neg (others t List.mem_cons_self)]
    exact ih _ fun y h e => others y (List.mem_cons_of_mem _ h) (e.trans (failrepTo_leavesWatch s t x).node)
/-- The root and the standby of each context are other packages. -/
theorem failTargets_others (outside : ∀ c ∈ s.jobCtxs, s.atRoot c = false ∧ s.atStandby c = false) :
    ∀ t ∈ s.failTargets, t ≠ s.node := by
  intro t target
  obtain ⟨ids, listed, mem⟩ := List.mem_flatten.1 (List.mem_eraseDups.1 target)
  obtain ⟨c, job, rfl⟩ := List.mem_map.1 listed
  obtain ⟨noRoot, noStandby⟩ := outside c job
  have root : s.rootId c ≠ s.node := fun e => by simp [State.atRoot, e] at noRoot
  have standby : s.standbyId c ≠ s.node := fun e => by simp [State.atStandby, noRoot, e] at noStandby
  rcases List.mem_cons.1 mem with rfl | mem
  · exact root
  · rw [List.mem_singleton.1 mem]
    exact standby

/-- One silent peer, at a package that is neither root nor standby: it is declared, and reported to each of these (12 R316). -/
theorem heartbeatTimeout_one (awake : s.dmp.power = 0) (enabled : s.hbEn = true) (hi : i < 8) (watched : s.watch i = some n)
    (late : s.late i) (idle : ∀ j, j < 8 → j ≠ i → s.watch j = none ∨ ¬ s.late j)
    (outside : ∀ c ∈ s.jobCtxs, s.atRoot c = false ∧ s.atStandby c = false) :
    heartbeatTimeout s = (s.declare i).failrepsTo s.failTargets n := by
  have ends : s.watchEnds i = (s.declare i).failrepsTo s.failTargets n :=
    ((watchEnds_some watched).trans (if_pos late)).trans (failreps_sent _ n (s.declare i) (failTargets_others (s := s) outside))
  rw [heartbeatTimeout_ends awake enabled]
  refine foldl_once List.nodup_range (List.mem_range.2 hi) ends
    (fun j h other => watchEnds_idle (idle j (List.mem_range.1 h) other)) fun j h other => watchEnds_idle ?_
  have inside := List.mem_range.1 h
  exact (failrepsTo_leavesWatch ..).idle inside (idle_declare other (idle j inside other))

end

end Sys2Proof.Machine
end

section
/-! The messages of the job: reports, joins, incarnations, adoptions, RESYNC, READY and RESUME once they are taken, the recovery
transfer of a counterpart, and READY_SEND. -/
namespace Sys2Proof.Machine
open Sys2Proof

/-! ### Messages that are taken -/

section
variable {s t : State} {r : Rx} {bs : Bytes}

/-- INCARN: the incarnation is taken, the node counts as new, and a RESYNC that waited for it is sent (12 R340, R341). -/
def State.incarnTaken (s : State) (x inc : Nat) : State :=
  let t := s.setInc x inc
  let u := { t with grd := { t.grd with
    newIncs := if t.grd.newIncs.contains x then t.grd.newIncs else t.grd.newIncs ++ [x] } }
  u.jobCtxs.foldl (fun s c => s.resyncTry c) u

theorem incarn_taken (taken : s.GuardTaken 6 r bs t) :
    incarn s = t.incarnTaken (r.key.billet % 2 ^ 18) (nfld r.spec 4 6) := guardRx_taken taken rfl

/-- An ADOPT reaches a spare, or the package whose ID it names (12 R341, R347). -/
theorem adopt_mine (taken : s.GuardTaken 5 r bs t) (mine : t.regN 0xE0004C = 1 ∨ r.key.billet % 2 ^ 18 = t.node) :
    adopt s = t.takeAdopt (r.key.billet % 2 ^ 18) (nfld r.spec 4 6) :=
  (guardRx_taken taken rfl).trans (if_pos (by simpa using mine))
theorem adopt_others (taken : s.GuardTaken 5 r bs t) (noSpare : t.regN 0xE0004C ≠ 1)
    (other : r.key.billet % 2 ^ 18 ≠ t.node) : adopt s = t :=
  (guardRx_taken taken rfl).trans (if_neg (by simpa using ⟨noSpare, other⟩))

/-- A RESYNC of the context's length replaces its rule state (12 R341, 03 R85). -/
theorem resync_taken (taken : s.GuardTaken 8 r bs t) : resync s =
    if bs.length = 136 * (t.slotsOf r.key.ctx).length + 2 * (t.billetsOf r.key.ctx).length then t.adoptImage r.key.ctx bs
    else t := guardRx_taken taken rfl

/-- The RESUME that a message carries (12 Table 12-2). -/
def Rx.resumeOp (r : Rx) (bs : Bytes) : ParkOp :=
  ⟨nfld r.spec 28 32, true, r.key.step, ofLe (bs.take 8), (chunks 4 (bs.drop 8)).map ofLe⟩

/-- A RESUME is forwarded and applied in its turn (12 R354). -/
theorem resume_taken (taken : s.GuardTaken 7 r bs t)
    (new : (((s.gx r.key.ctx).member && nfld r.spec 28 32 ≤ (s.gx r.key.ctx).pseq)
      || (s.gx r.key.ctx).ops.any (fun o => o.pseq == nfld r.spec 28 32 && o.resume)) = false) :
    resume s = (t.resumeTo r.key.ctx (t.vchildren r.key.ctx) (r.resumeOp bs)).addOp r.key.ctx (r.resumeOp bs) :=
  guardRx_taken taken new

end

/-! ### The recovery transfer -/

section
variable {s : State}

/-- A counterpart writes a record's image to the halves of its RECOV area in turn (12 R342). -/
theorem recovOut_writes {u : Nat} (used : s.uUsed u = true) (held : (s.gx (s.uCtx u)).needResume = true)
    (fits : (s.caskOut u).length ≤ (s.gw (s.uCtx u) 21).toNat * 2048) : s.recovOut u =
      { s.ctxWrite (s.uCtx u) (s.gAddr (s.uCtx u) 19
          + s.grd.transferred.length % 2 * ((s.gw (s.uCtx u) 21).toNat * 2048)) (s.caskOut u) with
        grd := { s.grd with transferred := s.grd.transferred ++ [u] } } :=
  if_neg (by simp [used, held, fits])

/-- The transfer has ended, the host has set READY, and READY has not been sent (12 R341). -/
structure State.ReadyNext (s : State) : Prop where
  unsent : s.grd.readySent = false
  host : bit (s.reg 0xE00040) 1 = true
  ended : ∀ u ∈ s.jobRecs, s.grd.transferred.contains u = true

/-- READY counts as sent, and every residual of the job is zeroed (12 R341). -/
def State.readyBegun (s : State) : State :=
  s.jobCtxs.foldl (fun s c => s.zeroCtx c) { s with grd := { s.grd with readySent := true } }

theorem readySend_next {n v : Nat} (next : s.ReadyNext) (adopted : s.grd.adopted = some (n, v)) : readySend s =
    if s.readyBegun.grd.adoptions.any (fun a => a.node == n) then s.readyBegun.readyFrom n
    else (((s.readyBegun.jobCtxs.map (fun c =>
        if s.readyBegun.rootId c = n then s.readyBegun.standbyId c else s.readyBegun.rootId c)).eraseDups).filter
          (fun y => y != n)).foldl (fun s y => s.guardSend y 0 0 0 n 12 0 0 []) s.readyBegun := by
  obtain ⟨unsent, host, ended⟩ := next
  unfold readySend
  rw [adopted]
  exact if_neg (by simpa [unsent, host] using ended)

end

/-- Settles O57: heartbeats by the watch entries, each message by what it does once it is taken, the rest by its conditions. -/
theorem jobMessagesAct : Obligations.JobMessagesAct := by
  intro s t r bs p n v urec had u d x taken k s1 late
  have takes : ∀ {gop}, taken gop → s.GuardTaken gop r bs t :=
    fun ⟨found, fits, alive, _, whole⟩ => ⟨found, fits, alive, whole⟩
  have isNew : ∀ {gop}, taken gop → had = false := fun ⟨_, _, _, new, _⟩ => new
  refine ⟨fun parked =>
      ⟨congrArg done (heartbeatPeriod_parked parked), congrArg done (heartbeatTimeout_parked parked)⟩,
    fun awake enabled alive due => ?_,
    fun found => ⟨_, rfl, heartbeat_leaves found, fun i hi =>
      ⟨fun watched => (heartbeat_seen found hi).trans (if_pos watched),
        fun other => (heartbeat_seen found hi).trans (if_neg other)⟩⟩,
    fun idle => congrArg done (heartbeatTimeout_idle idle), fun awake enabled => ?_,
    fun i hi awake enabled watched silent idle outside =>
      congrArg done (heartbeatTimeout_one awake enabled hi watched silent idle outside),
    fun here => congrArg done (guardRx_taken (takes here) rfl), fun here => congrArg done (guardRx_taken (takes here) rfl),
    fun here => ⟨_, congrArg done (incarn_taken (takes here)), rfl⟩,
    fun here => ⟨fun mine => congrArg done (adopt_mine (takes here) mine),
      fun noSpare other => congrArg done (adopt_others (takes here) noSpare other)⟩,
    fun here => ⟨fun fits => congrArg done ((resync_taken (takes here)).trans (if_pos fits)),
      fun wrong => congrArg done ((resync_taken (takes here)).trans (if_neg wrong))⟩,
    fun used held fits => congrArg done (recovOut_writes used held fits),
    fun adopted unsent host ended => congrArg done (readySend_next ⟨unsent, host, ended⟩ adopted),
    fun here => congrArg done (guardRx_taken (takes here) rfl),
    fun here copy => congrArg done (resume_taken (takes here) (copy.symm.trans (isNew here)))⟩
  · have begins : s.BeatDue := ⟨awake, enabled, alive, due⟩
    exact ⟨fun portless => congrArg done (heartbeatPeriod_portless begins portless),
      fun port => congrArg done (heartbeatPeriod_sends begins port)⟩
  · refine congrArg done ((heartbeatTimeout_ends awake enabled).trans
      (congrArg (fun f => (List.range 8).foldl f s) (funext fun y => funext fun i => ?_)))
    cases watched : y.watch i with
    | none => exact watchEnds_unused watched
    | some n => exact watchEnds_some watched

end Sys2Proof.Machine
end

section
/-! What counting an event, raising an error and acknowledging a write leave: all that the time unit, the identity master and the
Damper hold, and the registers in the bodies of every page but CTL 0. -/
namespace Sys2Proof.Machine
open Sys2Proof

/-- The control unit, time, the identity master and the Damper are as they were, and so are the registers in the body of every
page but CTL 0. -/
structure LeavesSite (s t : State) : Prop where
  ctl : t.ctl = s.ctl
  time : t.time = s.time
  iden : t.iden = s.iden
  dmp : t.dmp = s.dmp
  reg : ∀ a, 0x1000 ≤ a → 0x40 ≤ a % 0x1000 → t.reg a = s.reg a

theorem LeavesSite.refl (s : State) : LeavesSite s s := ⟨rfl, rfl, rfl, rfl, fun _ _ _ => rfl⟩
theorem LeavesSite.trans {s t u : State} (h : LeavesSite s t) (k : LeavesSite t u) : LeavesSite s u :=
  ⟨k.ctl.trans h.ctl, k.time.trans h.time, k.iden.trans h.iden, k.dmp.trans h.dmp,
    fun a page body => (k.reg a page body).trans (h.reg a page body)⟩
theorem LeavesSite.ite {s t u : State} {p : Prop} [Decidable p] (h : LeavesSite s t) (k : LeavesSite s u) :
    LeavesSite s (if p then t else u) := by split <;> assumption
theorem LeavesSite.regN {s t : State} (h : LeavesSite s t) (a : Nat) (page : 0x1000 ≤ a) (body : 0x40 ≤ a % 0x1000) :
    t.regN a = s.regN a := congrArg BitVec.toNat (h.reg a page body)
theorem LeavesSite.tState {s t : State} (h : LeavesSite s t) : t.tState = s.tState :=
  congrArg (fld · 0 3) (h.reg 0x100050 (by decide) (by decide))

/-- A register of a page's header, or of the body of CTL 0, is none of the registers that `LeavesSite` speaks of. -/
theorem setRegN_leavesSite (s : State) {a : Nat} (v : Nat) (outside : a < 0x1000 ∨ a % 0x1000 < 0x40) :
    LeavesSite s (s.setRegN a v) :=
  ⟨rfl, rfl, rfl, rfl, fun x page body => (State.reg_setRegN ..).trans (if_neg (by omega))⟩
theorem emit_leavesSite (s : State) (o : Output) : LeavesSite s (s.emit o) := ⟨rfl, rfl, rfl, rfl, fun _ _ _ => rfl⟩
theorem countEv_leavesSite (s : State) {pg : Nat} (ev n : Nat) (base : pg % 0x1000 = 0) : LeavesSite s (s.countEv pg ev n) :=
  .ite (setRegN_leavesSite _ _ (by omega)) (.refl s)
theorem krdyEdge_leavesSite (was : Bool) (s : State) : LeavesSite s (krdyEdge was s) :=
  .ite ((emit_leavesSite ..).trans (countEv_leavesSite _ _ _ rfl)) (.ite (emit_leavesSite ..) (.refl s))
theorem attend_leavesSite (s : State) (n : Nat) : LeavesSite s (s.attend n) :=
  (setRegN_leavesSite _ _ (by decide)).trans (krdyEdge_leavesSite ..)
theorem raise_leavesSite (s : State) {pg : Nat} (bits : Nat) (base : pg % 0x1000 = 0) : LeavesSite s (s.raise pg bits) := by
  have recorded : ∀ {p : Prop} [Decidable p] (v w : Nat),
      LeavesSite s (if p then (s.setRegN (pg + 0x18) v).setRegN (pg + 0x24) w else s.setRegN (pg + 0x18) v) :=
    fun v w => .ite ((setRegN_leavesSite s v (by omega)).trans (setRegN_leavesSite _ w (by omega)))
      (setRegN_leavesSite s v (by omega))
  exact .ite ((recorded _ _).trans (attend_leavesSite ..)) (recorded _ _)
theorem err_leavesSite (s : State) {pg : Nat} (i : Nat) (base : pg % 0x1000 = 0) : LeavesSite s (s.err pg i) :=
  raise_leavesSite s _ base
theorem acked_leavesSite (s : State) (a : Nat) : LeavesSite s (s.acked a) :=
  (((setRegN_leavesSite s _ (by decide)).trans (setRegN_leavesSite _ _ (by decide))).trans
    (.ite (countEv_leavesSite _ _ _ (by unfold pageOf; omega)) (.refl _))).trans (emit_leavesSite ..)

end Sys2Proof.Machine
end

section
/-! How TIME_STATE moves (13 Table 13-2), and what a write of TIME_CTRL and of TIME_HOLD_MAX does. -/
namespace Sys2Proof.Machine
open Sys2Proof

/-! ### TIME_STATE -/

theorem tState_setRegN (s : State) {v : Nat} (code : v < 8) : (s.setRegN 0x100050 v).tState = v := by
  unfold State.tState State.regF fld nfld
  rw [State.reg_setRegN, if_pos rfl, BitVec.toNat_ofNat]
  omega

theorem tickHold_regs (s : State) : s.tickHold.regs = s.regs := by unfold State.tickHold; split <;> rfl
theorem tickHold_exch (s : State) : s.tickHold.time.exch = s.time.exch := by unfold State.tickHold; split <;> rfl
theorem tState_tickHold (s : State) : s.tickHold.tState = s.tState := by
  unfold State.tState State.regF State.reg
  rw [tickHold_regs]

theorem tState_setRate (s : State) (r : Int) : (s.setRate r).tState = s.tState :=
  congrArg (fld · 0 3) ((State.reg_setRegN ..).trans (if_neg (by decide)))

theorem setTime_locked (s : State) : s.setTime tLocked =
    State.tickHold { s.setRegN 0x100050 tLocked with time := { s.time with slewN := 0, rfLocked := s.time.rf } } := rfl

/-- TIME_STATE holds the code that it was moved to, and the move ends no exchange. -/
theorem setTime_moves (s : State) {v : Nat} (code : v < 8) : (s.setTime v).tState = v ∧ (s.setTime v).time.exch = s.time.exch := by
  have enters := tState_setRegN s code
  unfold State.setTime
  rw [tState_tickHold, tickHold_exch]
  dsimp only
  split
  · have flagged := fun t : State => err_leavesSite t (pg := 0x100000) 10 rfl
    exact ⟨(flagged _).tState.trans ((tState_setRate ..).trans enters), (congrArg TimeSt.exch (flagged _).time).trans rfl⟩
  · split
    · exact ⟨(tState_setRate ..).trans enters, rfl⟩
    · split <;> exact ⟨enters, rfl⟩

theorem ktime_setTime (s : State) (v : Nat) : (s.setTime v).time.ktime = s.time.ktime :=
  (State.setTime_keeps (.refl s) v).ktime

/-! ### TIME_CTRL and TIME_HOLD_MAX -/

theorem exec_syncEn {s : State} (up : s.hostUp = true) (v : W32) :
    exec (.syncEn v) s = .next ((timeCtrl v (s.locked 0x100000)).acked 0x10004C) :=
  congrArg done (body_write (t := timeCtrl v (s.locked 0x100000)) up (by decide) (by decide) (by decide) (by decide) (.inl rfl) rfl)
theorem exec_timeHoldMax {s : State} (up : s.hostUp = true) (v : W32) :
    exec (.timeHoldMax v) s = .next ((timeHoldMax v (s.locked 0x100000)).acked 0x100064) :=
  congrArg done (body_write (t := timeHoldMax v (s.locked 0x100000)) up (by decide) (by decide) (by decide) (by decide)
    (.inl rfl) rfl)

section
variable {s : State} {v : W32}

theorem timeCtrl_stops (off : bit v 0 = false) (runs : s.syncEn = true) :
    timeCtrl v s = (s.setReg 0x10004C (v &&& 3)).syncOff :=
  (if_neg (by simp [off])).trans (if_pos (by simp [off, runs]))
theorem timeCtrl_starts (on : bit v 0 = true) (rests : s.syncEn = false) :
    timeCtrl v s = (s.setReg 0x10004C (v &&& 3)).syncOn := if_pos (by simp [on, rests])
theorem timeCtrl_goesOn (same : bit v 0 = s.syncEn) : timeCtrl v s = (s.setReg 0x10004C (v &&& 3)).tickHold :=
  (if_neg (by simp [same])).trans (if_neg (by simp [same]))

theorem timeHoldMax_takes (least : 1 ≤ v.toNat % 256) (most : v.toNat % 256 ≤ 200) :
    timeHoldMax v s = holdMax (s.setRegN 0x100064 (v.toNat % 256)) :=
  if_neg (by simp only [Bool.or_eq_true, decide_eq_true_eq]; omega)
theorem timeHoldMax_refuses (outside : v.toNat % 256 = 0 ∨ 200 < v.toNat % 256) : timeHoldMax v s = s.err 0x100000 11 :=
  if_pos (by simp only [Bool.or_eq_true, decide_eq_true_eq]; omega)

end

theorem syncOff_ends (s : State) :
    s.syncOff.tState = tFree ∧ s.syncOff.time.exch = none ∧ s.syncOff.time.ktime = s.time.ktime :=
  ⟨(setTime_moves s (by decide)).1, rfl, ktime_setTime s tFree⟩

/-- The state that SYNC_EN leads to: ROOT for the package that TIME_PARENT names, unless it took that ID over and locks to
TIME_ALT (13 R364, Table 13-2). -/
def State.syncStart (s : State) : Nat :=
  if s.regN 0x100054 = s.node ∧ (s.grd.adopted = none ∨ s.regN 0x100058 = s.node) then tRoot
  else if s.live.any s.cActive then tSlewing else tAcquiring

theorem syncOn_ends (s : State) : s.syncOn.tState = s.syncStart ∧ s.syncOn.time.ktime = s.time.ktime := by
  have moves : ∀ (t : State) {v : Nat}, v < 8 → (t.setTime v).tState = v ∧ (t.setTime v).time.ktime = t.time.ktime :=
    fun t _ code => ⟨(setTime_moves t code).1, ktime_setTime t _⟩
  have isRoot : (s.regN 0x100054 == s.node
      && !(s.regN 0x100054 == s.node && s.grd.adopted.isSome && s.regN 0x100058 != s.node)) = true ↔
      s.regN 0x100054 = s.node ∧ (s.grd.adopted = none ∨ s.regN 0x100058 = s.node) := by
    cases s.grd.adopted with
    | none => simp
    | some _ =>
      simp only [Option.isSome_some, Bool.and_true, Bool.and_eq_true, beq_iff_eq, reduceCtorEq, false_or]
      refine and_congr_right fun own => ?_
      simp [own]
  unfold State.syncOn State.syncStart
  by_cases root : s.regN 0x100054 = s.node ∧ (s.grd.adopted = none ∨ s.regN 0x100058 = s.node)
  · rw [if_pos root]
    dsimp only
    rw [if_pos (isRoot.2 root)]
    exact moves _ (by decide)
  · rw [if_neg root]
    dsimp only
    rw [if_neg (mt isRoot.1 root)]
    by_cases active : s.live.any s.cActive = true
    · rw [if_pos active]
      exact (if_pos active).symm ▸ moves _ (by decide)
    · rw [if_neg active]
      exact (if_neg active).symm ▸ moves _ (by decide)

/-- Settles O24: TIME_CTRL by its bit 0 and SYNC_EN before, TIME_HOLD_MAX by its range. -/
theorem timeRegisters : Obligations.TimeRegisters := by
  intro s v up u w
  have writes : ∀ {t}, timeCtrl v u = t → exec (.syncEn v) s = .next (t.acked 0x10004C) :=
    fun gives => (exec_syncEn up v).trans (congrArg (fun t : State => done (t.acked 0x10004C)) gives)
  have limits : ∀ {t}, timeHoldMax v u = t → exec (.timeHoldMax v) s = .next (t.acked 0x100064) :=
    fun gives => (exec_timeHoldMax up v).trans (congrArg (fun t : State => done (t.acked 0x100064)) gives)
  have sees : ∀ t : State, (t.acked 0x10004C).tState = t.tState ∧ (t.acked 0x10004C).time = t.time :=
    fun t => ⟨(acked_leavesSite t _).tState, (acked_leavesSite t _).time⟩
  refine ⟨fun off runs => ?_, fun on rests => ?_, fun same => writes (timeCtrl_goesOn (s := u) same),
    fun least most => limits (timeHoldMax_takes least most), fun outside => limits (timeHoldMax_refuses outside)⟩
  · obtain ⟨state, exch, ktime⟩ := syncOff_ends w
    obtain ⟨seesState, seesTime⟩ := sees w.syncOff
    exact ⟨writes (timeCtrl_stops (s := u) off runs), seesState.trans state, (congrArg TimeSt.exch seesTime).trans exch,
      (congrArg TimeSt.ktime seesTime).trans ktime⟩
  · obtain ⟨state, ktime⟩ := syncOn_ends w
    obtain ⟨seesState, seesTime⟩ := sees w.syncOn
    have other : ∀ a, a ≠ 0x10004C → w.regN a = s.regN a :=
      fun a ha => congrArg BitVec.toNat ((State.reg_setReg ..).trans (if_neg ha))
    have node : w.node = s.node := congrArg (fld · 0 18) ((State.reg_setReg ..).trans (if_neg (by decide)))
    have start : w.syncStart = s.syncStart := by
      unfold State.syncStart
      rw [other _ (by decide), other _ (by decide), node]
      rfl
    exact ⟨writes (timeCtrl_starts (s := u) on rests), seesState.trans (state.trans start),
      (congrArg TimeSt.ktime seesTime).trans ktime⟩

end Sys2Proof.Machine
end

section
/-! A valid time exchange, and that KTIME steps only where one acquires it or a cold reset starts it (13 R365). -/
namespace Sys2Proof.Machine
open Sys2Proof

/-! ### Acquiring time -/

/-- KTIME, the two loss timers and the last crossing of KTICK step together (13 R365). -/
def State.stepped (s : State) (offset : Int) : State :=
  let k := unsgn 64 ((s.time.ktime : Int) - offset)
  { s with time := { s.time with ktime := k, lastOk := k, parentOk := k, tick := k / 2 ^ 21 } }

theorem acquire_eq (s : State) (offset : Int) :
    s.acquire offset = (((s.stepped offset).bump 0x100074 1).err 0x100000 8).setTime tLocked := rfl

theorem regN_bump_same (s : State) (a n : Nat) : (s.bump a n).regN a = satAdd 32 (s.regN a) n := by
  refine (regN_setRegN ..).trans ((if_pos rfl).trans (Nat.mod_eq_of_lt ?_))
  unfold satAdd
  omega

theorem regN_setTime_locked (s : State) {a : Nat} (other : a ≠ 0x100050) : (s.setTime tLocked).regN a = s.regN a := by
  unfold State.regN State.reg
  rw [setTime_locked, tickHold_regs]
  exact congrArg BitVec.toNat ((State.reg_setRegN ..).trans (if_neg other))

/-- STEPPED of TIME 0 reads 1 once it is raised. -/
theorem stepped_flagged (s : State) : ((s.err 0x100000 8).regN 0x100018).testBit 8 = true := by
  have flags := (regN_raise_all s 0x100000 (2 ^ 8) ⟨0x100000, 0x3, 0xF0F, false⟩ rfl rfl).1
  rw [State.err, flags, Nat.testBit_or]
  exact Bool.or_eq_true_iff.2 (.inr (by decide))

/-- Acquiring time steps KTIME, counts the step, sets STEPPED and leads to LOCKED (13 R365). -/
theorem acquire_ends (s : State) (offset : Int) :
    (s.acquire offset).tState = tLocked ∧ (s.acquire offset).time.exch = s.time.exch
      ∧ (s.acquire offset).time.ktime = unsgn 64 ((s.time.ktime : Int) - offset)
      ∧ (s.acquire offset).regN 0x100074 = satAdd 32 (s.regN 0x100074) 1
      ∧ ((s.acquire offset).regN 0x100018).testBit 8 = true := by
  have flagged := err_leavesSite ((s.stepped offset).bump 0x100074 1) (pg := 0x100000) 8 rfl
  rw [acquire_eq, regN_setTime_locked _ (by decide), regN_setTime_locked _ (by decide), ktime_setTime]
  obtain ⟨state, exch⟩ := setTime_moves (((s.stepped offset).bump 0x100074 1).err 0x100000 8) (v := tLocked) (by decide)
  exact ⟨state, exch.trans ((congrArg TimeSt.exch flagged.time).trans rfl), (congrArg TimeSt.ktime flagged.time).trans rfl,
    (flagged.regN _ (by decide) (by decide)).trans (regN_bump_same ..), stepped_flagged _⟩

/-! ### Exchanges that end -/

theorem exchLost_some {s : State} {x : Exch} (runs : s.time.exch = some x) :
    s.exchLost = State.countEv { s with time := { s.time with exch := none } } 0x100000 0x11 1 := by
  unfold State.exchLost
  rw [runs]
/-- A lost exchange is gone from the time unit, which else is as it was. -/
theorem time_exchLost (s : State) : s.exchLost.time = { s.time with exch := none } := by
  unfold State.exchLost
  split
  · rename_i idle
    rw [← idle]
  · exact (countEv_leavesSite _ (pg := 0x100000) _ _ rfl).time

/-- A valid exchange is over and counted, and its offset is in TIME_OFFSET (13 R363). -/
def State.exchTaken (s : State) (src : Nat) (offset : Int) : State :=
  let parent := src == s.regN 0x100054
  let s1 := { s with time := { s.time with
    exch := none, lastOk := s.time.ktime, onAlt := !parent,
    parentOk := if parent then s.time.ktime else s.time.parentOk } }
  (s1.countEv 0x100000 0x10 1).setRegN 0x100068 (unsgn 32 offset)
/-- The state before the offset acts: a first exchange with TIME_ALT is counted too (13 R364). -/
def State.exchCounted (s : State) (src : Nat) (offset : Int) : State :=
  if !(src == s.regN 0x100054) && !s.time.onAlt then (s.exchTaken src offset).countEv 0x100000 0x12 1
  else s.exchTaken src offset

theorem exchTaken_leaves (s : State) (src : Nat) (offset : Int) :
    (s.exchTaken src offset).time.exch = none ∧ (s.exchTaken src offset).time.ktime = s.time.ktime
      ∧ (s.exchTaken src offset).regN 0x100074 = s.regN 0x100074 := by
  have counted := fun t : State => countEv_leavesSite t (pg := 0x100000) 0x10 1 rfl
  unfold State.exchTaken
  rw [State.setRegN_time, (counted _).time, regN_setRegN, if_neg (show ¬ 0x100074 = 0x100068 by decide),
    (counted _).regN _ (by decide) (by decide)]
  exact ⟨rfl, rfl, rfl⟩
theorem exchCounted_leaves (s : State) (src : Nat) (offset : Int) :
    (s.exchCounted src offset).time.exch = none ∧ (s.exchCounted src offset).time.ktime = s.time.ktime
      ∧ (s.exchCounted src offset).regN 0x100074 = s.regN 0x100074 := by
  have counted : LeavesSite (s.exchTaken src offset) (s.exchCounted src offset) := .ite (countEv_leavesSite _ _ _ rfl) (.refl _)
  rw [counted.time, counted.regN _ (by decide) (by decide)]
  exact exchTaken_leaves s src offset

theorem exchOk_acquires {s : State} (acquires : s.tState = tAcquiring) (src log2 : Nat) (offset : Int) :
    s.exchOk src log2 offset = (s.exchCounted src offset).acquire offset := if_pos acquires
theorem exchOk_elsewhere {s : State} (other : s.tState ≠ tAcquiring) (src log2 : Nat) (offset : Int) :
    s.exchOk src log2 offset =
      let near := decide (-2000 ≤ offset ∧ offset ≤ 2000)
      let t := (s.exchCounted src offset).newRate log2 offset
      if s.tState = tHoldover || (s.tState = tLocked && !near) then t.setTime tSlewing
      else if s.tState = tSlewing then t.slew near
      else t := if_neg other

theorem slew_leaves (s : State) (near : Bool) :
    (s.slew near).time.exch = s.time.exch ∧ (s.slew near).time.ktime = s.time.ktime := by
  unfold State.slew
  dsimp only
  generalize (if near = true then s.time.slewN + 1 else 0) = n
  split
  · exact ⟨(setTime_moves s (by decide)).2, ktime_setTime ..⟩
  · exact ⟨rfl, rfl⟩

/-- Outside ACQUIRING a valid exchange is over too, and KTIME keeps its count (13 R366). -/
theorem exchOk_steers {s : State} (other : s.tState ≠ tAcquiring) (src log2 : Nat) (offset : Int) :
    (s.exchOk src log2 offset).time.exch = none ∧ (s.exchOk src log2 offset).time.ktime = s.time.ktime := by
  obtain ⟨ends, ktime, -⟩ := exchCounted_leaves s src offset
  rw [exchOk_elsewhere other]
  dsimp only
  split
  · exact ⟨(setTime_moves _ (by decide)).2.trans ends, (ktime_setTime ..).trans ktime⟩
  · split
    · obtain ⟨exch, kept⟩ := slew_leaves ((s.exchCounted src offset).newRate log2 offset)
        (decide (-2000 ≤ offset ∧ offset ≤ 2000))
      exact ⟨exch.trans ends, kept.trans ktime⟩
    · exact ⟨ends, ktime⟩

/-! ### Delay_Resp -/

/-- Delay_Resp finds no exchange of its own, or one that it ends too late, or one that it makes valid (13 R363). -/
theorem delayResp_cases (src dom seq t4 : Nat) (s : State) :
    delayResp src dom seq t4 s = s ∨ delayResp src dom seq t4 s = s.exchLost
      ∨ ∃ log2 offset, delayResp src dom seq t4 s = s.exchOk src log2 offset := by
  unfold delayResp
  split
  · exact .inl rfl
  · split
    · split
      · exact .inl rfl
      · split
        · exact .inr (.inl rfl)
        · exact .inr (.inr ⟨_, _, rfl⟩)
    · exact .inl rfl

/-- Where Delay_Resp moves KTIME, it has acquired time. -/
theorem delayResp_steps {src dom seq t4 : Nat} {s : State}
    (steps : (delayResp src dom seq t4 s).time.ktime ≠ s.time.ktime) : s.tState = tAcquiring
      ∧ ∃ offset, delayResp src dom seq t4 s = (s.exchCounted src offset).acquire offset := by
  rcases delayResp_cases src dom seq t4 s with same | lost | ⟨log2, offset, valid⟩
  · exact absurd (by rw [same]) steps
  · exact absurd (by rw [lost, time_exchLost]) steps
  · have acquires : s.tState = tAcquiring := by
      by_contra other
      exact steps (by rw [valid, (exchOk_steers other src log2 offset).2])
    exact ⟨acquires, offset, valid.trans (exchOk_acquires acquires ..)⟩

/-! ### The commands that leave KTIME -/

theorem ktime_keyEnds (op : Nat) (s : State) : (keyEnds op s).time.ktime = s.time.ktime := by
  unfold keyEnds
  dsimp only
  split
  · rfl
  · split <;> exact (State.cmdEnd_keeps (.refl _) _).ktime

theorem ktime_setPower (s : State) (v : Nat) : (s.setPower v).time.ktime = s.time.ktime := rfl
theorem ktime_sramClear (s : State) : s.sramClear.time.ktime = s.time.ktime := rfl
theorem ktime_enterPark (s : State) : s.enterPark.time.ktime = s.time.ktime := by
  have closed := (Keeps.foldl (b := s) (fun t p => t.portBad p) (fun _ _ k => State.portBad_keeps k _) (List.range 16) s
    (.refl s)).ktime
  have settled := fun t : State => (Keeps.foldl (b := t) (fun t k => t.settle (k / 64) (k % 64) .absent)
    (fun _ _ k => State.settle_keeps k _ _ _) parkXings t (.refl t)).ktime
  have parked := fun t : State => (State.timeParks_keeps (.refl t)).ktime
  unfold State.enterPark
  rw [ktime_setPower, parked, settled, ktime_sramClear, closed]

theorem ktime_powerDone (s : State) : (powerDone s).time.ktime = s.time.ktime := by
  unfold powerDone
  split
  · rfl
  · split
    · exact (State.cmdEnd_keeps (.refl _) _).ktime.trans (ktime_enterPark s)
    · split
      · exact (State.cmdEnd_keeps (State.timeWakes_keeps (.refl (s.setPower 0))) _).ktime
      · rfl

theorem ktime_blockReset (s : State) (epoch : Nat) (t : TimeSt) : (s.blockReset epoch t).time.ktime = t.ktime := by
  unfold State.blockReset
  dsimp only
  split <;> split <;> rfl

theorem ktime_pulse (s : State) (least cycles : Nat) : (s.pulse least cycles).2.time.ktime = s.time.ktime := by
  unfold State.pulse
  split <;> rfl
/-- A warm reset keeps KTIME counting (02 R50). -/
theorem ktime_warmReset (cycles : Nat) (s : State) : (warmReset cycles s).time.ktime = s.time.ktime := by
  have pulsed := ktime_pulse s 100 cycles
  unfold warmReset
  split
  · rfl
  · generalize s.pulse 100 cycles = pulse at pulsed ⊢
    obtain ⟨resets, s1⟩ := pulse
    dsimp only
    split
    · exact ktime_blockReset ..
    · exact (State.krdyDip_keeps (.refl s1)).ktime.trans pulsed

/-- Only COLD_RESET and DELAY_RESP move KTIME. -/
theorem exec_ktime {c : Instr} {s t : State} (runs : exec c s = .next t) (warm : c ≠ .coldReset)
    (other : ∀ src dom seq t4, c ≠ .delayResp src dom seq t4) : t.time.ktime = s.time.ktime := by
  cases moves : movesTimeOrKeys c with
  | false => exact (exec_keeps runs moves).ktime
  | true =>
    cases c with
    | keyLoad ph =>
      cases runs
      cases ph with
      | doorbell => exact (kcpWrite_keeps (.refl _) _ _).ktime
      | ends => exact ktime_keyEnds ..
    | keyErase ph =>
      cases runs
      cases ph with
      | doorbell => exact (kcpWrite_keeps (.refl _) _ _).ktime
      | ends => exact ktime_keyEnds ..
    | powerStateDone => cases runs; exact ktime_powerDone s
    | coldReset => exact absurd rfl warm
    | warmReset cycles => cases runs; exact ktime_warmReset cycles s
    | delayResp src dom seq t4 => exact absurd rfl (other src dom seq t4)
    | _ => cases moves

/-- Settles O31: of the commands that may move KTIME, a valid Delay_Resp does so in ACQUIRING alone. -/
theorem ktimeSteps : Obligations.KtimeSteps := by
  intro c s t runs
  refine ⟨exec_ktime runs, fun steps warm => ?_⟩
  by_cases resp : ∃ src dom seq t4, c = .delayResp src dom seq t4
  · obtain ⟨src, dom, seq, t4, rfl⟩ := resp
    cases runs
    obtain ⟨acquires, offset, valid⟩ := delayResp_steps steps
    obtain ⟨state, -, -, count, flag⟩ := acquire_ends (s.exchCounted src.toNat offset) offset
    rw [valid]
    exact ⟨acquires, state, count.trans (congrArg (satAdd 32 · 1) (exchCounted_leaves ..).2.2), flag⟩
  · exact absurd (exec_ktime runs warm fun src dom seq t4 is => resp ⟨src, dom, seq, t4, is⟩) steps

end Sys2Proof.Machine
end

section
/-! What the messages and timers of the time unit do: SYNC_INTERVAL, the four messages of an exchange, the loss of the parent, and
the end of a holdover (13 R362 to R368). -/
namespace Sys2Proof.Machine
open Sys2Proof

/-! ### The exchange -/

section
variable {s : State} {src dom seq cycles : Nat}

/-- A parent that serves sends Sync and Follow_Up once the interval has passed since its last Sync to the child (13 R362). -/
theorem syncInterval_sends (serves : s.serves = true)
    (due : ∀ a, s.time.syncAt.get (fun _ => none) src = some a → a + syncUnits (s.regN 0x10005C) ≤ s.time.ktime) :
    syncInterval src cycles s =
      let q := s.time.syncSeq
      let s1 := { s with time := { s.time with
        syncSeq := (q + 1) % 65536, syncAt := s.time.syncAt.set (fun _ => none) src (some s.time.ktime) } }
      (s1.sendPtp src 0 q (s.regN 0x100060) 0).sendPtp src 1 q (s.regN 0x100060) (s.stamp cycles) := by
  unfold syncInterval
  refine (if_neg ?_).trans rfl
  cases last : s.time.syncAt.get (fun _ => none) src with
  | none => simp [serves]
  | some a => simp [serves, due a last]

/-- A Sync is the start of an exchange: time is not held, the package follows a server, and the message is from one that it takes,
in its domain, through a port (13 R363, 01 R22). -/
structure State.SyncNext (s : State) (src dom : Nat) : Prop where
  enabled : s.syncEn = true
  unheld : s.timeHeld = false
  follows : s.tState ≠ tFree ∧ s.tState ≠ tRoot
  foreign : src ≠ s.node
  taken : s.takesFrom src = true
  domain : dom = s.regN 0x100060
  port : s.ptpPort.isSome = true

theorem syncRx_starts (next : s.SyncNext src dom) : syncRx src dom seq cycles s =
    { s.exchLost with time := { s.time with
      exch := some ⟨src, seq, dom, s.regN 0x10005C, s.stamp cycles, none, none⟩ } } := by
  obtain ⟨enabled, unheld, ⟨free, root⟩, foreign, taken, domain, port⟩ := next
  have starts : syncRx src dom seq cycles s = { s.exchLost with time := { s.exchLost.time with
      exch := some ⟨src, seq, dom, s.regN 0x10005C, s.stamp cycles, none, none⟩ } } :=
    if_neg (by simp [enabled, unheld, free, root, foreign, taken, domain, Option.isSome_iff_ne_none.1 port])
  rw [starts, time_exchLost]

theorem delayReq_answered (serves : s.serves = true) (domain : dom = s.regN 0x100060) :
    delayReq src dom seq cycles s = s.sendPtp src 3 seq dom (s.stamp cycles) := if_neg (by simp [serves, domain])

/-- A message belongs to the exchange in progress: its server, domain and sequenceId (13 R363). -/
structure Exch.Answers (x : Exch) (src dom seq : Nat) : Prop where
  src : x.src = src
  dom : x.dom = dom
  seq : x.seq = seq

variable {x : Exch} (runs : s.time.exch = some x) (answers : x.Answers src dom seq) (port : s.ptpPort.isSome = true)
include runs answers port

/-- The Follow_Up of an exchange records t1 and sends Delay_Req at t3 (13 R363). -/
theorem followUp_asks (unknown : x.t1 = none) (t1 : Nat) : followUp src dom seq t1 cycles s =
    State.sendPtp { s with time := { s.time with exch := some { x with t1 := some t1, t3 := some (s.stamp cycles) } } }
      src 2 seq dom (s.stamp cycles) := by
  obtain ⟨src, dom, seq⟩ := answers
  unfold followUp
  rw [runs]
  exact if_neg (by simp [src, dom, seq, unknown, Option.isSome_iff_ne_none.1 port])

variable {t1 t3 : Nat} (sent : x.t1 = some t1) (asked : x.t3 = some t3)
include sent asked

/-- A Delay_Resp that comes too late ends its exchange (13 R363). -/
theorem delayResp_late (late : t3 + syncUnits x.log2 < s.time.ktime) (t4 : Nat) : delayResp src dom seq t4 s = s.exchLost := by
  obtain ⟨src, dom, seq⟩ := answers
  unfold delayResp
  rw [runs]
  simp only [sent, asked]
  exact (if_neg (by simp [src, dom, seq, Option.isSome_iff_ne_none.1 port])).trans (if_pos late)
/-- A Delay_Resp in time makes its exchange valid (13 R363). -/
theorem delayResp_valid (inTime : s.time.ktime ≤ t3 + syncUnits x.log2) (t4 : Nat) : delayResp src dom seq t4 s =
    s.exchOk src x.log2 ((((x.t2 : Int) - t1) - ((t4 : Int) - t3)) / 2) := by
  obtain ⟨src, dom, seq⟩ := answers
  unfold delayResp
  rw [runs]
  simp only [sent, asked]
  exact (if_neg (by simp [src, dom, seq, Option.isSome_iff_ne_none.1 port])).trans (if_neg (Nat.not_lt.2 inTime))

end

/-- A valid exchange is over; its offset steps KTIME in ACQUIRING, which leads to LOCKED, and nowhere else (13 R365). -/
theorem exchOk_ends (s : State) (src log2 : Nat) (offset : Int) : (s.exchOk src log2 offset).time.exch = none
    ∧ (s.tState = tAcquiring → (s.exchOk src log2 offset).time.ktime = unsgn 64 ((s.time.ktime : Int) - offset)
      ∧ (s.exchOk src log2 offset).tState = tLocked)
    ∧ (s.tState ≠ tAcquiring → (s.exchOk src log2 offset).time.ktime = s.time.ktime) := by
  by_cases acquires : s.tState = tAcquiring
  · obtain ⟨counted, kept, -⟩ := exchCounted_leaves s src offset
    obtain ⟨state, exch, ktime, -⟩ := acquire_ends (s.exchCounted src offset) offset
    rw [exchOk_acquires acquires]
    rw [kept] at ktime
    exact ⟨exch.trans counted, fun _ => ⟨ktime, state⟩, fun other => absurd acquires other⟩
  · obtain ⟨ended, ktime⟩ := exchOk_steers acquires src log2 offset
    exact ⟨ended, fun other => absurd other acquires, fun _ => ktime⟩

/-! ### The loss of the parent -/

section
variable {s : State} {alt : Bool} (silent : s.time.parentOk + lossUnits ≤ s.time.ktime)
include silent

/-- In ACQUIRING and UNFIT the package may turn to TIME_ALT, and does nothing else (13 R364). -/
theorem syncLoss_unsynced (state : s.tState = tAcquiring ∨ s.tState = tUnfit) (answers : alt = true)
    (onParent : s.time.onAlt = false) (other : s.regN 0x100058 ≠ s.node) : syncLoss alt s = s.toAlt :=
  (if_neg (Nat.not_lt.2 silent)).trans ((if_pos (by simpa using state)).trans (if_pos (by simp [answers, onParent, other])))

variable (state : s.tState = tLocked ∨ s.tState = tSlewing)
include state

theorem syncLoss_synced : syncLoss alt s =
    if s.regN 0x100058 = s.node then s.exchLost.setTime tRoot
    else if alt && !s.time.onAlt then s.toAlt
    else if s.time.lastOk + lossUnits ≤ s.time.ktime then s.exchLost.setTime tHoldover
    else s := by
  refine (if_neg (Nat.not_lt.2 silent)).trans ((if_neg ?_).trans (if_neg ?_))
  all_goals rcases state with state | state <;> rw [state] <;> decide

theorem syncLoss_root (own : s.regN 0x100058 = s.node) : syncLoss alt s = s.exchLost.setTime tRoot :=
  (syncLoss_synced silent state).trans (if_pos own)
theorem syncLoss_toAlt (other : s.regN 0x100058 ≠ s.node) (answers : alt = true) (onParent : s.time.onAlt = false) :
    syncLoss alt s = s.toAlt :=
  (syncLoss_synced silent state).trans ((if_neg other).trans (if_pos (by simp [answers, onParent])))
theorem syncLoss_holdover (other : s.regN 0x100058 ≠ s.node) (neither : alt = false ∨ s.time.onAlt = true)
    (lost : s.time.lastOk + lossUnits ≤ s.time.ktime) : syncLoss alt s = s.exchLost.setTime tHoldover := by
  refine (syncLoss_synced silent state).trans ((if_neg other).trans ((if_neg ?_).trans (if_pos lost)))
  rcases neither with no | turned
  · simp [no]
  · simp [turned]

end

/-! ### The end of a holdover -/

/-- A holdover that has lasted TIME_HOLD_MAX ends in UNFIT; a member of a job reports itself and is fenced (13 R367, R368). -/
theorem holdMax_ends {s : State} (held : s.tState = tHoldover)
    (reached : s.time.holdAt + s.regN 0x100064 * 2000000000 ≤ s.time.ktime) : holdMax s =
    let u := (s.setTime tUnfit).err 0x100000 9
    if s.inJob then (u.sendFailrep u.node true).fence else u := if_neg (by simp [held, Nat.not_lt.2 reached])
theorem holdMax_waits {s : State} (within : s.time.ktime < s.time.holdAt + s.regN 0x100064 * 2000000000) : holdMax s = s :=
  if_pos (by simp [within])

/-- Settles O58: each message and each timer of the time unit by what it finds. -/
theorem timeExchangesSteerTheClock : Obligations.TimeExchangesSteerTheClock := by
  intro s src dom seq pt cycles alt x t1 t3 q d k gap offset mine
  refine ⟨fun serves due => congrArg done (syncInterval_sends serves due),
    fun enabled unheld free root foreign taken domain port =>
      congrArg done (syncRx_starts ⟨enabled, unheld, ⟨free, root⟩, foreign, taken, domain, port⟩),
    fun runs ⟨isSrc, isDom, isSeq⟩ => ?_,
    fun serves domain => congrArg done (delayReq_answered serves domain), rfl,
    fun state silent => ⟨fun own => congrArg done (syncLoss_root silent state own),
      fun other answers onParent => congrArg done (syncLoss_toAlt silent state other answers onParent),
      fun other neither lost => congrArg done (syncLoss_holdover silent state other neither lost)⟩,
    fun state silent answers onParent other => congrArg done (syncLoss_unsynced silent state answers onParent other),
    fun held reached => congrArg done (holdMax_ends held reached), fun _ within => congrArg done (holdMax_waits within)⟩
  have answers : x.Answers src.toNat dom.toNat seq.toNat := ⟨isSrc, isDom, isSeq⟩
  refine ⟨fun unknown port => congrArg done (followUp_asks runs answers port unknown _), fun sent asked port => ⟨fun late => ?_,
    fun inTime => ⟨_, congrArg done (delayResp_valid runs answers port sent asked inTime _), exchOk_ends ..⟩⟩⟩
  exact congrArg done ((delayResp_late runs answers port sent asked late _).trans (exchLost_some runs))

end Sys2Proof.Machine
end

section
/-! What a rising edge of KREF and a crossing of KTICK do: KTIME's count and its fraction, and the level of KTICK (13 R359, R371). -/
namespace Sys2Proof.Machine
open Sys2Proof

/-! ### KREF -/

/-- The fraction units below KTIME after one more edge of KREF: those held and 20 × (1 + r) units (13 R359). -/
def State.krefUnits (s : State) : Nat := ((s.time.frac : Int) + 20 * (2 ^ 40 + s.rate)).toNat

/-- An edge of KREF moves KTIME, its fraction and the count of edges that KTICK stays high, and drives KTICK low at its end. -/
theorem krefEdge_leaves (s : State) : krefEdge s = { s with
    time := { s.time with ktime := (krefEdge s).time.ktime, frac := (krefEdge s).time.frac, tickHigh := s.time.tickHigh - 1 },
    out := if s.time.tickHigh = 1 then .ktick false :: s.out else s.out } := by
  unfold krefEdge
  by_cases last : s.time.tickHigh = 1
  · simp only [if_pos last]
    rfl
  · simp only [if_neg last]

theorem time_krefEdge (s : State) : (krefEdge s).time = { s.time with
    ktime := (((s.time.ktime * 2 ^ 40 + s.time.frac : Nat) : Int) + 20 * (2 ^ 40 + s.rate)).toNat / 2 ^ 40 % 2 ^ 64,
    frac := (((s.time.ktime * 2 ^ 40 + s.time.frac : Nat) : Int) + 20 * (2 ^ 40 + s.rate)).toNat % 2 ^ 40,
    tickHigh := s.time.tickHigh - 1 } := by
  unfold krefEdge
  dsimp only
  split <;> rfl

/-- KTIME counts the whole units that the fraction runs over, and the fraction keeps the rest. -/
theorem krefEdge_counts (s : State) (slow : -(2 ^ 40 : Int) < s.rate) :
    (krefEdge s).time.ktime = (s.time.ktime + s.krefUnits / 2 ^ 40) % 2 ^ 64
      ∧ (krefEdge s).time.frac = s.krefUnits % 2 ^ 40 := by
  have sum : (((s.time.ktime * 2 ^ 40 + s.time.frac : Nat) : Int) + 20 * (2 ^ 40 + s.rate)).toNat =
      s.time.ktime * 2 ^ 40 + s.krefUnits := by unfold State.krefUnits; omega
  rw [time_krefEdge, sum]
  constructor <;> dsimp only <;> omega

/-- Settles O27: what an edge leaves, and the whole units of its 20 × (1 + r). -/
theorem emptyQueueTicksKref : Obligations.EmptyQueueTicksKref := by
  intro s idle
  refine ⟨krefEdge s, by unfold step; rw [idle], krefEdge_leaves s, fun fraction slow => ?_⟩
  obtain ⟨ktime, frac⟩ := krefEdge_counts s slow
  have units : ((s.krefUnits : Nat) : Int) = s.time.frac + 20 * (2 ^ 40 + s.rate) := by unfold State.krefUnits; omega
  rw [frac]
  refine ⟨by omega, s.krefUnits / 2 ^ 40, ktime, ?_, fun exact => ?_, fun least most => ?_⟩
  · rw [Nat.div_add_mod' s.krefUnits (2 ^ 40), units]
  · omega
  · omega

/-! ### KTICK -/

section
variable {s : State}

theorem ktick_rests (same : s.time.ktime / 2 ^ 21 = s.time.tick) : ktick s = s := if_pos same

variable (crossed : s.time.ktime / 2 ^ 21 ≠ s.time.tick)
include crossed

theorem ktick_undriven (undriven : s.tickDriven = false) :
    ktick s = { s with time := { s.time with tick := s.time.ktime / 2 ^ 21 } } := by
  have heldLow : State.tickDriven { s with time := { s.time with tick := s.time.ktime / 2 ^ 21 } } = false := undriven
  exact (if_neg crossed).trans (if_pos (by rw [heldLow]; rfl))
/-- KTICK is driven high for 50 cycles, and its rise is counted (13 R371). -/
theorem ktick_rises (driven : s.tickDriven = true) : ktick s = State.emit
    (State.setWide { s with
      time := { s.time with tick := s.time.ktime / 2 ^ 21, tickHigh := 50 },
      dmp := { s.dmp with ticks := s.dmp.ticks + 1 } } 0x100078 ((s.ctl.wide.get (fun _ => 0) 0x100078 + 1) % 2 ^ 48))
    (.ktick true) := by
  have drivenStill : State.tickDriven { s with time := { s.time with tick := s.time.ktime / 2 ^ 21 } } = true := driven
  exact (if_neg crossed).trans (if_neg (by rw [drivenStill]; decide))

end

end Sys2Proof.Machine
end

section
/-! What the Damper's inputs do: curtailment levels, telemetry with the fill that it bounds, and the wear record (13 R382 to R391). -/
namespace Sys2Proof.Machine
open Sys2Proof

/-! ### Curtailment -/

theorem gridWant_eq (s : State) : s.gridWant =
    if s.reg64 0xF00084 ≤ s.time.ktime ∧ s.time.ktime < s.reg64 0xF0008C then s.regN 0xF00080 else 1000 := by
  unfold State.gridWant State.gridOn
  simp only [Bool.and_eq_true, decide_eq_true_eq]

theorem kcurtChange_live {s : State} (live : s.krefLive = true) (level : Bool) :
    kcurtChange level s = State.curtChange { s with dmp := { s.dmp with kcurt := level } } := if_pos live
theorem kcurtChange_closed {s : State} (closed : s.krefLive = false) (level : Bool) : kcurtChange level s = s :=
  if_neg (Bool.eq_false_iff.1 closed)

/-! ### The wear record -/

theorem wearNotice_leaves (s : State) : s.wearNotice.ctl = s.ctl
    ∧ s.wearNotice.dmp = { s.dmp with spentDue := s.wearNotice.dmp.spentDue } := by
  unfold State.wearNotice
  have flagged := err_leavesSite s (pg := 0xF01000) 8 rfl
  split
  · exact ⟨rfl, rfl⟩
  · rw [flagged.dmp]
    exact ⟨flagged.ctl, rfl⟩

/-- Judging the budget moves only whether it is spent and whether its report is due (13 R389). -/
theorem wearCheck_leaves (s : State) : s.wearCheck.ctl = s.ctl
    ∧ s.wearCheck.dmp = { s.dmp with spent := s.wearCheck.dmp.spent, spentDue := s.wearCheck.dmp.spentDue } := by
  unfold State.wearCheck
  dsimp only
  split
  · split
    · obtain ⟨ctl, dmp⟩ := wearNotice_leaves { s with dmp := { s.dmp with spent := true } }
      refine ⟨ctl, ?_⟩
      rw [dmp]
    · exact ⟨rfl, rfl⟩
  · split <;> exact ⟨rfl, rfl⟩

/-- A sample counts, and may count in bin 0 (13 R389). -/
theorem wearSample_leaves (s : State) (excess : Bool) : (s.wearSample excess).ctl = s.ctl
    ∧ (s.wearSample excess).dmp = { s.dmp with
      samples := s.dmp.samples + 1, bins := if excess then binAdd s.dmp.bins else s.dmp.bins,
      spent := (s.wearSample excess).dmp.spent, spentDue := (s.wearSample excess).dmp.spentDue } := by
  obtain ⟨ctl, dmp⟩ := wearCheck_leaves { s with dmp := { s.dmp with
    samples := s.dmp.samples + 1, bins := if excess then binAdd s.dmp.bins else s.dmp.bins } }
  unfold State.wearSample
  dsimp only
  split <;> exact ⟨ctl, dmp⟩

theorem wearAdvance_waits {s : State} (early : s.dmp.samples < 6000000) : wearAdvance s = s := if_pos early
/-- After 6,000,000 samples a new bin starts, and the ring keeps 1,440 (13 R389). -/
theorem wearAdvance_advances {s : State} (due : 6000000 ≤ s.dmp.samples) :
    (wearAdvance s).dmp.samples = s.dmp.samples - 6000000 ∧ (wearAdvance s).dmp.bins = (0 :: s.dmp.bins).take 1440 := by
  have counted := countEv_leavesSite { s with dmp := { s.dmp with
    samples := s.dmp.samples - 6000000, bins := (0 :: s.dmp.bins).take 1440 } } (pg := 0xF01000) 0x10 1 rfl
  have advanced := (wearCheck_leaves (State.countEv { s with dmp := { s.dmp with
    samples := s.dmp.samples - 6000000, bins := (0 :: s.dmp.bins).take 1440 } } 0xF01000 0x10 1)).2
  rw [show wearAdvance s = _ from if_neg (Nat.not_lt.2 due), advanced, counted.dmp]
  exact ⟨rfl, rfl⟩

/-! ### Telemetry -/

/-- The word is the newest of 256, the fill of its interval is counted, and so are invalid words in a row (13 R382, R383). -/
def State.latched (s : State) (word : W32) (hc : Nat) : State :=
  (State.setWide { s with dmp := { s.dmp with
      hist := (word :: s.dmp.hist).take 256, tel := word, bad := if bit word 31 then 0 else s.dmp.bad + 1 } } 0xF00064
    ((s.ctl.wide.get (fun _ => 0) 0xF00064 + if s.dmp.filled then hc else 0) % 2 ^ 48)).countEv 0xF00000 0x10 1
/-- Fill after a word: what the word's power asks for, or, from the tenth invalid word in a row on, none (13 R384). -/
def State.refilled (s : State) (word : W32) : State :=
  if bit word 31 then s.damp (fld word 0 16) s.fillLimit
  else if s.dmp.bad < 10 then s.countEv 0xF00000 0x11 1
  else
    let s1 := State.countEv { s with dmp := { s.dmp with fill := 0 } } 0xF00000 0x11 1
    if s.dmp.bad = 10 then s1.err 0xF00000 8 else s1

theorem latched_leaves (s : State) (word : W32) (hc : Nat) :
    (s.latched word hc).dmp = { s.dmp with
      hist := (word :: s.dmp.hist).take 256, tel := word, bad := if bit word 31 then 0 else s.dmp.bad + 1 }
    ∧ (s.latched word hc).ctl.wide.get (fun _ => 0) 0xF00064 =
      (s.ctl.wide.get (fun _ => 0) 0xF00064 + if s.dmp.filled then hc else 0) % 2 ^ 48
    ∧ (s.latched word hc).fillLimit = s.fillLimit := by
  have counted := fun t : State => countEv_leavesSite t (pg := 0xF00000) 0x10 1 rfl
  unfold State.latched
  refine ⟨(counted _).dmp, ?_, ?_⟩
  · rw [(counted _).ctl]
    exact (SMap.get_set ..).trans (if_pos rfl)
  · unfold State.fillLimit
    rw [(counted _).dmp, (counted _).regN _ (by decide) (by decide), reg_countEv _ _ _ _ _ (by decide)]
    rfl

theorem damp_fill_le (s : State) (p lim : Nat) : (s.damp p lim).dmp.fill ≤ lim := by
  unfold State.damp
  dsimp only
  omega
theorem damp_leaves (s : State) (p lim : Nat) :
    (s.damp p lim).dmp = { s.dmp with fill := (s.damp p lim).dmp.fill, tgt := (s.damp p lim).dmp.tgt } := rfl

/-- Only fill and its target move with a word (13 R384). -/
theorem refilled_leaves (s : State) (word : W32) : (s.refilled word).ctl = s.ctl
    ∧ (s.refilled word).dmp = { s.dmp with fill := (s.refilled word).dmp.fill, tgt := (s.refilled word).dmp.tgt } := by
  have counted := fun t : State => countEv_leavesSite t (pg := 0xF00000) 0x11 1 rfl
  have flagged := fun t : State => err_leavesSite t (pg := 0xF00000) 8 rfl
  unfold State.refilled
  dsimp only
  split
  · exact ⟨rfl, damp_leaves ..⟩
  · split
    · rw [(counted s).dmp]
      exact ⟨(counted s).ctl, rfl⟩
    · split
      · rw [(flagged _).dmp, (counted _).dmp]
        exact ⟨(flagged _).ctl.trans (counted _).ctl, rfl⟩
      · rw [(counted _).dmp]
        exact ⟨(counted _).ctl, rfl⟩

theorem fill_refilled_valid {s : State} {word : W32} (valid : bit word 31 = true) : (s.refilled word).dmp.fill ≤ s.fillLimit := by
  rw [show s.refilled word = _ from if_pos valid]
  exact damp_fill_le ..
theorem fill_refilled_few {s : State} {word : W32} (invalid : bit word 31 = false) (few : s.dmp.bad < 10) :
    (s.refilled word).dmp.fill = s.dmp.fill := by
  rw [show s.refilled word = _ from (if_neg (Bool.eq_false_iff.1 invalid)).trans (if_pos few)]
  exact congrArg Dmp.fill (countEv_leavesSite s (pg := 0xF00000) 0x11 1 rfl).dmp
theorem fill_refilled_many {s : State} {word : W32} (invalid : bit word 31 = false) (many : 10 ≤ s.dmp.bad) :
    (s.refilled word).dmp.fill = 0 := by
  have counted := countEv_leavesSite { s with dmp := { s.dmp with fill := 0 } } (pg := 0xF00000) 0x11 1 rfl
  rw [show s.refilled word = _ from (if_neg (Bool.eq_false_iff.1 invalid)).trans (if_neg (Nat.not_lt.2 many))]
  dsimp only
  split
  · rw [(err_leavesSite _ (pg := 0xF00000) 8 rfl).dmp, counted.dmp]
  · rw [counted.dmp]

theorem sampled_eq (s : State) (word : W32) (hc : Nat) : s.sampled word hc =
    let t := (s.latched word hc).refilled word
    State.wearSample { t with dmp := { t.dmp with filled := t.dmp.fill != 0 } } (!bit word 31 || 800 ≤ fld word 16 10) := by
  have words := congrArg Dmp.bad (latched_leaves s word hc).1
  unfold State.refilled
  rw [words]
  rfl

/-- What a telemetry word leaves: the words, the count of fill, the invalid words in a row, the samples, and the fill (13 R382). -/
theorem sampled_leaves (s : State) (word : W32) (hc : Nat) :
    (s.sampled word hc).dmp.hist = (word :: s.dmp.hist).take 256 ∧ (s.sampled word hc).dmp.tel = word
    ∧ (s.sampled word hc).ctl.wide.get (fun _ => 0) 0xF00064 =
      (s.ctl.wide.get (fun _ => 0) 0xF00064 + if s.dmp.filled then hc else 0) % 2 ^ 48
    ∧ (s.sampled word hc).dmp.samples = s.dmp.samples + 1
    ∧ (s.sampled word hc).dmp.bad = (if bit word 31 then 0 else s.dmp.bad + 1)
    ∧ (s.sampled word hc).dmp.fill = ((s.latched word hc).refilled word).dmp.fill := by
  obtain ⟨words, count, -⟩ := latched_leaves s word hc
  obtain ⟨ctl, fill⟩ := refilled_leaves (s.latched word hc) word
  rw [words] at fill
  rw [sampled_eq]
  dsimp only
  generalize (s.latched word hc).refilled word = t at ctl fill ⊢
  obtain ⟨sampleCtl, sample⟩ := wearSample_leaves { t with dmp := { t.dmp with filled := t.dmp.fill != 0 } }
    (!bit word 31 || 800 ≤ fld word 16 10)
  rw [sample, sampleCtl]
  dsimp only
  rw [ctl, fill]
  exact ⟨rfl, rfl, count, rfl, rfl, rfl⟩

/-- The fill that a telemetry word leaves: at most the limit with a valid word, none from the tenth invalid one on (13 R384). -/
theorem sampled_fill (s : State) (word : W32) (hc : Nat) :
    (bit word 31 = true → (s.sampled word hc).dmp.bad = 0 ∧ (s.sampled word hc).dmp.fill ≤ s.fillLimit)
    ∧ (bit word 31 = false → (s.sampled word hc).dmp.bad = s.dmp.bad + 1
      ∧ (s.dmp.bad < 9 → (s.sampled word hc).dmp.fill = s.dmp.fill) ∧ (9 ≤ s.dmp.bad → (s.sampled word hc).dmp.fill = 0)) := by
  obtain ⟨latched, -, limit⟩ := latched_leaves s word hc
  obtain ⟨-, -, -, -, bad, fill⟩ := sampled_leaves s word hc
  have words := congrArg Dmp.bad latched
  rw [bad, fill, ← limit]
  refine ⟨fun valid => ⟨if_pos valid, fill_refilled_valid valid⟩, fun invalid => ?_⟩
  rw [invalid] at words ⊢
  exact ⟨rfl, fun few => (fill_refilled_few invalid (words ▸ Nat.succ_lt_succ few)).trans ((congrArg Dmp.fill latched).trans rfl),
    fun many => fill_refilled_many invalid (words ▸ Nat.succ_le_succ many)⟩

theorem telemetry_live {s : State} (live : s.krefLive = true) (word : W32) (hc : Nat) :
    telemetry word hc s = s.sampled word hc := if_pos live
theorem telemetry_closed {s : State} (closed : s.krefLive = false) (word : W32) (hc : Nat) : telemetry word hc s = s :=
  if_neg (Bool.eq_false_iff.1 closed)

/-- Settles O59: curtailment by the change of its levels, KTICK by its crossing, telemetry and the wear ring by what they leave. -/
theorem damperCommandsAct : Obligations.DamperCommandsAct := by
  intro s level word hc due pend grid moved k
  have moves : ∀ kcurt, State.curtChange { s with dmp := { s.dmp with kcurt := kcurt } } = moved kcurt := fun kcurt => by
    unfold State.curtChange
    rw [show State.gridWant { s with dmp := { s.dmp with kcurt := kcurt } } = grid from gridWant_eq s]
    rfl
  refine ⟨fun live => congrArg done ((kcurtChange_live live level).trans (moves level)),
    fun closed => ⟨congrArg done (kcurtChange_closed closed level), congrArg done (telemetry_closed closed ..)⟩,
    congrArg done (moves s.dmp.kcurt), fun same => congrArg done (ktick_rests same),
    fun crossed undriven => congrArg done (ktick_undriven crossed undriven), fun crossed driven => ?_, fun live => ?_,
    fun early => congrArg done (wearAdvance_waits early), fun due => ⟨_, rfl, wearAdvance_advances due⟩⟩
  · exact ⟨_, congrArg done (ktick_rises crossed driven), rfl, rfl, rfl, rfl, (SMap.get_set ..).trans (if_pos rfl)⟩
  · obtain ⟨hist, tel, count, samples, -⟩ := sampled_leaves s word hc.toNat
    exact ⟨_, congrArg done (telemetry_live live ..), hist, tel, count, samples, sampled_fill s word hc.toNat⟩

end Sys2Proof.Machine
end

section
/-! What scans, bus faults and the topology check do (13 R374 to R381), and the registers of the check and of the wear record. -/
namespace Sys2Proof.Machine
open Sys2Proof

section
variable {s : State} {p : Nat}

/-! ### Scans on their own, and bus faults -/

theorem autoScan_idle (nothing : s.iden.due = []) : autoScan s = s := if_pos nothing
theorem autoScan_due (due : s.iden.due ≠ []) :
    autoScan s = State.scanReq { s with iden := { s.iden with due := [] } } false true := if_neg due

/-- A port is marked and BUS_STUCK is set (13 R377). -/
def State.busMarked (s : State) (p : Nat) : State :=
  (State.countEv { s with iden := { s.iden with stuck := s.iden.stuck ++ [p] } } 0x200000 0x11 1).err 0x200000 9

theorem busStuck_closed (closed : s.idenOpen = false) : busStuck p s = s := by unfold busStuck; rw [closed]; rfl
theorem busHang_closed (closed : s.idenOpen = false) : busHang p s = s := if_pos (by simp [closed])
theorem busStuck_idle (idle : s.iden.scan = none) : busStuck p s = s := by
  unfold busStuck
  rw [idle, ite_self]
theorem busStuck_scanning {x : Scan} (opened : s.idenOpen = true) (runs : s.iden.scan = some x) :
    busStuck p s = s.busMarked p := by
  unfold busStuck
  rw [if_pos opened, runs]
  rfl
theorem busHang_idle (opened : s.idenOpen = true) (idle : s.iden.scan = none) :
    busHang p s = (s.countEv 0x200000 0x11 1).err 0x200000 9 := by
  unfold busHang
  rw [if_neg (by simp [opened]), idle]
theorem busHang_scanning {x : Scan} (opened : s.idenOpen = true) (runs : s.iden.scan = some x) :
    busHang p s = s.busMarked p := by
  unfold busHang
  rw [if_neg (by simp [opened]), runs]
  exact busStuck_scanning opened runs

end

/-! ### The end of a scan -/

/-- The position table with the rows of a scan (13 R374). -/
def placeRows (rows : List (Nat × Bytes)) (m : SMap Bytes) : SMap Bytes :=
  rows.foldl (fun m (r : Nat × Bytes) => m.set (fun _ => zeros 64) r.1 r.2) m

/-- A port holds the row that the scan made for it. -/
theorem get_placeRows (f : Nat → Bytes) (ks : List Nat) (m : SMap Bytes) (k : Nat) :
    (placeRows (ks.map (fun p => (p, f p))) m).get (fun _ => zeros 64) k =
      if k ∈ ks then f k else m.get (fun _ => zeros 64) k := by
  induction ks generalizing m with
  | nil => rfl
  | cons p ks ih =>
    refine (ih _).trans ?_
    rw [SMap.get_set]
    by_cases here : k = p
    · simp [here]
    · simp [here]

/-- The table is filled, IDEN_SCAN_STAT says how the scan ended, and the ports that were read are counted (13 R374). -/
def State.scanned (s : State) (x : Scan) (mods : List Module) (noSwitch : Nat) : State :=
  let errs := (List.range 16).filter (s.busErr noSwitch)
  let reads := (List.range 16).filter (fun p => s.mapped p && !s.busErr noSwitch p)
  let s1 := { s with iden := { s.iden with
    scan := none, stuck := [],
    pos := placeRows ((List.range 16).map (fun p => (p, s.scanPort x.full mods noSwitch p))) s.iden.pos } }
  let s2 := s1.setRegN 0x20004C (1 + 4 * b2n x.full + (errs.map (fun p => 2 ^ (16 + p))).sum)
  (s2.countEv 0x200000 0x10 reads.length).err 0x200000 8

section
variable {s : State} {mods : List Module} {noSwitch : Nat}

theorem scanDone_closed (closed : s.idenOpen = false) : scanDone mods noSwitch s = s := by unfold scanDone; rw [closed]; rfl
theorem scanDone_idle (idle : s.iden.scan = none) : scanDone mods noSwitch s = s := by
  unfold scanDone
  rw [idle, ite_self]
/-- After a scan that was asked for, no item of the topology check is judged. -/
theorem scanDone_asked {x : Scan} (opened : s.idenOpen = true) (runs : s.iden.scan = some x) (asked : x.auto = false) :
    scanDone mods noSwitch s = (s.scanned x mods noSwitch).idenKick := by
  unfold scanDone
  rw [if_pos opened, runs]
  dsimp only
  rw [asked, Bool.false_and, if_neg Bool.false_ne_true]
  rfl

end

theorem scanned_leaves (s : State) (x : Scan) (mods : List Module) (noSwitch : Nat) :
    (s.scanned x mods noSwitch).iden.scan = none ∧ (s.scanned x mods noSwitch).iden.stuck = []
    ∧ (∀ k, k < 16 → (s.scanned x mods noSwitch).iden.pos.get (fun _ => zeros 64) k = s.scanPort x.full mods noSwitch k)
    ∧ (s.scanned x mods noSwitch).regN 0x20004C = (1 + 4 * b2n x.full
      + (((List.range 16).filter (s.busErr noSwitch)).map (fun k => 2 ^ (16 + k))).sum) % 2 ^ 32 := by
  have reported := fun (t : State) (n : Nat) => (countEv_leavesSite t (pg := 0x200000) 0x10 n rfl).trans
    (err_leavesSite (t.countEv 0x200000 0x10 n) (pg := 0x200000) 8 rfl)
  unfold State.scanned
  dsimp only
  rw [(reported _ _).iden, (reported _ _).regN _ (by decide) (by decide), regN_setRegN, if_pos rfl]
  refine ⟨rfl, rfl, fun k hk => ?_, rfl⟩
  exact (get_placeRows _ _ _ k).trans (if_pos (List.mem_range.2 hk))

/-! ### The topology check -/

section
variable {s : State}

theorem checkDone_idle (other : s.iden.check ≠ 2) : checkDone s = s := if_pos (by simp [other])
theorem checkDone_passes (runs : s.iden.check = 2) (pass : s.topoFail = none) : checkDone s =
    (State.setRegN { s with iden := { s.iden with check := 0 } } 0x20106C 0).idenKick := by
  have ends : checkDone s = _ := if_neg (by simp [runs])
  rw [ends, pass]
theorem checkDone_fails {i v : Nat} (runs : s.iden.check = 2) (fails : s.topoFail = some (i, v)) : checkDone s =
    (((State.setRegN { s with iden := { s.iden with check := 0 } } 0x20106C (8 + i + v % 2 ^ 24 * 2 ^ 8)).countEv
      0x201000 0x10 1).err 0x201000 8).idenKick := by
  have ends : checkDone s = _ := if_neg (by simp [runs])
  rw [ends, fails]

end

/-- Settles O60: each command by the crossing, the scan and the check that it finds. -/
theorem identityCommandsAct : Obligations.IdentityCommandsAct := by
  intro s port mods noSwitch x i v p stuck free
  refine ⟨fun nothing => congrArg done (autoScan_idle nothing), fun due => congrArg done (autoScan_due due),
    fun closed => ⟨congrArg done (busStuck_closed closed), congrArg done (busHang_closed closed),
      congrArg done (scanDone_closed closed)⟩,
    fun opened runs => ⟨congrArg done (busStuck_scanning opened runs), congrArg done (busHang_scanning opened runs)⟩,
    fun opened idle => ⟨congrArg done (busStuck_idle idle), congrArg done (busHang_idle opened idle)⟩,
    fun opened runs asked => ⟨_, congrArg done (scanDone_asked opened runs asked), scanned_leaves ..⟩,
    fun idle => congrArg done (scanDone_idle idle),
    fun runs => ⟨fun pass => congrArg done (checkDone_passes runs pass), fun fails => congrArg done (checkDone_fails runs fails)⟩,
    fun other => congrArg done (checkDone_idle other)⟩

/-! ### Registers of the check and of the wear record -/

section
variable {s : State} (up : s.hostUp = true) (v : W32)
include up

theorem exec_idenCheckGo : exec (.idenCheckGo v) s = .next ((checkGo v (s.locked 0x201000)).acked 0x201068) :=
  congrArg done (body_write (t := checkGo v (s.locked 0x201000)) up (by decide) (by decide) (by decide) (by decide) (.inl rfl) rfl)
theorem exec_dmpWearSel : exec (.dmpWearSel v) s = .next ((wearSel v (s.locked 0xF01000)).acked 0xF01044) :=
  congrArg done (body_write (t := wearSel v (s.locked 0xF01000)) up (by decide) (by decide) (by decide) (by decide) (.inl rfl) rfl)
theorem exec_dmpWearData : exec (.dmpWearData v) s = .next ((wearData v (s.locked 0xF01000)).acked 0xF01048) :=
  congrArg done (body_write (t := wearData v (s.locked 0xF01000)) up (by decide) (by decide) (by decide) (by decide) (.inl rfl) rfl)
theorem exec_loaded : exec (.loaded v) s = .next ((wearCtrl v (s.locked 0xF01000)).acked 0xF01040) :=
  congrArg done (body_write (t := wearCtrl v (s.locked 0xF01000)) up (by decide) (by decide) (by decide) (by decide) (.inl rfl) rfl)

end

section
variable {s : State} {v : W32}

/-- A check is asked for, and held back while IDEN 1 quiesces (15 R421, Table 15-1). -/
theorem checkGo_asks (idle : s.iden.check = 0) (go : bit v 0 = true) : checkGo v s = (State.setRegN { s with
    iden := { s.iden with check := if s.quiescing 0x201000 then 3 else 1 } } 0x20106C 1).idenKick :=
  (if_neg (by simp [idle])).trans (if_neg (by simp [go]))
theorem checkGo_busy (runs : s.iden.check ≠ 0) : checkGo v s = s.err 0x201000 9 := if_pos (by simp [runs])

theorem wearSel_takes (bin : v.toNat % 2048 < 1440) : wearSel v s =
    State.setRegN { s with dmp := { s.dmp with snap := s.dmp.bins } } 0xF01044 (v.toNat % 2048) := if_neg (Nat.not_le.2 bin)

/-- A bin of the wear ring is set; bins below it that have not begun are empty (16 R439). -/
def State.setBin (s : State) (i n : Nat) : State :=
  { s with dmp := { s.dmp with bins := setAt (s.dmp.bins ++ List.replicate (i + 1 - s.dmp.bins.length) 0) i n } }
/-- DMP_WEAR_DATA sets the bin that DMP_WEAR_SEL names, and goes on to the next (16 R439). -/
theorem wearData_stores (loading : s.wearLoaded = false) (most : v.toNat % 2 ^ 23 ≤ 6000000) : wearData v s =
    ((s.setBin (s.regN 0xF01044) (v.toNat % 2 ^ 23)).wearCheck).setRegN 0xF01044 ((s.regN 0xF01044 + 1) % 1440) :=
  if_neg (by simpa [loading] using most)
theorem wearCtrl_stores (loading : s.wearLoaded = false) : wearCtrl v s = s.setReg 0xF01040 (v &&& 1) :=
  if_neg (Bool.eq_false_iff.1 loading)
theorem wearData_refused (loaded : s.wearLoaded = true) : wearData v s = s.err 0xF01000 9 := if_pos (by simp [loaded])
theorem wearCtrl_refused (loaded : s.wearLoaded = true) : wearCtrl v s = s.err 0xF01000 9 := if_pos loaded

end

/-- Settles O25: each register by what its page holds. -/
theorem checkAndWearRegisters : Obligations.CheckAndWearRegisters := by
  intro s v up u w n i
  have gives : ∀ {c : Instr} {t t' : State} {a : Nat}, exec c s = .next (t.acked a) → t = t' → exec c s = .next (t'.acked a) :=
    fun runs same => same ▸ runs
  exact ⟨fun idle go => gives (exec_idenCheckGo up v) (checkGo_asks (s := u) idle go),
    fun runs => gives (exec_idenCheckGo up v) (checkGo_busy (s := u) runs),
    fun bin => gives (exec_dmpWearSel up v) (wearSel_takes bin),
    fun loading most => gives (exec_dmpWearData up v) (wearData_stores (s := w) loading most),
    fun loading => gives (exec_loaded up v) (wearCtrl_stores (s := w) loading),
    fun loaded => ⟨gives (exec_dmpWearData up v) (wearData_refused (s := w) loaded),
      gives (exec_loaded up v) (wearCtrl_refused (s := w) loaded)⟩⟩

/-! ### The state after reset -/

/-- Settles O33: State.reset lists one register, TIME_EPOCH, and nothing else. -/
theorem resetState : Obligations.ResetState := by
  have listed : ∀ a, a ≠ 0x100048 → State.reset.reg a = regReset a := fun a other => if_neg other.symm
  exact ⟨rfl, listed, rfl, rfl, rfl, rfl, rfl, fun _ => rfl, fun _ => rfl, rfl⟩

end Sys2Proof.Machine
end

section
/-! How a step takes a command from the queue. -/
namespace Sys2Proof.Machine
open Sys2Proof

/-- Settles O26: a step takes the front of the queue away before it runs it, and every command leaves the queue it is given. -/
theorem stepRunsTheFrontCommand : Obligations.StepRunsTheFrontCommand := by
  intro c cs s
  exact ⟨rfl, fun t runs => (exec_grows runs).pending⟩

end Sys2Proof.Machine
end

section
/-! What CONTEXT_READY makes of a LOADED context with an outstanding doorbell: READY, LOADED while a condition of STATUS holds,
or LOADED with CHECK_FAILED. -/
namespace Sys2Proof.Machine
open Sys2Proof

/-- GEN_COOLING is set where the context's generation still cools (09 R250, R265). -/
def State.markCooling (s : State) (c : Nat) : State := if s.genCooling c then s.err 0xB00000 10 else s
/-- The PG_ERR bits of failed checks are set, and GEN_COOLING where it applies (15 R415). -/
def State.markFailures (s : State) (c : Nat) (bad : List (Nat × Nat)) : State :=
  (bad.foldl (fun s e => s.err e.1 e.2) s).markCooling c
/-- The Phase Timer record of a context comes into force (15 R410). -/
def State.startPhaseTimer (s : State) (c : Nat) : State :=
  { s with time := { s.time with pt := s.time.pt.setList zero32 (4 * c) (s.ptR.getList zero32 (4 * c) 4) } }
/-- CONTEXT_READY has a context to check: a LOADED one with an outstanding doorbell whose checks have not failed, in full
operation (15 R415, 13 R388). -/
structure State.AwaitsCheck (s : State) (c : Nat) : Prop where
  full : s.dmp.power = 0
  loaded : s.cState c = stLoaded
  doorbell : s.cHead c ≠ s.cTail c
  unfailed : (s.hx c).checkFailed = false

section
variable {s : State} {c : Nat} (waits : s.AwaitsCheck c)
include waits

/-- The outcome follows the checks, then STATUS, with the words in force that LOADED held back (15 R415, 14 R392). -/
theorem contextReady_checks : contextReady c s =
    let h := s.applyHeld c
    let bad := h.failedChecks c
    if bad != [] then
      (s.markFailures c bad).setHx c { (s.markFailures c bad).hx c with checkFailed := true }
    else if h.ctxStatus c % 128 != 0 then s.markFailures c bad
    else
      ((if (s.hx c).opened = 0 then (h.markFailures c bad).startPhaseTimer c else h.markFailures c bad).setCState c
        stReady).joinCheck := by
  obtain ⟨full, loaded, doorbell, unfailed⟩ := waits
  exact if_neg (by simp [full, loaded, doorbell, unfailed])

theorem contextReady_joins (passes : (s.applyHeld c).failedChecks c = []) (clear : (s.applyHeld c).ctxStatus c % 128 = 0) :
    contextReady c s =
      let g := (s.applyHeld c).markCooling c
      ((if (s.hx c).opened = 0 then g.startPhaseTimer c else g).setCState c stReady).joinCheck := by
  rw [contextReady_checks waits]
  dsimp only
  rw [passes, if_neg (by decide), if_neg (by simp [clear])]
  rfl

theorem contextReady_waits (passes : (s.applyHeld c).failedChecks c = [])
    (holds : (s.applyHeld c).ctxStatus c % 128 ≠ 0) : contextReady c s = s.markCooling c := by
  rw [contextReady_checks waits]
  dsimp only
  rw [passes, if_neg (by decide), if_pos (by simpa using holds)]
  rfl

theorem contextReady_fails (fails : (s.applyHeld c).failedChecks c ≠ []) :
    contextReady c s =
      let u := s.markFailures c ((s.applyHeld c).failedChecks c)
      u.setHx c { u.hx c with checkFailed := true } := by
  rw [contextReady_checks waits]
  exact if_pos (by simpa using fails)
end

/-- Settles O35: a context that awaits its checks joins, waits or fails, by the checks and then by STATUS. -/
theorem contextBecomesReady : Obligations.ContextBecomesReady := by
  intro s x c f bad u cool g pt full loaded doorbell unfailed
  have waits : s.AwaitsCheck c := ⟨full, loaded, doorbell, unfailed⟩
  exact ⟨fun passes clear => congrArg done (contextReady_joins waits passes clear),
    fun passes holds => congrArg done (contextReady_waits waits passes holds),
    fun fails => congrArg done (contextReady_fails waits fails)⟩

end Sys2Proof.Machine
end

section
/-! What a word written through a window does once the window takes it, and what LOAD, the words of a domain and word 0 of a
partition make of theirs. -/
namespace Sys2Proof.Machine
open Sys2Proof

/-! ### Words that a window takes -/

/-- The low words that a window stages: an arrival count is cleared by one word (16 R432). -/
def stagedLows (n sel : Nat) : List Nat := if inst0 n = 0xC00048 then [0, 2, 5] else winLows n sel
/-- The low half that is stored with the word that a window selects (02 R47). -/
def State.lowHalf (s : State) (n : Nat) (x : Win) : Option W32 :=
  if 0 < s.winWord x && (stagedLows n (s.winSel x)).contains (s.winWord x - 1) then
    (match (s.pair n).stage with | some (k, y) => if k + 1 = s.winWord x then some y else none | none => none)
  else none
/-- The state in which a word of a window is stored: its page locked again, and nothing staged on it (02 R35, R47). -/
def State.unstaged (s : State) (n : Nat) : State :=
  ((s.locked n).unstage n).setPair n { s.pair n with stage := none }
/-- A window takes a word: the word lies in the window, is not refused, and is no low half to be staged (15 R403). -/
structure State.WinTakes (s : State) (n : Nat) (x : Win) (v : W32) : Prop where
  inside : s.winWord x < winWrap n (s.winSel x)
  accepted : (s.locked n).winRefuse n (s.winSel x) (s.winWord x) v = none
  notLow : s.winWord x ∉ stagedLows n (s.winSel x)

theorem setPair_leavesCtx (s : State) (k : Nat) (p : Pair) : LeavesCtx s (s.setPair k p) := ⟨rfl, rfl, rfl, rfl, rfl⟩
theorem unstage_leavesCtx (s : State) (n : Nat) : LeavesCtx s (s.unstage n) := by
  unfold State.unstage
  generalize (s.ctl.pairs.map _).filter _ = ks
  induction ks generalizing s with
  | nil => exact .refl s
  | cons k ks ih => exact (setPair_leavesCtx ..).trans (ih _)
/-- Dropping what a page has staged changes no context and no partition. -/
theorem unstaged_leavesCtx (s : State) (n : Nat) : LeavesCtx s (s.unstaged n) :=
  have locked : LeavesCtx s (s.locked n) := ⟨rfl, rfl, rfl, rfl, rfl⟩
  (locked.trans (unstage_leavesCtx ..)).trans (setPair_leavesCtx ..)
theorem LeavesCtx.domActive {s t : State} (h : LeavesCtx s t) (d : Nat) : t.domActive d = s.domActive d := by
  unfold State.domActive State.live State.cActive State.cPdom State.cState State.cf State.cw
  rw [h.ctxR]

section
variable {s : State} {n : Nat} {x : Win} {v : W32}

/-- A word that follows no low word is stored alone. -/
theorem lowHalf_alone (alone : s.winWord x = 0 ∨ s.winWord x - 1 ∉ stagedLows n (s.winSel x)) : s.lowHalf n x = none :=
  if_neg (by rcases alone with h | h <;> simp [h])
/-- A high word is stored with the low half that is staged for it. -/
theorem lowHalf_staged {k : Nat} {y : W32} (high : s.winWord x = k + 1) (low : k ∈ stagedLows n (s.winSel x))
    (staged : (s.pair n).stage = some (k, y)) : s.lowHalf n x = some y := by
  simp [State.lowHalf, high, low, staged]

/-- A word that a window takes is stored, and the index advances. -/
theorem writeWin_takes (takes : s.WinTakes n x v) : (s.locked n).writeWin n x v =
    (((s.unstaged n).winPut n (s.winSel x) (s.winWord x) (s.lowHalf n x) v).winNext n x, true) := by
  obtain ⟨inside, accepted, notLow⟩ := takes
  have later : ¬ winWrap n ((s.locked n).winSel x) ≤ (s.locked n).winWord x := Nat.not_le.2 inside
  have high : ¬ (stagedLows n (s.winSel x)).contains (s.winWord x) = true := by simpa using notLow
  unfold State.writeWin
  dsimp only
  rw [if_neg later, show (s.locked n).winRefuse n ((s.locked n).winSel x) ((s.locked n).winWord x) v = none from accepted]
  exact if_neg high

/-- An acknowledged write of a word that a window takes. -/
theorem kcpWrite_takes (up : s.hostUp = true) (space : n < 2 ^ 24) (word : n % 4 = 0) (page : (pageRow n).isSome = true)
    (window : winOf n = some x) (writable : hasAcc n .ro = false)
    (opened : s.isProtected n v = false ∨ s.ctl.unlock.get (fun _ => false) (pageOf n) = true) (takes : s.WinTakes n x v) :
    kcpWrite n v s =
      (((s.unstaged n).winPut n (s.winSel x) (s.winWord x) (s.lowHalf n x) v).winNext n x).acked n :=
  win_write up space word page window writable opened (writeWin_takes takes)
end

/-! ### LOAD -/

/-- LOAD = 1 in word 0 of a FREE context's record loads it (15 R414). -/
theorem ctxPut_load {s : State} {c : Nat} {v : W32} (free : s.cState c = stFree) (load : bit v 3 = true) :
    s.ctxPut c 0 v = loadCtx c v (s.recheck c) :=
  if_pos (by rw [free, load]; decide)

theorem exec_load {s : State} {v : W32} {x : Win} (up : s.hostUp = true) (window : winOf 0x300048 = some x)
    (word : s.winWord x = 0) (free : s.cState (s.winSel x) = stFree) (load : bit v 3 = true) :
    exec (.load v) s = .next (((loadCtx (s.winSel x) v ((s.unstaged 0x300048).recheck (s.winSel x))).winNext 0x300048
      x).acked 0x300048) := by
  have takes : s.WinTakes 0x300048 x v :=
    ⟨by rw [word]; exact (by decide : 0 < 128), if_pos (by simp [show (s.locked 0x300048).cState _ = _ from free]),
      by rw [word]; exact (by decide : 0 ∉ stagedLows 0x300048 0)⟩
  have writes := kcpWrite_takes up (by decide) (by decide) (by decide) window (by decide) (.inl rfl) takes
  have stays := ((unstaged_leavesCtx s 0x300048).cState (s.winSel x)).trans free
  rw [lowHalf_alone (.inl word), word] at writes
  exact congrArg done (writes.trans (congrArg (fun t : State => (t.winNext 0x300048 x).acked 0x300048)
    (ctxPut_load stays load)))

/-! ### The words of a domain -/

/-- The access key of a domain is set, or emptied (10 R268). -/
def State.setKey (s : State) (d : Nat) (k : Option W64) : State :=
  { s with tng := { s.tng with keys := s.tng.keys.set (fun _ => none) d k } }

theorem domPut_keyHi (s : State) (d : Nat) (y v : W32) :
    s.domPut d 6 (some y) v = s.setKey d (some (BitVec.ofNat 64 (y.toNat + v.toNat * 2 ^ 32))) := rfl
/-- KEY_CLR empties the key, and nothing else of word 4 is stored while the domain is active (10 R268, R269). -/
theorem domPut_keyClr {s : State} {d : Nat} {v : W32} (clear : bit v 8 = true) (active : s.domActive d = true) :
    s.domPut d 4 none v = s.setKey d none :=
  (if_pos active).trans (if_pos clear)
/-- A word past the record clears the arrival count that it is half of (16 R432). -/
theorem domPut_arrival (s : State) (d : Nat) {w : Nat} (past : 16 ≤ w) (lo : Option W32) (v : W32) :
    s.domPut d w lo v = s.setArrival d ((w - 16) / 2) 0 := by
  unfold State.domPut
  rw [if_neg (by omega), if_neg (by omega), if_neg (by omega), if_pos past]

/-- What the domain window takes: of an active domain's record the key words and a KEY_CLR, and zero for an arrival count of
a domain that no context uses (10 R269, 16 R432). -/
theorem domRefuse_none {s : State} {d w : Nat} {v : W32}
    (record : s.domActive d = true → 4 ≤ w ∧ (w = 4 → bit v 8 = true))
    (count : 16 ≤ w → v = 0 ∧ s.domActive d = false) : s.winRefuse 0xC00048 d w v = none := by
  refine if_neg ?_
  simp only [Bool.or_eq_true, Bool.and_eq_true, decide_eq_true_eq, Bool.not_eq_true', bne_iff_ne]
  rintro (⟨active, early | ⟨clr, unset⟩⟩ | ⟨⟨past, -⟩, used⟩)
  · exact absurd early (by have := (record active).1; omega)
  · rw [(record active).2 clr] at unset
    cases unset
  · obtain ⟨zero, idle⟩ := count past
    rcases used with nonzero | active
    · exact nonzero zero
    · rw [idle] at active
      cases active

section
variable {s : State} {v : W32} {x : Win}

theorem stagedLows_dom (sel : Nat) : stagedLows 0xC00048 sel = [0, 2, 5] := rfl
theorem winSel_dom (window : winOf 0xC00048 = some x) : s.winSel x = s.regN 0xC00040 := by
  cases window; rfl
/-- An acknowledged write of a word that the domain window takes; the key words want their page unlocked (10 R268). -/
theorem kcpWrite_dom (up : s.hostUp = true) (window : winOf 0xC00048 = some x) (inside : s.winWord x < 48)
    (notLow : s.winWord x ∉ [0, 2, 5])
    (opened : s.isProtected 0xC00048 v = false ∨ s.ctl.unlock.get (fun _ => false) 0xC00000 = true)
    (record : s.domActive (s.regN 0xC00040) = true → 4 ≤ s.winWord x ∧ (s.winWord x = 4 → bit v 8 = true))
    (count : 16 ≤ s.winWord x → v = 0 ∧ s.domActive (s.regN 0xC00040) = false) :
    kcpWrite 0xC00048 v s = (((s.unstaged 0xC00048).domPut (s.regN 0xC00040) (s.winWord x) (s.lowHalf 0xC00048 x)
      v).winNext 0xC00048 x).acked 0xC00048 := by
  rw [← winSel_dom window] at record count ⊢
  exact kcpWrite_takes up (by decide) (by decide) (by decide) window (by decide) opened
    ⟨inside, domRefuse_none (s := s.locked 0xC00048) record count, notLow⟩

theorem exec_keyHi {y : W32} (up : s.hostUp = true) (window : winOf 0xC00048 = some x)
    (opened : s.ctl.unlock.get (fun _ => false) 0xC00000 = true) (word : s.winWord x = 6)
    (staged : (s.pair 0xC00048).stage = some (5, y)) :
    exec (.keyHi v) s = .next ((((s.unstaged 0xC00048).setKey (s.regN 0xC00040)
      (some (BitVec.ofNat 64 (y.toNat + v.toNat * 2 ^ 32)))).winNext 0xC00048 x).acked 0xC00048) := by
  have writes := kcpWrite_dom (v := v) up window (by omega) (by rw [word]; decide) (.inr opened) (fun _ => by omega)
    (by omega)
  rw [lowHalf_staged (k := 5) word (by rw [stagedLows_dom]; decide) staged, word, domPut_keyHi] at writes
  exact congrArg done writes

theorem exec_keyClr (up : s.hostUp = true) (window : winOf 0xC00048 = some x)
    (opened : s.ctl.unlock.get (fun _ => false) 0xC00000 = true) (word : s.winWord x = 4) (clear : bit v 8 = true)
    (active : s.domActive (s.regN 0xC00040) = true) :
    exec (.keyClr v) s =
      .next ((((s.unstaged 0xC00048).setKey (s.regN 0xC00040) none).winNext 0xC00048 x).acked 0xC00048) := by
  have writes := kcpWrite_dom up window (by omega) (by rw [word]; decide) (.inr opened)
    (fun _ => ⟨by omega, fun _ => clear⟩) (by omega)
  have stays := ((unstaged_leavesCtx s 0xC00048).domActive _).trans active
  rw [lowHalf_alone (.inr (by rw [word, stagedLows_dom]; decide)), word, domPut_keyClr clear stays] at writes
  exact congrArg done writes

theorem exec_arrivalCountClear (up : s.hostUp = true) (window : winOf 0xC00048 = some x) (past : 16 ≤ s.winWord x)
    (inside : s.winWord x < 48) (idle : s.domActive (s.regN 0xC00040) = false) :
    exec (.arrivalCountClear 0) s =
      .next ((((s.unstaged 0xC00048).setArrival (s.regN 0xC00040) ((s.winWord x - 16) / 2) 0).winNext 0xC00048
        x).acked 0xC00048) := by
  have unprotected : s.isProtected 0xC00048 0 = false := by
    have word : s.regF 0xC00044 2 6 = s.winWord x := by cases window; rfl
    have notKey : s.winWord x ≠ 5 ∧ s.winWord x ≠ 6 ∧ s.winWord x ≠ 4 := by omega
    simp [State.isProtected, offOf, word, notKey]
  have writes := kcpWrite_dom (v := 0) up window inside (by simp; omega) (.inl unprotected) (by simp [idle])
    (fun _ => ⟨rfl, idle⟩)
  rw [domPut_arrival _ _ past] at writes
  exact congrArg done writes

end

/-! ### Word 0 of a partition -/

section
variable {s : State} {i p : Nat} {v : W32}

/-- Word 0 keeps its listed bits, EN among them (11 Table 11-1). -/
theorem bit_listed (v : W32) : bit (v &&& BitVec.ofNat 32 (partMask 0)) 0 = bit v 0 := by
  simp [bit, partMask]

theorem partWrite_enable (part : p ≠ 0) (off : s.pEn i p = false) (en : bit v 0 = true) :
    partWrite i p 0 v s = s.partEnable i p (v &&& 0x0FFF077F) := by
  unfold partWrite
  rw [if_neg (by simpa using part), if_neg (by simp [off])]
  exact if_pos ((bit_listed v).trans en)
theorem partWrite_disable (part : p ≠ 0) (on : s.pEn i p = true) (clear : bit v 0 = false) :
    partWrite i p 0 v s = s.partDisable i p (v &&& 0x0FFF077F) := by
  unfold partWrite
  rw [if_neg (by simpa using part), if_pos on, if_neg (by decide), if_neg (by decide)]
  exact if_pos (by simpa using (bit_listed v).trans clear)
end

/-- MLT_PART_DATA of a slice (16 R434). -/
abbrev partData (inst : BitVec 4) : Nat := mltReg inst.toNat 0x1048

section
variable {s : State} {inst : BitVec 4} {v : W32} {x : Win}

theorem inst0_partData (inst : BitVec 4) : inst0 (partData inst) = 0xD01048 := inst0_mltReg inst.isLt (by decide)
theorem instOf_partData (inst : BitVec 4) : instOf (partData inst) = inst.toNat := instOf_mltReg inst.isLt (by decide)
theorem winWrap_partData (inst : BitVec 4) (sel : Nat) : winWrap (partData inst) sel = 24 := by
  unfold winWrap; rw [inst0_partData]; rfl
theorem stagedLows_partData (inst : BitVec 4) (sel : Nat) : stagedLows (partData inst) sel = [1, 3, 5, 7, 9] := by
  unfold stagedLows winLows; rw [inst0_partData]; rfl
theorem winPut_partData (s : State) (inst : BitVec 4) (sel w : Nat) (v : W32) :
    s.winPut (partData inst) sel w none v = partWrite inst.toNat (sel % 8) w v s := by
  unfold State.winPut; rw [inst0_partData, instOf_partData]; rfl
/-- The partition window takes word 0 of a partition that is not enabled, and of one that the word disables (11 R291). -/
theorem partRefuse_none {sel : Nat} (takes : s.pEn inst.toNat (sel % 8) = true → bit v 0 = false) :
    s.winRefuse (partData inst) sel 0 v = none := by
  unfold State.winRefuse
  rw [inst0_partData, instOf_partData]
  exact if_neg (by simpa using fun _ => takes)
/-- MLT_PART_DATA may be written in every slice (16 R434). -/
theorem hasAcc_partData (inst : BitVec 4) : hasAcc (partData inst) .ro = false := by
  revert inst; decide +kernel

/-- An acknowledged write of word 0 of a partition that is not enabled, or that the word disables. -/
theorem kcpWrite_part (up : s.hostUp = true) (window : winOf (partData inst) = some x) (word : s.winWord x = 0)
    (takes : s.pEn inst.toNat (s.winSel x % 8) = true → bit v 0 = false) :
    kcpWrite (partData inst) v s = ((partWrite inst.toNat (s.winSel x % 8) 0 v (s.unstaged (partData inst))).winNext
      (partData inst) x).acked (partData inst) := by
  have space : inst.toNat < 16 := inst.isLt
  have writes := kcpWrite_takes up (by unfold mltReg; omega) (by unfold mltReg; omega) (pageRow_mltReg space (by decide))
    window (hasAcc_partData inst) (.inl (isProtected_mltReg s v space (by decide) (by decide)))
    ⟨by rw [word, winWrap_partData]; decide, by rw [word]; exact partRefuse_none (s := s.locked _) takes,
      by rw [word, stagedLows_partData]; decide⟩
  rwa [lowHalf_alone (.inl word), word, winPut_partData] at writes

theorem exec_partitionEnable (up : s.hostUp = true) (window : winOf (partData inst) = some x)
    (word : s.winWord x = 0) (part : s.winSel x % 8 ≠ 0) (en : bit v 0 = true)
    (off : s.pEn inst.toNat (s.winSel x % 8) = false) : exec (.partitionEnable inst v) s =
      .next ((((s.unstaged (partData inst)).partEnable inst.toNat (s.winSel x % 8) (v &&& 0x0FFF077F)).winNext
        (partData inst) x).acked (partData inst)) := by
  have writes := kcpWrite_part (v := v) up window word (by simp [off])
  rw [partWrite_enable part ((congrArg (bit · 0) ((unstaged_leavesCtx ..).pw ..)).trans off) en] at writes
  exact congrArg done writes

theorem exec_partitionDisable (up : s.hostUp = true) (window : winOf (partData inst) = some x)
    (word : s.winWord x = 0) (part : s.winSel x % 8 ≠ 0) (clear : bit v 0 = false)
    (on : s.pEn inst.toNat (s.winSel x % 8) = true) : exec (.partitionDisable inst v) s =
      .next ((((s.unstaged (partData inst)).partDisable inst.toNat (s.winSel x % 8) (v &&& 0x0FFF077F)).winNext
        (partData inst) x).acked (partData inst)) := by
  have writes := kcpWrite_part up window word (fun _ => clear)
  rw [partWrite_disable part ((congrArg (bit · 0) ((unstaged_leavesCtx ..).pw ..)).trans on) clear] at writes
  exact congrArg done writes
end

/-- Settles O18: each write is of a word that its window takes, and what the window stores for that word is the record's own
operation. -/
theorem recordsThroughTheirWindows : Obligations.RecordsThroughTheirWindows := by
  intro s v y inst up m u d withKey
  exact ⟨fun x window word free load => exec_load up window word free load,
    fun x window => ⟨fun opened word staged => exec_keyHi up window opened word staged,
      fun opened word clear active => exec_keyClr up window opened word clear active,
      fun past inside idle => exec_arrivalCountClear up window past inside idle⟩,
    fun x window word part => ⟨fun en off => exec_partitionEnable up window word part en off,
      fun clear on => exec_partitionDisable up window word part clear on⟩⟩

end Sys2Proof.Machine
end

section
/-! The sealed keys: which commands leave every slot alone, and what the others leave of them. -/
namespace Sys2Proof.Machine
open Sys2Proof

/-! ### Commands that leave the sealed keys -/

theorem keys_acquire (s : State) (offset : Int) : (s.acquire offset).ctl.keys = s.ctl.keys := by
  rw [acquire_eq]
  exact (State.setTime_keeps (State.err_keeps (State.bump_keeps (.refl (s.stepped offset)) _ _) _ _) _).keys

theorem exchCounted_keeps (s : State) (src : Nat) (offset : Int) : Keeps s (s.exchCounted src offset) := by
  have ended : Keeps s { s with time := { s.time with
      exch := none, lastOk := s.time.ktime, onAlt := !(src == s.regN 0x100054),
      parentOk := if src == s.regN 0x100054 then s.time.ktime else s.time.parentOk } } :=
    .upd (.refl s) rfl rfl (Nat.le_refl _) rfl rfl rfl
  have taken : Keeps s (s.exchTaken src offset) := State.setRegN_keeps (State.countEv_keeps ended _ _ _) _ _
  exact .ite (State.countEv_keeps taken _ _ _) taken

/-- A valid exchange, which may step KTIME, leaves the keys alone (13 R365). -/
theorem keys_exchOk (s : State) (src log2 : Nat) (offset : Int) : (s.exchOk src log2 offset).ctl.keys = s.ctl.keys := by
  have counted := exchCounted_keeps s src offset
  by_cases acquires : s.tState = tAcquiring
  · rw [exchOk_acquires acquires, keys_acquire, counted.keys]
  · have rated := State.newRate_keeps counted log2 offset
    rw [exchOk_elsewhere acquires]
    exact (Keeps.ite (State.setTime_keeps rated _) (Keeps.ite (State.slew_keeps rated _) rated)).keys

theorem keys_delayResp (src dom seq t4 : Nat) (s : State) : (delayResp src dom seq t4 s).ctl.keys = s.ctl.keys := by
  rcases delayResp_cases src dom seq t4 s with same | lost | ⟨log2, offset, valid⟩
  · rw [same]
  · rw [lost]
    exact (State.exchLost_keeps (.refl s)).keys
  · rw [valid, keys_exchOk]

/-- Every command but the end of a key command, the end of POWER_STATE and a reset of the block leaves the keys alone. -/
theorem exec_keys {c : Instr} {s t : State} (runs : exec c s = .next t) (load : c ≠ .keyLoad .ends)
    (erase : c ≠ .keyErase .ends) (park : c ≠ .powerStateDone) (cold : c ≠ .coldReset) (warm : ∀ n, c ≠ .warmReset n) :
    t.ctl.keys = s.ctl.keys := by
  cases moves : movesTimeOrKeys c with
  | false => exact (exec_keeps runs moves).keys
  | true =>
    cases c with
    | keyLoad ph =>
      cases runs
      cases ph with
      | doorbell => exact (kcpWrite_keeps (.refl _) _ _).keys
      | ends => exact absurd rfl load
    | keyErase ph =>
      cases runs
      cases ph with
      | doorbell => exact (kcpWrite_keeps (.refl _) _ _).keys
      | ends => exact absurd rfl erase
    | powerStateDone => exact absurd rfl park
    | coldReset => exact absurd rfl cold
    | warmReset cycles => exact absurd rfl (warm cycles)
    | delayResp src dom seq t4 => cases runs; exact keys_delayResp ..
    | _ => cases moves

/-! ### The end of a key command -/

/-- The slot of a domain holds `k`, or is empty; its SEQ restarts, and no incarnation counts as assigned since (02 R44). -/
def State.keySlot (s : State) (d : Nat) (k : Option (BitVec 256)) : State :=
  { s with ctl := { s.ctl with
    keys := s.ctl.keys.set (fun _ => none) d k, seq := s.ctl.seq.set (fun _ => 0) d 0,
    incSince := s.ctl.incSince.set (fun _ => false) d false } }

section
variable {s : State} {op : Nat}

theorem keyEnds_other (other : s.ctl.cmd ≠ some op) : keyEnds op s = s := if_pos (by simpa using other)
theorem keyEnds_inUse (runs : s.ctl.cmd = some op) (used : s.slotInUse (s.regF 0x001044 0 12) = true) :
    keyEnds op s = s.cmdEnd 4 :=
  (if_neg (by simp [runs])).trans (if_pos used)
theorem keyEnds_stores (runs : s.ctl.cmd = some op) (free : s.slotInUse (s.regF 0x001044 0 12) = false) :
    keyEnds op s = (s.keySlot (s.regF 0x001044 0 12) (if op = 1 then some s.stagedKey else none)).cmdEnd 0 :=
  (if_neg (by simp [runs])).trans (if_neg (Bool.eq_false_iff.1 free))

theorem keys_cmdEnd (s : State) (result : Nat) : (s.cmdEnd result).ctl.keys = s.ctl.keys :=
  (State.cmdEnd_keeps (.refl s) result).keys

/-- A key command ends with every slot as it was but that of its domain (02 R44). -/
theorem keyEnds_otherSlots (op : Nat) (s : State) {d : Nat} (other : d ≠ s.regF 0x001044 0 12) :
    (keyEnds op s).ctl.keys.get (fun _ => none) d = s.ctl.keys.get (fun _ => none) d := by
  by_cases runs : s.ctl.cmd = some op
  · cases used : s.slotInUse (s.regF 0x001044 0 12) with
    | true => rw [keyEnds_inUse runs used, keys_cmdEnd]
    | false =>
      rw [keyEnds_stores runs used, keys_cmdEnd]
      exact (SMap.get_set ..).trans (if_neg other)
  · rw [keyEnds_other runs]

end

/-! ### Deep park and resets -/

/-- Entering deep park erases the keys (13 R388). -/
theorem keys_enterPark (s : State) : s.enterPark.ctl.keys = [] := by
  have settled := fun t : State => (Keeps.foldl (b := t) (fun t k => t.settle (k / 64) (k % 64) .absent)
    (fun _ _ k => State.settle_keeps k _ _ _) parkXings t (.refl t)).keys
  unfold State.enterPark
  exact (State.setPower_keeps (State.timeParks_keeps (.refl _)) 2).keys.trans (settled _)

theorem keys_powerDone (s : State) : (powerDone s).ctl.keys = s.ctl.keys ∨ (powerDone s).ctl.keys = [] := by
  unfold powerDone
  split
  · exact .inl rfl
  · split
    · exact .inr ((keys_cmdEnd ..).trans (keys_enterPark s))
    · split
      · exact .inl (State.cmdEnd_keeps (State.timeWakes_keeps (State.setPower_keeps (.refl s) 0)) 0).keys
      · exact .inl rfl

theorem ctl_blockReset (s : State) (epoch : Nat) (t : TimeSt) : (s.blockReset epoch t).ctl = State.reset.ctl := by
  unfold State.blockReset
  dsimp only
  split <;> split <;> rfl

theorem keys_pulse (s : State) (least cycles : Nat) : (s.pulse least cycles).2.ctl.keys = s.ctl.keys := by
  unfold State.pulse
  split <;> rfl

/-- A warm reset erases the keys, or its pulse has no effect (02 R50, R442). -/
theorem keys_warmReset (cycles : Nat) (s : State) :
    (warmReset cycles s).ctl.keys = s.ctl.keys ∨ (warmReset cycles s).ctl.keys = [] := by
  have pulsed := keys_pulse s 100 cycles
  unfold warmReset
  split
  · exact .inl rfl
  · generalize s.pulse 100 cycles = pulse at pulsed ⊢
    obtain ⟨resets, s1⟩ := pulse
    dsimp only
    split
    · exact .inr (congrArg Ctl.keys (ctl_blockReset ..))
    · exact .inl ((State.krdyDip_keeps (.refl s1)).keys.trans pulsed)

/-- Settles O32: the keys are followed through the commands that may change them; every other command keeps them. -/
theorem sealedKeysChange : Obligations.SealedKeysChange := by
  intro c s t runs key
  refine ⟨exec_keys runs, ?_, ?_⟩
  · rintro (rfl | rfl) d other <;> cases runs <;> exact keyEnds_otherSlots _ s other
  · have slots : ∀ u : State, u.ctl.keys = s.ctl.keys ∨ u.ctl.keys = [] →
        (∀ d, key u d = key s d) ∨ ∀ d, key u d = none := by
      rintro u (kept | erased)
      · exact .inl fun d => congrArg (SMap.get _ · d) kept
      · exact .inr fun d => congrArg (SMap.get _ · d) erased
    rintro (rfl | rfl | ⟨n, rfl⟩) <;> cases runs
    · exact slots _ (keys_powerDone s)
    · exact slots _ (.inr (congrArg Ctl.keys (ctl_blockReset ..)))
    · exact slots _ (keys_warmReset n s)

end Sys2Proof.Machine
end

section
/-! What a state leaves when only the control unit acts: the outputs, the control state and a few registers change. And what the
control port answers to a write that it serves, refuses for KRDY, or refuses for a locked page. -/
namespace Sys2Proof.Machine
open Sys2Proof

/-! ### Completion and history -/

/-- Settles O29: every step grows. -/
theorem stepsOnlyAddHistory : Obligations.StepsOnlyAddHistory := by
  intro s t runs
  have grows := step_grows runs
  exact ⟨grows.out, grows.fresh⟩

theorem built_of_counted {cls : BitVec 3} {idx : BitVec 6} (counted : countedPort cls idx = true) :
    built cls.toNat idx.toNat = true := by
  have below := idx.isLt
  simp only [countedPort, Bool.or_eq_true, Bool.and_eq_true, beq_iff_eq, decide_eq_true_eq] at counted
  rcases counted with cls1 | ⟨(cls2 | cls3) | cls4, small⟩ <;> simp_all [built, portsOf]

theorem ofPort_built {c i : Nat} (s : State) (h : built c i = true) : ofPort c i s = .next s := if_pos h
theorem ofPort_unbuilt {c i : Nat} (s : State) (h : built c i = false) : ofPort c i s = .fault .noSuchCrossing :=
  if_neg (Bool.eq_false_iff.1 h)

/-- An alignment event answers where its crossing is built, and faults elsewhere. -/
theorem ofPort_answers {cls : BitVec 3} {idx : BitVec 6} {p : Bool} (s : State) (names : p = true → countedPort cls idx = true) :
    (∃ t, ofPort cls.toNat idx.toNat s = .next t)
      ∨ (p = false ∧ ofPort cls.toNat idx.toNat s = .fault .noSuchCrossing) := by
  cases h : built cls.toNat idx.toNat with
  | true => exact .inl ⟨s, ofPort_built s h⟩
  | false =>
    refine .inr ⟨?_, ofPort_unbuilt s h⟩
    by_contra wf
    rw [built_of_counted (names (Bool.eq_true_of_not_eq_false wf))] at h
    cases h

/-- A command answers a next state, unless it is an ill-formed alignment event, which faults. -/
theorem exec_answers (c : Instr) (s : State) :
    (∃ t, exec c s = .next t) ∨ (c.wf = false ∧ exec c s = .fault .noSuchCrossing) := by
  cases c with
  | alignFrequency cls idx n => exact ofPort_answers _ id
  | alignFill cls idx ts => exact ofPort_answers _ fun wf => (Bool.and_eq_true_iff.1 wf).1
  | alignLock cls idx ok => exact ofPort_answers _ id
  | _ => exact .inl ⟨_, rfl⟩

/-- Settles O30: every command but three completes by its own shape, and these three follow `built`. -/
theorem wellFormedCommandsComplete : Obligations.WellFormedCommandsComplete := by
  refine ⟨fun c s wf => ?_,
    fun s cls idx n ts ok h => ⟨ofPort_unbuilt _ h, ofPort_unbuilt _ h, ofPort_unbuilt _ h⟩, fun c s r refused => ?_⟩
  · rcases exec_answers c s with answers | ⟨ill, -⟩
    · exact answers
    · rw [wf] at ill
      cases ill
  · rcases exec_answers c s with ⟨t, answers⟩ | ⟨-, faults⟩
    · rw [answers] at refused
      cases refused
    · rw [faults] at refused
      cases refused

/-! ### What the control unit's operations leave -/

/-- `t` is `s` but for the outputs, the control state and the registers of `l`. -/
structure LeavesBut (l : List Nat) (s t : State) : Prop where
  rest : t = { s with regs := t.regs, out := t.out, ctl := t.ctl }
  reg : ∀ a, a ∉ l → t.reg a = s.reg a

section
variable {l : List Nat} {s t u : State}

theorem LeavesBut.refl (l : List Nat) (s : State) : LeavesBut l s s := ⟨rfl, fun _ _ => rfl⟩
theorem LeavesBut.trans (h : LeavesBut l s t) (k : LeavesBut l t u) : LeavesBut l s u :=
  ⟨k.rest.trans (congrArg (fun x : State => { x with regs := u.regs, out := u.out, ctl := u.ctl }) h.rest),
    fun a out => (k.reg a out).trans (h.reg a out)⟩
theorem LeavesBut.ite {p : Prop} [Decidable p] (h : LeavesBut l s t) (k : LeavesBut l s u) :
    LeavesBut l s (if p then t else u) := by split <;> assumption
theorem LeavesBut.foldl {α : Type} {f : State → α → State} (each : ∀ s x, LeavesBut l s (f s x)) (xs : List α) (s : State) :
    LeavesBut l s (xs.foldl f s) := by
  induction xs generalizing s with
  | nil => exact .refl l s
  | cons x xs ih => exact (each s x).trans (ih _)
theorem LeavesBut.mono {k : List Nat} (h : LeavesBut l s t) (sub : l ⊆ k) : LeavesBut k s t :=
  ⟨h.rest, fun a out => h.reg a fun within => out (sub within)⟩
theorem LeavesBut.regN (h : LeavesBut l s t) {a : Nat} (out : a ∉ l) : t.regN a = s.regN a :=
  congrArg BitVec.toNat (h.reg a out)
theorem LeavesBut.mem (h : LeavesBut l s t) : t.mem = s.mem := (congrArg State.mem h.rest).trans rfl
theorem LeavesBut.recs (h : LeavesBut l s t) : recs t = recs s := (congrArg Machine.recs h.rest).trans rfl

/-- A change of the control state alone. -/
theorem setCtl_leaves (l : List Nat) (s : State) (c : Ctl) : LeavesBut l s { s with ctl := c } := ⟨rfl, fun _ _ => rfl⟩
theorem emit_leaves (l : List Nat) (s : State) (o : Output) : LeavesBut l s (s.emit o) := ⟨rfl, fun _ _ => rfl⟩
theorem setReg_leaves {a : Nat} (s : State) (v : W32) (within : a ∈ l) : LeavesBut l s (s.setReg a v) :=
  ⟨rfl, fun x out => (State.reg_setReg ..).trans (if_neg fun same : x = a => out (same ▸ within))⟩
theorem setRegN_leaves {a : Nat} (s : State) (v : Nat) (within : a ∈ l) : LeavesBut l s (s.setRegN a v) :=
  setReg_leaves s _ within
theorem countEv_leaves {pg : Nat} (s : State) (ev n : Nat) (within : pg + 0x2C ∈ l) : LeavesBut l s (s.countEv pg ev n) :=
  .ite (setRegN_leaves s _ within) (.refl l s)
theorem countPg_leaves {pg : Nat} (s : State) (ev : Nat) (within : pg + 0x2C ∈ l) : LeavesBut l s (s.countPg pg ev) :=
  .ite (countEv_leaves s _ _ within) (.refl l s)
theorem krdyEdge_leaves (was : Bool) (s : State) (within : 0x2C ∈ l) : LeavesBut l s (krdyEdge was s) :=
  .ite ((emit_leaves ..).trans (countEv_leaves _ _ _ within)) (.ite (emit_leaves ..) (.refl l s))
theorem attend_leaves (s : State) (n : Nat) (within : [0x2C, 0x44] ⊆ l) : LeavesBut l s (s.attend n) :=
  (setRegN_leaves s _ (within (by decide))).trans (krdyEdge_leaves _ _ (within (by decide)))
theorem raise_leaves {pg : Nat} (s : State) (bits : Nat) (within : [pg + 0x18, pg + 0x24, 0x2C, 0x44] ⊆ l) :
    LeavesBut l s (s.raise pg bits) := by
  have flags := fun v => setRegN_leaves s v (within (a := pg + 0x18) (by simp))
  have recorded : ∀ {p : Prop} [Decidable p] (v w : Nat),
      LeavesBut l s (if p then (s.setRegN (pg + 0x18) v).setRegN (pg + 0x24) w else s.setRegN (pg + 0x18) v) :=
    fun v w => .ite ((flags v).trans (setRegN_leaves _ w (within (by simp)))) (flags v)
  exact .ite ((recorded _ _).trans (attend_leaves _ _ fun a h => within (by simp at h ⊢; omega))) (recorded _ _)
theorem err_leaves {pg : Nat} (s : State) (i : Nat) (within : [pg + 0x18, pg + 0x24, 0x2C, 0x44] ⊆ l) :
    LeavesBut l s (s.err pg i) := raise_leaves s _ within
theorem acked_leaves {a : Nat} (s : State) (within : [0x4C, 0x50, pageOf a + 0x2C] ⊆ l) : LeavesBut l s (s.acked a) :=
  (((setRegN_leaves s _ (within (by simp))).trans (setRegN_leaves _ _ (within (by simp)))).trans
    (countPg_leaves _ _ (within (by simp)))).trans (emit_leaves ..)
theorem setUnlock_leaves (l : List Nat) (s : State) (pg : Nat) (b : Bool) : LeavesBut l s (s.setUnlock pg b) :=
  setCtl_leaves ..

end

/-! ### How the control port answers a write -/

section
variable {s : State} {a : Nat} {v meet : W32}

/-- The effect of a write that the control port takes: on the page's header or on its body (02 R33). -/
def State.takeWrite (s : State) (a : Nat) (v meet : W32) : State × Bool :=
  if offOf a < 0x40 then s.headWrite (pageOf a) (offOf a) v meet else s.bodyWrite a v meet

theorem takeWrite_body (body : 0x40 ≤ offOf a) : s.takeWrite a v meet = s.bodyWrite a v meet := if_neg (Nat.not_lt.2 body)

/-- A write that reaches an implemented page takes effect there and is acknowledged, or completes with KCP_NAK (02 R30). -/
theorem hostWrite_takes (ready : s.krdy = true ∨ a = 0x44 ∨ a = 0x48) (word : a % 4 = 0) (page : (pageRow a).isSome = true)
    (notKey : offOf a ≠ 0x0C) (opened : s.isProtected a v = false ∨ s.ctl.unlock.get (fun _ => false) (pageOf a) = true)
    {t : State} {ok : Bool} (writes : (s.locked a).takeWrite a v meet = (t, ok)) :
    (hostWrite a v meet s).1.emit (.kcp (hostWrite a v meet s).2 0) = if ok then t.acked a else t.naked a 1 := by
  have aligned : a / 4 * 4 = a := by omega
  have served : (!s.krdy && a != 0x44 && a != 0x48) = false := by rcases ready with h | h | h <;> simp [h]
  have present : (pageRow a).isNone = false := by simpa using page
  have free : (s.isProtected a v && !s.ctl.unlock.get (fun _ => false) (pageOf a)) = false := by
    rcases opened with h | h <;> simp [h]
  unfold State.takeWrite State.locked at writes
  unfold hostWrite
  simp only [aligned, served, present, free, notKey, Bool.false_eq_true, if_false, writes]
  cases ok <;> rfl

/-- While KRDY is low a write changes nothing but the lock of its page and its event counter (02 R40, R60). -/
theorem hostWrite_busy (busy : s.krdy = false) (word : a % 4 = 0) (attn : a ≠ 0x44) (abort : a ≠ 0x48) :
    hostWrite a v meet s = ((if offOf a = 0x0C then s else s.locked a).countPg (pageOf a) 0, false) := by
  have aligned : a / 4 * 4 = a := by omega
  unfold hostWrite
  simp only [aligned]
  exact if_pos (by simp [busy, attn, abort])

/-- A protected write of a locked page sets KEY_FAIL (02 R35). -/
theorem hostWrite_keyFail (ready : s.krdy = true) (word : a % 4 = 0) (page : (pageRow a).isSome = true)
    (notKey : offOf a ≠ 0x0C) (guarded : s.isProtected a v = true)
    (closed : s.ctl.unlock.get (fun _ => false) (pageOf a) = false) :
    hostWrite a v meet s = (((s.locked a).err (pageOf a) 0).countPg (pageOf a) 1, false) := by
  have aligned : a / 4 * 4 = a := by omega
  have present : (pageRow a).isNone = false := by simpa using page
  unfold hostWrite
  simp only [aligned, ready, present, notKey, guarded, closed, Bool.not_true, Bool.not_false, Bool.false_and,
    Bool.and_self, Bool.false_eq_true, if_false, if_true, State.locked]

/-- A write whose host drops KCP_SEL takes effect, gets no response and sets KCP_PROTOCOL (02 R31). -/
theorem kcp_dropped (up : s.kcpUp = true) (a : Addr) (v meet : W32) :
    kcp ⟨true, a, v, true, meet⟩ s = (hostWrite a.toNat v meet s).1.err 0x000000 8 := by
  unfold State.kcpUp at up
  simp only [Bool.and_eq_true, Bool.not_eq_true'] at up
  simp [kcp, up, kcpDo]

end

/-- Settles O1: the write of the page body, with and without its response. -/
theorem hostWriteOfPlainRegister : Obligations.HostWriteOfPlainRegister := by
  intro s a v r up word row plain fits
  have page := regRow_page row
  have body := regRow_off row
  have stores := body_plain (meet := 0) row plain fits
  have answers := hostWrite_body up word page body (.inl (plain_prot plain)) stores
  have effect := hostWrite_body_fst up word page body (.inl (plain_prot plain)) stores
  refine ⟨congrArg done ((kcp_write (hostUp_kcpUp up) a v 0).trans answers),
    congrArg done ((kcp_dropped (hostUp_kcpUp up) a v 0).trans ?_)⟩
  rw [effect]

/-- Settles O2: the two refusals that precede what a page does. -/
theorem writesRefused : Obligations.WritesRefused := by
  intro s a v word notKey
  refine ⟨fun up busy attn abort => congrArg done ((kcp_write up ..).trans ?_),
    fun up page guarded closed => congrArg done ((kcp_write (hostUp_kcpUp up) ..).trans ?_)⟩
  · rw [hostWrite_busy busy word attn abort, if_neg notKey]
    rfl
  · rw [hostWrite_keyFail (hostUp_iff.1 up).2.2 word page notKey guarded closed]
    rfl

end Sys2Proof.Machine
end

section
/-! What a write of the page header does: PG_KEY, PG_ERR_SET, PG_CNT_SEL, quiesce and its end, the page soft reset, PG_ERR; and
what a write of CTL_ATTN does. -/
namespace Sys2Proof.Machine
open Sys2Proof

/-! ### Headers -/

section
variable {s : State} {page : Page} {v : W32}

/-- The base address of a page (00 R4). -/
abbrev pageBase (page : Page) : Nat := page.toNat * 4096

/-- An acknowledged write of the page header. -/
theorem kcpWrite_head {o : Nat} {t : State} (up : s.hostUp = true) (head : o < 0x40) (word : o % 4 = 0) (notKey : o ≠ 0x0C)
    (present : (pageRow (pageBase page)).isSome = true)
    (opened : o ≠ 0x1C ∨ s.ctl.unlock.get (fun _ => false) (pageBase page) = true)
    (writes : (s.setUnlock (pageBase page) false).headWrite (pageBase page) o v 0 = (t, true)) :
    kcpWrite (inPage page o) v s = t.acked (inPage page o) :=
  (kcpWrite_eq (hostUp_kcpUp up) (inPage_lt page o (by omega)) v).trans
    (hostWrite_head up head word notKey present opened writes)

end

/-- Settles O3: each of the three registers by what its write leaves. -/
theorem pageKeyErrorSetAndCounterSelect : Obligations.PageKeyErrorSetAndCounterSelect := by
  intro s page v up present pg
  exact ⟨congrArg done ((kcpWrite_eq (hostUp_kcpUp up) (inPage_lt page 0x0C (by decide)) v).trans (hostWrite_pgKey up present)),
    fun opened => congrArg done (kcpWrite_head up (by decide) rfl (by decide) present (.inr opened) rfl),
    congrArg done (kcpWrite_head up (by decide) rfl (by decide) present (.inl (by decide)) rfl)⟩

/-! ### Quiesce -/

section
variable {s : State} {pg : Nat} {v : W32}

theorem pgCtrl_soft (soft : bit v 2 = true) (still : s.quiesced pg = true) : s.pgCtrl pg v = (s.softReset pg, true) :=
  (if_pos soft).trans (if_pos still)
theorem pgCtrl_softRefused (soft : bit v 2 = true) (moves : s.quiesced pg = false) : s.pgCtrl pg v = (s.err pg 1, false) :=
  (if_pos soft).trans (if_neg (Bool.eq_false_iff.1 moves))
theorem pgCtrl_quiesce (soft : bit v 2 = false) (set : bit v 1 = true) (was : s.quiescing pg = false) :
    s.pgCtrl pg v = ((s.setReg (pg + 0x10) (v &&& 3)).quiesceOn pg, true) := by
  simp [State.pgCtrl, soft, set, was]
theorem pgCtrl_goesOn (soft : bit v 2 = false) (clear : bit v 1 = false) (was : s.quiescing pg = true) :
    s.pgCtrl pg v = ((s.setReg (pg + 0x10) (v &&& 3)).quiesceOff pg, true) := by
  simp [State.pgCtrl, soft, clear, was]

theorem quiesceOff_plain (pt : pg ≠ 0x101000) (scan : pg ≠ 0x200000) (check : pg ≠ 0x201000) :
    s.quiesceOff pg = s.setRegN (pg + 0x14) 0x20 := by
  simp [State.quiesceOff, pt, scan, check]
theorem quiescedEv_ends (quiet : s.quiescing pg = true) (state : fld (s.reg (pg + 0x14)) 4 4 = 4) (idle : s.inFlight pg = false) :
    quiescedEv pg s = s.setRegN (pg + 0x14) 0x52 := if_pos (by simp [quiet, state, idle])

end

theorem bit_or (x y : W32) (i : Nat) : bit (x ||| y) i = (bit x i || bit y i) := by simp [bit]
theorem bit_and (x y : W32) (i : Nat) : bit (x &&& y) i = (bit x i && bit y i) := by simp [bit]

/-- Settles O4: PG_CTRL by the change of its QUIESCE bit. -/
theorem quiesceAndItsEnd : Obligations.QuiesceAndItsEnd := by
  intro s page pg u
  have writes : ∀ {v : W32} {t : State}, s.hostUp = true → (pageRow pg).isSome = true → u.pgCtrl pg v = (t, true) →
      done (kcpWrite (inPage page 0x10) v s) = .next (t.acked (pg + 0x10)) := fun up present takes =>
    congrArg done (kcpWrite_head up (by decide) rfl (by decide) present (.inl (by decide)) takes)
  refine ⟨fun up present was soft => writes up present (pgCtrl_quiesce (s := u) ?_ ?_ was),
    fun up present was => writes up present (pgCtrl_goesOn (s := u) ?_ ?_ was), quiesceOff_plain,
    fun quiet state idle => congrArg done (quiescedEv_ends quiet state idle)⟩
  · rw [bit_or]
    exact Bool.or_eq_false_iff.2 ⟨soft, by decide⟩
  · rw [bit_or]
    exact Bool.or_eq_true_iff.2 (.inr (by decide))
  · rw [bit_and]
    exact Bool.and_eq_false_iff.2 (.inr (by decide))
  · rw [bit_and]
    exact Bool.and_eq_false_iff.2 (.inr (by decide))

/-! ### Page soft reset -/

/-- Memory and the records that windows hold, one by one. -/
theorem recs_eq_iff {s t : State} : recs t = recs s ↔ t.mem = s.mem ∧ t.ctxR = s.ctxR ∧ t.polR = s.polR ∧ t.updR = s.updR
    ∧ t.domR = s.domR ∧ t.tqR = s.tqR ∧ t.partR = s.partR ∧ t.grdR = s.grdR := by
  simp [recs]

/-- A soft reset takes the registers of its page to their reset values, but for those that survive (15 R403). -/
theorem reg_softReset_page (s : State) {pg a : Nat} (page : pageOf a = pg) (other : a ≠ 0x2C) :
    (s.softReset pg).reg a = if keepReg a then s.reg a else regReset a :=
  (reg_krdyEdge _ _ _ other).trans (get_filter_page s a page)
theorem reg_softReset_elsewhere (s : State) {pg a : Nat} (page : pageOf a ≠ pg) (other : a ≠ 0x2C) :
    (s.softReset pg).reg a = s.reg a :=
  (reg_krdyEdge _ _ _ other).trans
    (SMap.get_filter regReset (fun e => pageOf e != pg || keepReg e) s.regs a (by simp [page]))
theorem unlock_softReset (s : State) (pg : Nat) : (s.softReset pg).ctl.unlock.get (fun _ => false) pg = false := by
  unfold State.softReset
  rw [krdyEdge_ctl]
  exact (SMap.get_set ..).trans (if_pos rfl)

/-- A refused write of the page header. -/
theorem kcpWrite_headNak {s t : State} {page : Page} {o : Nat} {v : W32} (up : s.hostUp = true) (head : o < 0x40)
    (word : o % 4 = 0) (notKey : o ≠ 0x0C) (present : (pageRow (pageBase page)).isSome = true)
    (free : s.isProtected (inPage page o) v = false)
    (writes : (s.setUnlock (pageBase page) false).headWrite (pageBase page) o v 0 = (t, false)) :
    kcpWrite (inPage page o) v s = t.naked (inPage page o) 1 := by
  have off := offOf_inPage page o (by omega) word
  have pg := pageOf_inPage page o (by omega)
  refine (kcpWrite_eq (hostUp_kcpUp up) (inPage_lt page o (by omega)) v).trans (hostWrite_takes (t := t) (ok := false)
    (.inl (hostUp_iff.1 up).2.2) (by unfold inPage; omega) ((pageRow_inPage page o (by omega)).symm ▸ present)
    (off.symm ▸ notKey) (.inl free) ?_)
  unfold State.takeWrite State.locked
  rw [off, pg, if_pos head]
  exact writes

/-- PG_CTRL of a page is not protected (02 Table 2-4). -/
theorem isProtected_pgCtrl (s : State) (page : Page) (v : W32) : s.isProtected (inPage page 0x10) v = false := by
  have set : offOf (inPage page 0x10) ≠ 0x1C := by rw [offOf_inPage page 0x10 (by decide) rfl]; decide
  have elsewhere : inPage page 0x10 ≠ 0x1040 ∧ inPage page 0x10 ≠ 0xE01054 ∧ inPage page 0x10 ≠ 0xC00048 := by
    unfold inPage
    omega
  simp [State.isProtected, set, elsewhere]

/-- Settles O5: a write of PG_CTRL with SOFT_RESET set, by whether its page is QUIESCED. -/
theorem softResetOfAPage : Obligations.SoftResetOfAPage := by
  intro s page up present pg
  have soft : bit (s.reg (pg + 0x10) ||| 4) 2 = true := by
    rw [bit_or]
    exact Bool.or_eq_true_iff.2 (.inr (by decide))
  refine ⟨fun still => ?_, fun moves => congrArg done (kcpWrite_headNak up (by decide) rfl (by decide) present
    (isProtected_pgCtrl ..) (pgCtrl_softRefused (s := s.setUnlock pg false) soft moves))⟩
  let u := s.setUnlock pg false
  have header : pageOf (pg + 0x10) = pg := pageOf_inPage page 0x10 (by decide)
  have reads : ∀ a, offOf a ≠ 0x2C ∨ pageOf a ≠ pg → a ≠ 0x4C → a ≠ 0x50 →
      ((u.softReset pg).acked (pg + 0x10)).reg a = (u.softReset pg).reg a := fun a other count last =>
    reg_acked _ _ _ count last (by
      rw [header]
      have aligned : pg % 4096 = 0 := Nat.mul_mod_left ..
      unfold offOf pageOf at other
      omega)
  refine ⟨_, congrArg done (kcpWrite_head up (by decide) rfl (by decide) present (.inl (by decide))
    (pgCtrl_soft (s := u) soft still)), fun a here count last other => ?_, fun a away count last counter => ?_, ?_,
    recs_eq_iff.1 ((acked_recs' ..).trans (softReset_recs' u pg))⟩
  · exact (reads a (.inl other) count last).trans (reg_softReset_page u here fun same => other (congrArg offOf same))
  · exact (reads a (.inr away) count last).trans (reg_softReset_elsewhere u away counter)
  · rw [acked_ctl]
    exact unlock_softReset u pg

end Sys2Proof.Machine
end

section
/-! PG_ERR, PG_ERR_FIRST and CTL_ATTN: what raising and clearing error bits leaves, and what a write of CTL_ATTN does. -/
namespace Sys2Proof.Machine
open Sys2Proof

/-! ### Raising error bits -/

/-- PG_ERR_FIRST holds VALID, an index and 24 bits of KTIME (02 Table 2-4). -/
theorem errFirst_lt (m k : Nat) : 2 ^ 31 + lowBit m * 2 ^ 24 + nfld k 10 24 < 2 ^ 32 := by
  have index : lowBit m ≤ 31 := (lowBitF_lt 31 0 m).trans (by decide)
  have stamp : nfld k 10 24 < 2 ^ 24 := Nat.mod_lt _ (by decide)
  omega
theorem attention_lt (s : State) (pg : Nat) : s.regN 0x000044 ||| 2 ^ subOf pg < 2 ^ 32 :=
  Nat.or_lt_two_pow (regN_lt ..) (Nat.pow_lt_pow_right (by decide) ((subOf_lt pg).trans (by decide)))

/-! ### CTL_ATTN -/

theorem attnClear_leaves (s : State) (v meet : W32) : LeavesBut [0x2C, 0x44] s (s.attnClear v meet) :=
  .trans (.trans (.ite (countEv_leaves _ _ _ (by decide)) (.refl _ s)) (setRegN_leaves _ _ (by decide)))
    (krdyEdge_leaves _ _ (by decide))
/-- A set that meets a clear leaves the bit at 1 (02 R39). -/
theorem regN_attnClear (s : State) (v meet : W32) :
    (s.attnClear v meet).regN 0x000044 = (s.regN 0x000044 &&& (2 ^ 32 - 1 - v.toNat)) ||| meet.toNat % 2 ^ 16 := by
  have small : (s.regN 0x000044 &&& (2 ^ 32 - 1 - v.toNat)) ||| meet.toNat % 2 ^ 16 < 2 ^ 32 :=
    Nat.or_lt_two_pow (Nat.lt_of_le_of_lt Nat.and_le_left (regN_lt ..)) ((Nat.mod_lt _ (by decide)).trans (by decide))
  unfold State.attnClear
  rw [regN_krdyEdge _ _ _ (by decide), regN_setRegN, if_pos rfl, Nat.mod_eq_of_lt small]

/-- A write of CTL_ATTN or CTL_ABORT is taken while KRDY is low too (02 R40). -/
theorem kcp_ctl0 {s t : State} {a : Nat} {v meet : W32} (up : s.kcpUp = true) (which : a = 0x44 ∨ a = 0x48)
    (writes : (s.setUnlock 0 false).bodyWrite a v meet = (t, true)) :
    kcp ⟨true, BitVec.ofNat 24 a, v, false, meet⟩ s = t.acked a := by
  have small : a < 2 ^ 24 := by omega
  have ctl0 : pageOf a = 0 ∧ offOf a = a := by unfold pageOf offOf; omega
  have free : s.isProtected a v = false := by
    have elsewhere : a ≠ 0x1C ∧ a ≠ 0x1040 ∧ a ≠ 0xE01054 ∧ a ≠ 0xC00048 := by omega
    simp [State.isProtected, ctl0.2, elsewhere]
  rw [kcp_write up, BitVec.toNat_ofNat, Nat.mod_eq_of_lt small]
  refine hostWrite_takes (t := t) (ok := true) (.inr which) (by omega) ?_ (by omega) (.inl free) ?_
  · rcases which with rfl | rfl <;> decide
  · unfold State.locked
    rw [takeWrite_body (by omega), ctl0.1]
    exact writes

/-- An acknowledged write of CTL_ATTN. -/
theorem kcp_attn {s : State} (up : s.kcpUp = true) (v meet : W32) :
    kcp ⟨true, 0x000044, v, false, meet⟩ s = ((s.setUnlock 0 false).attnClear v meet).acked 0x000044 :=
  kcp_ctl0 up (.inl rfl) rfl

/-- Settles O8: the three registers that raising an error may change, and the write of CTL_ATTN. -/
theorem attentionRisesWithARoutedError : Obligations.AttentionRisesWithARoutedError := by
  refine ⟨fun s pg bits p row aligned space => ?_, fun s v meet up => ?_⟩
  · intro m old
    have raised := regN_raise_all s pg bits p row aligned
    rwa [Nat.mod_eq_of_lt (errFirst_lt ..), Nat.mod_eq_of_lt (attention_lt ..)] at raised
  · let u := s.setUnlock 0 false
    have acks := acked_leaves (l := [0x2C, 0x4C, 0x50]) (a := 0x44) (u.attnClear v meet) (by decide)
    have all : LeavesBut [0x2C, 0x44, 0x4C, 0x50] s ((u.attnClear v meet).acked 0x44) :=
      ((setUnlock_leaves _ s 0 false).trans ((attnClear_leaves u v meet).mono (by decide))).trans (acks.mono (by decide))
    exact ⟨_, congrArg done (kcp_attn up v meet), (acks.regN (by decide)).trans (regN_attnClear u v meet), rfl, all.reg, all.mem⟩

/-! ### PG_ERR -/

/-- The registers that hold the record of a first failure (15 Tables 15-13, 15-14; 16 Tables 16-3, 16-10, 16-14). -/
def firstFailures : List Nat := [0x400050, 0x500058, 0x800050, 0xC00074, 0xE01060]

theorem unrecord_leaves (s : State) (pg gone : Nat) : LeavesBut firstFailures s (s.unrecord pg gone) := by
  have off := fun a v (within : a ∈ firstFailures) => setRegN_leaves (l := firstFailures) s v within
  unfold State.unrecord
  split
  case h_6 => exact .refl _ s
  all_goals exact .ite (off _ _ (by decide)) (.refl _ s)

/-- What a W1C write of PG_ERR stores: PG_ERR, the record of a first failure that goes with a cleared bit, and PG_ERR_FIRST (02
R36). -/
def State.errStored (s : State) (pg new : Nat) : State :=
  let t := (s.setRegN (pg + 0x18) new).unrecord pg (s.regN (pg + 0x18) &&& (2 ^ 32 - 1 - new))
  if new = 0 then t.setRegN (pg + 0x24) 0 else t

section
variable {s : State} {pg : Nat} {v meet : W32} {p : PageRow}

/-- PG_ERR after a W1C write that meets events (02 R36). -/
def State.errLeft (s : State) (pg : Nat) (p : PageRow) (v meet : W32) : Nat :=
  (s.regN (pg + 0x18) &&& (2 ^ 32 - 1 - v.toNat)) ||| (meet.toNat &&& p.err)

theorem errLeft_lt (row : pageRow pg = some p) : s.errLeft pg p v meet < 2 ^ 32 :=
  Nat.or_lt_two_pow (Nat.lt_of_le_of_lt Nat.and_le_left (regN_lt ..))
    (Nat.lt_of_le_of_lt Nat.and_le_right (pageRow_err row))

theorem errClear_leaves (row : pageRow pg = some p) (held : s.regN (pg + 0x18) ≠ 0) :
    LeavesBut [0x2C, 0x44] (s.errStored pg (s.errLeft pg p v meet)) (s.errClear pg v meet) := by
  unfold State.errClear
  rw [row]
  dsimp only
  rw [if_neg held]
  exact .ite (attend_leaves _ _ (List.Subset.refl _)) (.refl _ _)

theorem errStored_leaves (s : State) (pg new : Nat) :
    LeavesBut ([pg + 0x18, pg + 0x24] ++ firstFailures) s (s.errStored pg new) := by
  have cleared : LeavesBut ([pg + 0x18, pg + 0x24] ++ firstFailures) s ((s.setRegN (pg + 0x18) new).unrecord pg
      (s.regN (pg + 0x18) &&& (2 ^ 32 - 1 - new))) :=
    (setRegN_leaves s _ (by simp)).trans ((unrecord_leaves ..).mono (List.subset_append_right _ _))
  exact .ite (cleared.trans (setRegN_leaves _ _ (by simp))) cleared

/-- No page header holds the record of a first failure. -/
theorem header_firstFailures (aligned : pg % 4096 = 0) {o : Nat} (head : o < 0x40) : pg + o ∉ firstFailures := by
  simp only [firstFailures, List.mem_cons, List.not_mem_nil, or_false]
  omega

theorem regN_errStored (aligned : pg % 4096 = 0) {new : Nat} (small : new < 2 ^ 32) :
    (s.errStored pg new).regN (pg + 0x18) = new
      ∧ (new = 0 → (s.errStored pg new).regN (pg + 0x24) = 0)
      ∧ (new ≠ 0 → (s.errStored pg new).reg (pg + 0x24) = s.reg (pg + 0x24)) := by
  have stored : ((s.setRegN (pg + 0x18) new).unrecord pg (s.regN (pg + 0x18) &&& (2 ^ 32 - 1 - new))).regN (pg + 0x18) = new := by
    rw [(unrecord_leaves ..).regN (header_firstFailures aligned (by decide)), regN_setRegN, if_pos rfl, Nat.mod_eq_of_lt small]
  have first : ((s.setRegN (pg + 0x18) new).unrecord pg (s.regN (pg + 0x18) &&& (2 ^ 32 - 1 - new))).reg (pg + 0x24)
      = s.reg (pg + 0x24) := by
    rw [(unrecord_leaves ..).reg _ (header_firstFailures aligned (by decide)), State.reg_setRegN, if_neg (by omega)]
  unfold State.errStored
  by_cases empty : new = 0
  · simp only [if_pos empty]
    refine ⟨?_, fun _ => ?_, fun left => absurd empty left⟩
    · rw [regN_setRegN, if_neg (by omega), stored]
    · rw [regN_setRegN, if_pos rfl, Nat.zero_mod]
  · simp only [if_neg empty]
    exact ⟨stored, fun is => absurd is empty, fun _ => first⟩

/-- An acknowledged write of PG_ERR. -/
theorem kcp_pgErr {page : Page} (up : s.hostUp = true) (present : (pageRow (pageBase page)).isSome = true) (v meet : W32) :
    kcp ⟨true, BitVec.ofNat 24 (inPage page 0x18), v, false, meet⟩ s =
      ((s.setUnlock (pageBase page) false).errClear (pageBase page) v meet).acked (pageBase page + 0x18) := by
  rw [kcp_write (hostUp_kcpUp up), BitVec.toNat_ofNat, Nat.mod_eq_of_lt (inPage_lt page 0x18 (by decide))]
  exact hostWrite_head up (by decide) rfl (by decide) present (.inl (by decide)) rfl

end

/-- Settles O7: what the write stores, then the attention that a meeting event may raise, then the acknowledgement. -/
theorem errorBitsClear : Obligations.ErrorBitsClear := by
  intro s page v meet p up row held pg old new
  let u := s.setUnlock pg false
  have aligned : pg % 4096 = 0 := Nat.mul_mod_left ..
  have header : pageOf (pg + 0x18) = pg := pageOf_inPage page 0x18 (by decide)
  have answers : LeavesBut [0x2C, 0x44, 0x4C, 0x50, pg + 0x2C] (u.errStored pg new)
      ((u.errClear pg v meet).acked (pg + 0x18)) :=
    ((errClear_leaves (s := u) row held).mono (by simp)).trans (acked_leaves _ (by simp [header]))
  have outside : ∀ o, o = 0x18 ∨ o = 0x24 → pg + o ∉ [0x2C, 0x44, 0x4C, 0x50, pg + 0x2C] := by
    simp only [List.mem_cons, List.not_mem_nil, or_false]
    omega
  obtain ⟨flags, empty, first⟩ := regN_errStored (s := u) aligned (errLeft_lt (s := u) (v := v) (meet := meet) row)
  refine ⟨_, congrArg done (kcp_pgErr up (by rw [row]; rfl) v meet), (answers.regN (outside _ (.inl rfl))).trans flags,
    fun zero => (answers.regN (outside _ (.inr rfl))).trans (empty zero),
    fun left => (answers.reg _ (outside _ (.inr rfl))).trans (first left), fun a err errFirst count others => ?_,
    recs_eq_iff.1 (answers.recs.trans (errStored_leaves u pg new).recs)⟩
  simp only [List.mem_cons, List.not_mem_nil, or_false, not_or] at others
  refine (answers.reg a ?_).trans ((errStored_leaves u pg new).reg a ?_)
  · simp [count, others]
  · simp [firstFailures, err, errFirst, others]

end Sys2Proof.Machine
end

section
/-! Control commands: what their start and their end leave, what a crossing's final status leaves, and what the writes of CTL_CMD
and CTL_ABORT do. -/
namespace Sys2Proof.Machine
open Sys2Proof

/-- The registers that control commands and the final status of a crossing change: CTL 0 event counter and CTL_ATTN, the error
header and event counter of CTL 1 and CTL 2, and CTL_CMD_STAT. -/
def cmdRegs : List Nat := [0x2C, 0x44, 0x1018, 0x1024, 0x102C, 0x1054, 0x2018, 0x2024, 0x202C]

/-! ### A final status -/

theorem ctl_portGood (s : State) (p : Nat) : (s.portGood p).ctl = s.ctl := by
  unfold State.portGood
  dsimp only
  split <;> rfl

/-- A final status changes the status of its crossing, and notes that KREF has one (02 R55). -/
theorem settle_ctl (s : State) (cls idx : Nat) (x : Xing) : (s.settle cls idx x).ctl = { s.ctl with
    xing := s.ctl.xing.set xing0 (xKey cls idx) x, krefDone := if cls = 0 then true else s.ctl.krefDone } := by
  have settled : ∀ t : State, t.ctl = s.ctl → ((t.setXing (xKey cls idx) x).krefSettled cls).ctl = { s.ctl with
      xing := s.ctl.xing.set xing0 (xKey cls idx) x, krefDone := if cls = 0 then true else s.ctl.krefDone } := by
    intro t same
    unfold State.krefSettled State.setXing
    rw [← same]
    split <;> rfl
  have flagged : (if (x != .opened && s.expects cls idx) = true then s.err 0x002000 8 else s).ctl = s.ctl := by
    split
    · exact err_ctl ..
    · rfl
  have final := settled _ flagged
  unfold State.settle
  dsimp only
  split
  · exact final
  · split
    · exact (ctl_portGood ..).trans final
    · exact final

theorem xing_of_ctl {s t : State} (same : t.ctl.xing = s.ctl.xing) (c i : Nat) : t.xing c i = s.xing c i :=
  congrArg (SMap.get xing0 · (xKey c i)) same
theorem get_settle (s : State) (cls idx : Nat) (x : Xing) (k : Nat) :
    (s.settle cls idx x).ctl.xing.get xing0 k = if k = xKey cls idx then x else s.ctl.xing.get xing0 k := by
  rw [settle_ctl]
  exact SMap.get_set ..

/-- A final status other than that of a MAC port that opens changes only flags, and the control state. -/
theorem settle_leaves (s : State) {cls : Nat} (idx : Nat) {x : Xing} (noPort : x ≠ .opened ∨ cls ≠ 3) :
    LeavesBut cmdRegs s (s.settle cls idx x) := by
  have flagged : LeavesBut cmdRegs s (if (x != .opened && s.expects cls idx) = true then s.err 0x002000 8 else s) :=
    .ite (err_leaves _ _ (by decide)) (.refl _ s)
  have settled : ∀ t : State, LeavesBut cmdRegs t ((t.setXing (xKey cls idx) x).krefSettled cls) := fun t =>
    (setCtl_leaves ..).trans (.ite (setCtl_leaves ..) (.refl ..))
  have final := flagged.trans (settled _)
  unfold State.settle
  dsimp only
  split
  · exact final
  · rename_i opened
    rw [if_neg (noPort.resolve_left fun other => opened (by simpa using other))]
    exact final.trans (emit_leaves ..)

/-! ### The start and the end of a command -/

theorem cmdStart_leaves (s : State) (op : Nat) : LeavesBut cmdRegs s (s.cmdStart op) :=
  (((setCtl_leaves _ s { s.ctl with cmd := some op }).trans (setReg_leaves _ _ (by decide))).trans
    (countEv_leaves _ _ _ (by decide))).trans (krdyEdge_leaves _ _ (by decide))

/-- The result of a command is recorded: CTL_CMD_STAT, CMD_ERR and the count of aborted commands (02 R43, 15 R407). -/
def State.cmdRecorded (s : State) (op result : Nat) : State :=
  let t := s.setRegN 0x001054 (result + op * 2 ^ 8)
  let u := if result = 0 then t else t.err 0x001000 8
  if result = 1 then u.countEv 0x001000 0x11 1 else u
/-- The state of the control unit when a command of an opcode has ended (02 R43, R44). -/
def Ctl.cmdOver (c : Ctl) (op : Nat) : Ctl :=
  { c with cmd := none, stage := if op = 1 || op = 2 then [] else c.stage }

theorem cmdRecorded_leaves (s : State) (op result : Nat) : LeavesBut cmdRegs s (s.cmdRecorded op result) := by
  have stat := setRegN_leaves (l := cmdRegs) (a := 0x001054) s (result + op * 2 ^ 8) (by decide)
  have flagged := LeavesBut.ite (p := result = 0) stat (stat.trans (err_leaves (pg := 0x001000) _ 8 (by decide)))
  exact .ite (flagged.trans (countEv_leaves _ _ _ (by decide))) flagged
theorem cmdRecorded_ctl (s : State) (op result : Nat) : (s.cmdRecorded op result).ctl = s.ctl := by
  have flagged : (if result = 0 then s.setRegN 0x001054 (result + op * 2 ^ 8)
      else (s.setRegN 0x001054 (result + op * 2 ^ 8)).err 0x001000 8).ctl = s.ctl := by
    split
    · rfl
    · exact err_ctl ..
  unfold State.cmdRecorded
  dsimp only
  split
  · exact (countEv_ctl ..).trans flagged
  · exact flagged

section
variable {s : State} {op : Nat}

theorem cmdEnd_idle (idle : s.ctl.cmd = none) (result : Nat) : s.cmdEnd result = s := by
  unfold State.cmdEnd
  rw [idle]
theorem cmdEnd_runs (runs : s.ctl.cmd = some op) (result : Nat) :
    s.cmdEnd result = krdyEdge (s.cmdRecorded op result).krdy
      { s.cmdRecorded op result with ctl := (s.cmdRecorded op result).ctl.cmdOver op } := by
  unfold State.cmdEnd
  rw [runs]
  rfl
theorem cmdEnd_ctl (runs : s.ctl.cmd = some op) (result : Nat) : (s.cmdEnd result).ctl = s.ctl.cmdOver op := by
  rw [cmdEnd_runs runs, krdyEdge_ctl, cmdRecorded_ctl]
/-- The end of a command moves no crossing. -/
theorem cmdEnd_xing (s : State) (result : Nat) : (s.cmdEnd result).ctl.xing = s.ctl.xing := by
  cases runs : s.ctl.cmd with
  | none => rw [cmdEnd_idle runs]
  | some op => rw [cmdEnd_ctl runs]; rfl

theorem cmdEnd_leaves (s : State) (result : Nat) : LeavesBut cmdRegs s (s.cmdEnd result) := by
  cases runs : s.ctl.cmd with
  | none => rw [cmdEnd_idle runs]; exact .refl _ s
  | some op =>
    rw [cmdEnd_runs runs]
    exact ((cmdRecorded_leaves ..).trans (setCtl_leaves ..)).trans (krdyEdge_leaves _ _ (by decide))
/-- A command that ends DONE changes CTL_CMD_STAT, and the event counter of CTL 0 where KRDY falls. -/
theorem cmdEnd_done_leaves (runs : s.ctl.cmd = some op) : LeavesBut [0x1054, 0x2C] s (s.cmdEnd 0) := by
  rw [cmdEnd_runs runs]
  exact ((setRegN_leaves s _ (by decide)).trans (setCtl_leaves ..)).trans (krdyEdge_leaves _ _ (by decide))
theorem regN_cmdEnd_done (runs : s.ctl.cmd = some op) (small : op < 2 ^ 8) : (s.cmdEnd 0).regN 0x001054 = op * 2 ^ 8 := by
  rw [cmdEnd_runs runs, regN_krdyEdge _ _ _ (by decide)]
  refine (regN_setRegN ..).trans ((if_pos rfl).trans ?_)
  omega

/-! ### CTL_ABORT -/

section
variable {v : W32}

theorem abortCmd_key (go : bit v 0 = true) (runs : s.ctl.cmd = some 1 ∨ s.ctl.cmd = some 2) : abortCmd v s = s.cmdEnd 1 :=
  (if_neg (by simp [go])).trans (if_pos (by simpa using runs))
theorem abortCmd_align (go : bit v 0 = true) (runs : s.ctl.cmd = some 3) : abortCmd v s =
    ((if s.regF 0x001044 0 3 = 0 then (s.settle (s.regF 0x001044 0 3) (s.regF 0x001044 4 6) .failed).settle 5 0 .failed
      else s.settle (s.regF 0x001044 0 3) (s.regF 0x001044 4 6) .failed).countEv 0x002000 0x10 1).cmdEnd 1 :=
  (if_neg (by simp [go])).trans ((if_neg (by simp [runs])).trans (if_pos (by simp [runs])))
theorem abortCmd_other (other : s.ctl.cmd ≠ some 1 ∧ s.ctl.cmd ≠ some 2 ∧ s.ctl.cmd ≠ some 3) : abortCmd v s = s := by
  obtain ⟨load, erase, align⟩ := other
  simp [abortCmd, load, erase, align]

/-- A crossing whose alignment is aborted is FAILED, and with KREF the identity crossing (02 R45). -/
def State.abortXing (s : State) (c i : Nat) : State :=
  if c = 0 then (s.settle c i .failed).settle 5 0 .failed else s.settle c i .failed
theorem abortXing_leaves (s : State) (c i : Nat) : LeavesBut cmdRegs s (s.abortXing c i) :=
  have failed := settle_leaves (cls := c) (x := .failed) s i (.inl (by decide))
  .ite (failed.trans (settle_leaves _ _ (.inl (by decide)))) failed
theorem xing_abortXing (s : State) (c : Nat) {i : Nat} (small : i < 64) : (s.abortXing c i).xing c i = .failed := by
  have failed : (s.settle c i .failed).xing c i = .failed := (get_settle ..).trans (if_pos rfl)
  unfold State.abortXing
  split
  · exact (get_settle ..).trans ((if_neg (by unfold xKey; omega)).trans failed)
  · exact failed

theorem abortCmd_leaves (v : W32) (s : State) : LeavesBut cmdRegs s (abortCmd v s) :=
  .ite (.refl _ s) (.ite (cmdEnd_leaves ..) (.ite
    (((abortXing_leaves ..).trans (countEv_leaves _ _ _ (by decide))).trans (cmdEnd_leaves ..)) (.refl _ s)))

end
end

/-! ### Writes while KRDY is low -/

/-- An acknowledged write advances CTL_WRCNT (15 R405). -/
theorem reg_acked_count (s : State) (a : Nat) : (s.acked a).reg 0x00004C = BitVec.ofNat 32 (s.regN 0x00004C + 1) := by
  have counter : ¬ 0x4C = pageOf a + 0x2C := by unfold pageOf; omega
  have last : ¬ 0x4C = 0x50 := by decide
  refine (reg_countPg _ _ _ _ counter).trans ?_
  rw [State.reg_setRegN, if_neg last, State.reg_setRegN, if_pos rfl]

section
variable {s : State} {a : Addr} {v : W32} (up : s.kcpUp = true)
include up

/-- CTL_ATTN and CTL_ABORT leave CTL_WRCNT to their acknowledgement (02 R40). -/
theorem exec_ctl0 {n : Nat} {t : State} (address : a.toNat = n) (which : n = 0x44 ∨ n = 0x48)
    (writes : (s.setUnlock 0 false).bodyWrite n v 0 = (t, true)) (leaves : LeavesBut cmdRegs (s.setUnlock 0 false) t) :
    exec (.registerWrite a v) s = .next (t.acked n) ∧ (t.acked n).out.head? = some (.kcp true 0)
      ∧ (t.acked n).reg 0x00004C = BitVec.ofNat 32 (s.regN 0x00004C + 1) := by
  have acks := kcp_ctl0 up which writes
  rw [← address, BitVec.ofNat_toNat, BitVec.setWidth_eq] at acks
  refine ⟨address ▸ congrArg done acks, rfl, ?_⟩
  rw [reg_acked_count, leaves.regN (by decide)]
  rfl

/-- A write that is refused for KRDY, before its response. -/
def State.busyWrite (s : State) (n : Nat) : State :=
  (if offOf n = 0x0C then s else s.locked n).countPg (pageOf n) 0

theorem exec_busy (busy : s.krdy = false) (word : a.toNat % 4 = 0) (attn : a.toNat ≠ 0x44) (abort : a.toNat ≠ 0x48) :
    exec (.registerWrite a v) s = .next ((s.busyWrite a.toNat).emit (.kcp false 0)) := by
  refine congrArg done ((kcp_write up a v 0).trans ?_)
  rw [hostWrite_busy busy word attn abort]
  rfl

end

theorem busyWrite_leaves (s : State) (n : Nat) : LeavesBut [pageOf n + 0x2C] s (s.busyWrite n) :=
  .trans (.ite (.refl _ s) (setUnlock_leaves ..)) (countPg_leaves _ _ (by simp))
theorem busyWrite_keys (s : State) (n : Nat) : (s.busyWrite n).ctl.keys = s.ctl.keys := by
  unfold State.busyWrite
  rw [countPg_ctl]
  split <;> rfl

/-- Settles O6: the two registers of CTL 0 are written; any other write is refused first. -/
theorem onlyAttentionAndAbortWhileBusy : Obligations.OnlyAttentionAndAbortWhileBusy := by
  intro s a v word up busy
  by_cases attn : a.toNat = 0x44
  · obtain ⟨runs, ends⟩ := exec_ctl0 (v := v) up attn (.inl rfl) rfl ((attnClear_leaves ..).mono (by decide))
    exact ⟨_, runs, fun _ => ends, fun other => absurd attn other⟩
  by_cases abort : a.toNat = 0x48
  · obtain ⟨runs, ends⟩ := exec_ctl0 (v := v) up abort (.inr rfl) rfl (abortCmd_leaves ..)
    exact ⟨_, runs, fun _ => ends, fun _ other => absurd abort other⟩
  have leaves := busyWrite_leaves s a.toNat
  have keys := busyWrite_keys s a.toNat
  have all := leaves.rest
  refine ⟨_, exec_busy up busy word attn abort, fun which => absurd which (by simp [attn, abort]), fun _ _ => ⟨rfl,
    fun x other => leaves.reg x (by simpa using other), ?_⟩⟩
  generalize s.busyWrite a.toNat = t at all keys
  rw [all] at keys ⊢
  exact ⟨rfl, rfl, rfl, rfl, rfl, rfl, rfl, rfl, rfl, rfl, rfl, rfl, keys⟩

end Sys2Proof.Machine
end

section
/-! The control commands through CTL_CMD and CTL_ABORT, and the end of KEY_LOAD, KEY_ERASE and IDENT_SCAN. -/
namespace Sys2Proof.Machine
open Sys2Proof

/-! ### CTL_CMD -/

section
variable {s : State} {v : W32}

/-- An acknowledged write of CTL_CMD; KEY_LOAD, KEY_ERASE and POWER_STATE want CTL 1 unlocked (15 R407). -/
theorem kcpWrite_cmd (up : s.hostUp = true)
    (opened : fld v 0 8 ∉ [1, 2, 5] ∨ s.ctl.unlock.get (fun _ => false) 0x001000 = true) :
    kcpWrite 0x001040 v s = (ctlCmd v (s.setUnlock 0x001000 false)).acked 0x001040 := by
  refine body_write up (by decide) (by decide) (by decide) (by decide) (opened.imp (fun plain => ?_) id) rfl
  have other : [1, 2, 5].contains (fld v 0 8) = false := by simpa using plain
  unfold State.isProtected
  rw [other]
  rfl

section
variable (runs : bit (s.reg 0x001010) 1 = false)
include runs

theorem ctlCmd_key (key : fld v 0 8 = 1 ∨ fld v 0 8 = 2) : ctlCmd v s =
    if s.slotInUse (fld (s.reg 0x001044) 0 12) then (s.cmdStart (fld v 0 8)).cmdEnd 4 else s.cmdStart (fld v 0 8) :=
  (if_neg (by simp [runs])).trans (if_pos (by simpa using key))
theorem ctlCmd_align (align : fld v 0 8 = 3) :
    ctlCmd v s = (s.cmdStart 3).alignCmd (fld (s.reg 0x001044) 0 3) (fld (s.reg 0x001044) 4 6) := by
  simp [ctlCmd, runs, align]
theorem ctlCmd_scan (scan : fld v 0 8 = 4) : ctlCmd v s = s.cmdStart 4 := by
  simp [ctlCmd, runs, scan]
theorem ctlCmd_power (power : fld v 0 8 = 5) : ctlCmd v s = (s.cmdStart 5).powerCmd (fld (s.reg 0x001044) 0 2) := by
  simp [ctlCmd, runs, power]
theorem ctlCmd_bad (bad : fld v 0 8 = 0 ∨ 5 < fld v 0 8) : ctlCmd v s = (s.cmdStart (fld v 0 8)).cmdEnd 2 := by
  have undefined : fld v 0 8 ≠ 1 ∧ fld v 0 8 ≠ 2 ∧ fld v 0 8 ≠ 3 ∧ fld v 0 8 ≠ 4 ∧ fld v 0 8 ≠ 5 := by omega
  simp [ctlCmd, runs, undefined]

end
end

theorem fld_opcode (op : BitVec 8) : fld (BitVec.ofNat 32 op.toNat) 0 8 = op.toNat := by
  have small := op.isLt
  simp only [fld, nfld, BitVec.toNat_ofNat]
  omega

/-- Settles O9: each opcode by what CTL_CMD does with it. -/
theorem controlCommandsStart : Obligations.ControlCommandsStart := by
  intro s op up runs u unlocked a
  have starts : ∀ {v : W32} {t : State}, fld v 0 8 ∉ [1, 2, 5] ∨ unlocked → ctlCmd v u = t →
      done (kcpWrite 0x001040 v s) = .next (t.acked 0x001040) := fun opened does =>
    congrArg done ((kcpWrite_cmd up opened).trans (congrArg (State.acked · 0x001040) does))
  refine ⟨fun opened => starts (.inr opened) (ctlCmd_key (s := u) (v := 1) runs (.inl rfl)),
    fun opened => starts (.inr opened) (ctlCmd_key (s := u) (v := 2) runs (.inr rfl)),
    starts (.inl (by decide)) (ctlCmd_align (s := u) runs rfl), starts (.inl (by decide)) (ctlCmd_scan (s := u) runs rfl),
    fun opened => starts (.inr opened) (ctlCmd_power (s := u) runs rfl), fun bad => starts (.inl ?_) ?_⟩
  · rw [fld_opcode]
    simp only [List.mem_cons, List.not_mem_nil, or_false]
    omega
  · rw [ctlCmd_bad (s := u) runs (by rwa [fld_opcode]), fld_opcode]

/-! ### The end of KEY_LOAD, KEY_ERASE and IDENT_SCAN -/

/-- A key command that ends DONE has changed the slot of its domain, its own state and CTL_CMD_STAT (02 R44). -/
theorem keyEnds_done {s : State} {op : Nat} {k : Option (BitVec 256)} (runs : s.ctl.cmd = some op) (key : op = 1 ∨ op = 2)
    (d : Nat) {t : State} (is : t = (s.keySlot d k).cmdEnd 0) :
    t.ctl.keys.get (fun _ => none) d = k
      ∧ (∀ e, e ≠ d → t.ctl.keys.get (fun _ => none) e = s.ctl.keys.get (fun _ => none) e)
      ∧ t.regN 0x001054 = op * 2 ^ 8 ∧ t.ctl.cmd = none ∧ t.ctl.stage = []
      ∧ t.time = s.time ∧ recs t = recs s ∧ ∀ a, a ≠ 0x001054 → a ≠ 0x00002C → t.reg a = s.reg a := by
  have ended : t.ctl = (s.keySlot d k).ctl.cmdOver op := is ▸ cmdEnd_ctl (s := s.keySlot d k) runs 0
  have leaves : LeavesBut [0x1054, 0x2C] s t :=
    is ▸ (setCtl_leaves _ s _).trans (cmdEnd_done_leaves (s := s.keySlot d k) runs)
  have slots : ∀ e, t.ctl.keys.get (fun _ => none) e = if e = d then k else s.ctl.keys.get (fun _ => none) e := by
    intro e
    rw [ended]
    exact SMap.get_set ..
  refine ⟨(slots d).trans (if_pos rfl), fun e other => (slots e).trans (if_neg other), ?_, ?_, ?_,
    (congrArg State.time leaves.rest).trans rfl, leaves.recs, fun a stat count => leaves.reg a (by simp [stat, count])⟩
  · rw [is]
    exact regN_cmdEnd_done (s := s.keySlot d k) runs (by omega)
  · rw [ended]
    rfl
  · rw [ended]
    exact if_pos (by simpa using key)

/-- Settles O10: the key commands by the slot they store, or SLOT_IN_USE; IDENT_SCAN by its request. -/
theorem controlCommandsEnd : Obligations.ControlCommandsEnd := by
  intro s d
  refine ⟨fun op k which runs free => ?_, fun used => ⟨fun runs => congrArg done (keyEnds_inUse runs used),
    fun runs => congrArg done (keyEnds_inUse runs used), keys_cmdEnd ..⟩, fun runs => congrArg done (if_neg (by simp [runs]))⟩
  have key : op = 1 ∨ op = 2 := which.imp And.left And.left
  have stored : (if op = 1 then some s.stagedKey else none) = k := by
    rcases which with ⟨rfl, rfl⟩ | ⟨rfl, rfl⟩ <;> rfl
  have ends := keyEnds_stores runs free
  rw [stored] at ends
  obtain ⟨slot, others, stat, idle, stage, time, records, regs⟩ := keyEnds_done runs key d ends
  obtain ⟨mem, ctxR, polR, updR, domR, tqR, partR, grdR⟩ := recs_eq_iff.1 records
  refine ⟨keyEnds op s, ?_, slot, others, stat, idle, stage, mem, ctxR, polR, updR, domR, tqR, partR, grdR, time, regs⟩
  rcases key with rfl | rfl <;> rfl

/-! ### CTL_ABORT -/

/-- Settles O11: the write of CTL_ABORT by the command that runs. -/
theorem abortOfAControlCommand : Obligations.AbortOfAControlCommand := by
  intro s v up go defined u c i f
  have aborts : ∀ {t : State}, abortCmd v u = t → exec (.ctlAbort v) s = .next (t.acked 0x000048) := fun does =>
    congrArg done ((kcp_ctl0 up (.inr rfl) (t := abortCmd v u) rfl).trans (congrArg (State.acked · 0x000048) does))
  refine ⟨fun runs => ⟨aborts (abortCmd_key (s := u) go runs), ?_⟩, fun runs => ⟨aborts (abortCmd_align (s := u) go runs), ?_⟩,
    fun other => aborts (abortCmd_other (s := u) ?_)⟩
  · rw [acked_ctl, keys_cmdEnd]
    rfl
  · have small : i < 64 := Nat.mod_lt _ (by decide)
    have moved : (((f.countEv 0x002000 0x10 1).cmdEnd 1).acked 0x000048).ctl.xing = f.ctl.xing := by
      rw [acked_ctl, cmdEnd_xing, countEv_ctl]
    exact (xing_of_ctl moved c i).trans (xing_abortXing u c small)
  · rw [show u.ctl.cmd = s.ctl.cmd from rfl]
    rcases other with runs | runs | runs <;> rw [runs] <;> decide

end Sys2Proof.Machine
end

section
/-! PORT_ALIGN, POWER_STATE and its end: what each makes of its arguments, and what entering and leaving deep park erase. -/
namespace Sys2Proof.Machine
open Sys2Proof

/-! ### PORT_ALIGN -/

section
variable {s : State} {cls idx : Nat}

theorem alignCmd_bad (bad : 5 < cls ∨ portsOf cls ≤ idx) : s.alignCmd cls idx = s.cmdEnd 3 := if_pos (by simpa using bad)

section
variable (defined : cls ≤ 5) (port : idx < portsOf cls)
include defined port

theorem alignCmd_busy (busy : s.alignFree cls = false) : s.alignCmd cls idx = s.cmdEnd 5 :=
  (if_neg (by simp; omega)).trans (if_pos (by simp [busy]))
/-- A counted crossing starts FREQUENCY, and ends ABSENT at once without an OPEN KREF (02 R46, R55). -/
theorem alignCmd_counted (counted : cls ≠ 0 ∧ cls ≠ 5) (free : s.alignFree cls = true) : s.alignCmd cls idx =
    let t := s.setXing (xKey cls idx) .frequency
    let u := if cls = 3 then t.portBad idx else t
    if s.xing 0 0 == .opened then u else (u.settle cls idx .absent).alignDone cls idx := by
  obtain ⟨notKref, notIden⟩ := counted
  exact (if_neg (by simp; omega)).trans ((if_neg (by simp [free])).trans ((if_neg notKref).trans (if_neg notIden)))

end

/-- The alignment of a leaf, Tun or Malt crossing. -/
theorem alignCmd_owned (which : cls = 1 ∨ cls = 2 ∨ cls = 4) (port : idx < portsOf cls) (free : s.alignFree cls = true) :
    s.alignCmd cls idx = if s.xing 0 0 == .opened then s.setXing (xKey cls idx) .frequency
      else ((s.setXing (xKey cls idx) .frequency).settle cls idx .absent).alignDone cls idx := by
  rw [alignCmd_counted (by omega) port (by omega) free]
  simp only [if_neg (show cls ≠ 3 by omega)]
/-- The alignment of a MAC crossing, whose port stops being up (02 R46, 09 R258). -/
theorem alignCmd_mac (port : idx < 16) : s.alignCmd 3 idx =
    if s.xing 0 0 == .opened then (s.setXing (xKey 3 idx) .frequency).portBad idx
      else (((s.setXing (xKey 3 idx) .frequency).portBad idx).settle 3 idx .absent).alignDone 3 idx :=
  alignCmd_counted (by decide) port (by decide) rfl

end

/-! ### POWER_STATE -/

section
variable {s : State} {k : Nat}

theorem powerCmd_bad (bad : 1 < k) : s.powerCmd k = s.cmdEnd 3 := if_pos bad
theorem powerCmd_awake (power : s.dmp.power = 0) : s.powerCmd 0 = s.cmdEnd 0 := if_pos power
theorem powerCmd_leaves (power : s.dmp.power ≠ 0) : s.powerCmd 0 = s.leavePark := if_neg power
theorem powerCmd_parked (power : s.dmp.power = 2) : s.powerCmd 1 = s.cmdEnd 0 := if_pos power
theorem powerCmd_refused (power : s.dmp.power ≠ 2) (holds : s.mayPark = false) : s.powerCmd 1 = s.cmdEnd 5 :=
  (if_neg power).trans (if_pos (by simp [holds]))
theorem powerCmd_parks (power : s.dmp.power ≠ 2) (may : s.mayPark = true) : s.powerCmd 1 = s.setPower 3 :=
  (if_neg power).trans (if_neg (by simp [may]))

theorem powerDone_entered (runs : s.ctl.cmd = some 5) (power : s.dmp.power = 3) : powerDone s = s.enterPark.cmdEnd 0 :=
  (if_neg (by simp [runs])).trans (if_pos power)
theorem powerDone_left (runs : s.ctl.cmd = some 5) (power : s.dmp.power = 4) (inited : s.ctl.sramInit = false)
    (final : ∀ x ∈ xAll, (s.ctl.xing.get xing0 x).final = true) : powerDone s = ((s.setPower 0).timeWakes).cmdEnd 0 :=
  (if_neg (by simp [runs])).trans ((if_neg (by omega)).trans
    (if_pos (by simpa [power, inited] using List.all_eq_true.2 final)))

end

/-! ### Leaving deep park -/

theorem reopen_leaves (s : State) (k : Nat) : LeavesBut cmdRegs s (s.reopen k) :=
  .ite (settle_leaves _ _ (.inr (by decide))) (.ite (setCtl_leaves ..) (settle_leaves _ _ (.inl (by decide))))
theorem reopen_sramInit (s : State) (k : Nat) : (s.reopen k).ctl.sramInit = s.ctl.sramInit := by
  unfold State.reopen
  split
  · rw [settle_ctl]
  · split
    · rfl
    · rw [settle_ctl]

/-- The block as deep park is left, before its crossings align again: SRAM initialisation runs (13 R388). -/
def State.waking (s : State) : State :=
  let t := s.sramGone.setPower 4
  { t with ctl := { t.ctl with sramInit := true } }

theorem leavePark_leaves (s : State) : LeavesBut cmdRegs s.waking s.leavePark :=
  (LeavesBut.foldl reopen_leaves parkXings s.waking).trans (krdyEdge_leaves _ _ (by decide))
theorem leavePark_sramInit (s : State) : s.leavePark.ctl.sramInit = true := by
  unfold State.leavePark
  rw [krdyEdge_ctl]
  exact List.foldlRecOn (motive := fun t : State => t.ctl.sramInit = true) parkXings State.reopen rfl
    fun t inits k _ => (reopen_sramInit t k).trans inits

/-! ### Entering deep park -/

theorem recs_ite {s t u : State} {p : Prop} [Decidable p] (h : recs t = recs s) (k : recs u = recs s) :
    recs (if p then t else u) = recs s := by split <;> assumption

theorem setFlow_recs (s : State) (f : Flow) : recs (s.setFlow f) = recs s := by
  unfold State.setFlow
  refine recs_ite rfl (recs_ite rfl ?_)
  split
  · rfl
  · exact (countEv_recs ..).trans rfl
theorem chargeFlow_recs (s : State) (m : Msg) : recs (s.chargeFlow m) = recs s := by
  unfold State.chargeFlow
  split
  · exact setFlow_recs ..
  · rfl
theorem countSent_recs (s : State) (m : Msg) : recs (s.countSent m) = recs s := by
  unfold State.countSent
  exact recs_ite (chargeFlow_recs s m) rfl
theorem portless_recs (s : State) : recs s.portless = recs s :=
  List.foldlRecOn (motive := (recs · = recs s)) _ _ rfl fun t same m _ => (countSent_recs t m).trans same
theorem timePort_recs (s : State) : recs s.timePort = recs s := recs_ite rfl rfl
/-- A MAC port that stops being good changes Quicon, and nothing of memory or of the records behind windows (09 R258). -/
theorem portBad_recs (s : State) (p : Nat) : recs (s.portBad p) = recs s := by
  unfold State.portBad
  refine recs_ite rfl ((timePort_recs _).trans ((portless_recs _).trans ((raise_recs ..).trans ?_)))
  rfl

theorem setTime_recs (s : State) (v : Nat) : recs (s.setTime v) = recs s := by
  unfold State.setTime
  refine (tickHold_recs _).trans (recs_ite ?_ (recs_ite rfl (recs_ite rfl rfl)))
  exact (raise_recs ..).trans rfl
theorem exchLost_recs (s : State) : recs s.exchLost = recs s := by
  unfold State.exchLost
  split
  · rfl
  · exact (countEv_recs ..).trans rfl
theorem timeParks_recs (s : State) : recs s.timeParks = recs s :=
  recs_ite ((setTime_recs ..).trans (exchLost_recs s)) (recs_ite (exchLost_recs s) rfl)

theorem setPower_recs (s : State) (v : Nat) : recs (s.setPower v) = recs s := rfl
/-- Deep park erases every record behind a window and leaves package memory (13 R388). -/
theorem enterPark_recs (s : State) : recs s.enterPark = (s.mem, [], [], [], [], [], [], []) := by
  have closed : ∀ t : State, recs (parkXings.foldl (fun t k => t.settle (k / 64) (k % 64) .absent) t) = recs t := fun t =>
    (LeavesBut.foldl (fun t k => settle_leaves t (k % 64) (.inl (by decide))) parkXings t).recs
  have down : recs ((List.range 16).foldl (fun t p => t.portBad p) s) = recs s :=
    List.foldlRecOn (motive := (recs · = recs s)) _ _ rfl fun t same p _ => (portBad_recs t p).trans same
  have erased : ∀ t : State, recs t.sramClear = (t.mem, [], [], [], [], [], [], []) := fun _ => rfl
  unfold State.enterPark
  rw [setPower_recs, timeParks_recs, closed, erased, (recs_eq_iff.1 down).1]

/-- Settles O12: PORT_ALIGN and POWER_STATE by their conditions, and deep park by what it erases. -/
theorem portAlignAndPower : Obligations.PortAlignAndPower := by
  intro s cls idx k
  have awake := leavePark_leaves s
  obtain ⟨mem, ctxR, polR, -, domR, -, partR, -⟩ := recs_eq_iff.1 (show recs s.enterPark =
    recs { State.reset with mem := s.mem } from enterPark_recs s)
  refine ⟨alignCmd_bad, alignCmd_busy, rfl, fun which port free opened => ?_, fun _ port opened => ?_,
    fun _ port shut => ?_, fun which port free shut => ?_, rfl, powerCmd_bad, powerCmd_awake, powerCmd_parked,
    fun power => ⟨powerCmd_leaves power, (congrArg (fun t : State => t.dmp.power) awake.rest).trans rfl,
      leavePark_sramInit s, (congrArg State.ctxR awake.rest).trans rfl, (congrArg State.polR awake.rest).trans rfl,
      awake.mem, (State.leavePark_keeps (.refl s)).keys⟩,
    powerCmd_refused, powerCmd_parks,
    fun runs power => ⟨congrArg done (powerDone_entered runs power), keys_enterPark s, ctxR, partR, domR, rfl, mem⟩,
    fun runs power inited final => congrArg done (powerDone_left runs power inited final)⟩
  · exact (alignCmd_owned which port free).trans (if_pos (by simpa using opened))
  · exact (alignCmd_mac port).trans (if_pos (by simpa using opened))
  · exact (alignCmd_mac port).trans (if_neg (by simpa using shut))
  · exact (alignCmd_owned which port free).trans (if_neg (by simpa using shut))

end Sys2Proof.Machine
end

section
/-! Resets of the block, the start-up sequence and the reset of the control port. -/
namespace Sys2Proof.Machine
open Sys2Proof

/-! ### Resets of the block -/

/-- A reset of the block leaves State.reset but for the queue, the outputs, package memory, time and TIME_EPOCH (02 Table 2-7). -/
theorem blockReset_eq (s : State) (epoch : Nat) (t : TimeSt) : ∃ o, s.blockReset epoch t = { State.reset with
    pending := s.pending, out := o, fresh := s.fresh, mem := s.mem, time := { t with tickHigh := 0 },
    regs := State.reset.regs.set regReset 0x100048 (BitVec.ofNat 32 epoch) } := by
  unfold State.blockReset
  dsimp only
  split <;> split <;> exact ⟨_, rfl⟩

section
variable (s : State) (epoch : Nat) (t : TimeSt)

theorem reg_blockReset (a : Nat) : (s.blockReset epoch t).reg a =
    if a = 0x100048 then BitVec.ofNat 32 epoch else regReset a := by
  obtain ⟨o, is⟩ := blockReset_eq s epoch t
  rw [is]
  refine (SMap.get_set regReset State.reset.regs 0x100048 a (BitVec.ofNat 32 epoch)).trans ?_
  split
  · rfl
  · rename_i other
    exact if_neg (Ne.symm other)

/-- What a reset of the block leaves, whatever its epoch and time (02 Table 2-7). -/
theorem blockReset_ends : let u := s.blockReset epoch t
    u.ctxR = [] ∧ u.ptR = [] ∧ u.polR = [] ∧ u.bslR = [] ∧ u.pckR = [] ∧ u.mshR = [] ∧ u.updR = [] ∧ u.domR = []
      ∧ u.tqR = [] ∧ u.partR = [] ∧ u.grdR = [] ∧ u.ctl = State.reset.ctl ∧ u.qcn = State.reset.qcn ∧ u.tng = State.reset.tng
      ∧ u.mlt = State.reset.mlt ∧ u.grd = State.reset.grd ∧ u.hop = State.reset.hop ∧ u.mem = s.mem
      ∧ u.pending = s.pending := by
  obtain ⟨o, is⟩ := blockReset_eq s epoch t
  rw [is]
  exact ⟨rfl, rfl, rfl, rfl, rfl, rfl, rfl, rfl, rfl, rfl, rfl, rfl, rfl, rfl, rfl, rfl, rfl, rfl, rfl⟩

end

/-- A warm reset keeps TIME_EPOCH and lets KTIME keep counting (02 R50). -/
def State.warmed (s u : State) : State := u.blockReset s.epoch { State.reset.time with
  ktime := s.time.ktime, frac := s.time.frac, tick := s.time.tick, tickHigh := s.time.tickHigh }
/-- The state once a free value is drawn. -/
def State.drawn (s : State) : State := { s with fresh := s.fresh + 1 }

section
variable {s : State} {n : Nat}

theorem pulse_full {least : Nat} (long : least ≤ n) : s.pulse least n = (true, s) := if_pos long
theorem pulse_short {least : Nat} (short : n < least) :
    s.pulse least n = (Config.shortPulseResets s.fresh, s.drawn) := if_neg (Nat.not_le.2 short)

theorem warmReset_pulsed {yes : Bool} {u : State} (high : s.ctl.rstLow = false) (pulsed : s.pulse 100 n = (yes, u)) :
    warmReset n s = if yes then s.warmed u else u.krdyDip := by
  unfold warmReset
  rw [if_neg (by simp [high]), pulsed]
  rfl

end

/-- Settles O13: either reset is a reset of the block, with its own epoch and time. -/
theorem coldAndWarmReset : Obligations.ColdAndWarmReset := by
  intro s n high long i which
  obtain ⟨e, t, runs, epoch, ktime⟩ : ∃ e t, exec i s = .next (s.blockReset e t)
      ∧ e % 2 ^ 32 = (if i = .coldReset then (s.regN 0x100048 + 1) % 2 ^ 32 else s.regN 0x100048)
      ∧ t.ktime = if i = .coldReset then 0 else s.time.ktime := by
    rcases which with rfl | rfl
    · exact ⟨_, _, rfl, rfl, rfl⟩
    · exact ⟨_, _, congrArg done ((warmReset_pulsed high (pulse_full long)).trans (if_pos rfl)),
        Nat.mod_eq_of_lt (regN_lt ..), rfl⟩
  exact ⟨_, runs, fun a other => (reg_blockReset s e t a).trans (if_neg other),
    (congrArg BitVec.toNat ((reg_blockReset s e t _).trans (if_pos rfl))).trans ((BitVec.toNat_ofNat ..).trans epoch),
    (ktime_blockReset s e t).trans ktime, blockReset_ends s e t⟩

/-! ### Reset of the control port -/

/-- A write that has reached the core when the control port is reset takes effect (02 R59). -/
def State.reachedWrite (s : State) (req : Option KcpReq) (reached : Bool) : State :=
  match req with
  | some q =>
    if q.wr && reached && !s.ctl.rstLow && s.ctl.kcpAligned then (hostWrite q.addr.toNat q.val q.meet s).1 else s
  | none => s
/-- The control port is reset: its crossing is not aligned, and no transfer is outstanding (02 R58). -/
def State.portReset (s : State) : State :=
  krdyEdge s.krdy { s with ctl := { s.ctl with kcpAligned := false, kcpPend := none } }

theorem kcpReset_pulsed {s u : State} {n : Nat} {yes : Bool} (pulsed : s.pulse 4 n = (yes, u)) (req : Option KcpReq)
    (reached : Bool) : kcpReset n req reached s = if yes then (u.reachedWrite req reached).portReset
      else match req with | some q => kcp q u | none => u := by
  unfold kcpReset
  rw [pulsed]
  rfl

/-- Settles O14: a pulse that is too short draws its outcome, and then resets in full or not at all. -/
theorem shortResetPulses : Obligations.ShortResetPulses := by
  intro s n req reached full u w
  refine ⟨fun high short => ?_, fun short => ?_⟩
  · have pulsed := warmReset_pulsed high (pulse_short short)
    exact ⟨fun yes => congrArg done (pulsed.trans (if_pos yes)),
      fun no => congrArg done (pulsed.trans (if_neg (Bool.eq_false_iff.1 no)))⟩
  · have pulsed := kcpReset_pulsed (s := s) (pulse_short short) req reached
    exact ⟨fun yes => congrArg done (pulsed.trans (if_pos yes)),
      fun no => congrArg done (pulsed.trans (if_neg (Bool.eq_false_iff.1 no)))⟩

/-! ### Start-up -/

section
variable {s : State} {a : Nat} {v : W32} {r : RegRow}

/-- A register that holds a value takes the bits that its table lists, where its page does not refuse them (00 R5). -/
theorem putReg_takes (row : regRow a = some r) (holds : r.acc = .rw ∨ r.acc = .rws)
    (fits : s.refuses a (masked r.mask v).toNat = none) (single : lowOf rwPairs a = none) :
    s.putReg a v = (s.setReg a (masked r.mask v)).afterReg a := by
  have writable : (r.acc != .rw && r.acc != .rws) = false := by rcases holds with h | h <;> rw [h] <;> rfl
  unfold State.putReg
  rw [row]
  dsimp only
  rw [writable, if_neg Bool.false_ne_true, fits, single]

/-- CTL_PORT_EXPECT of an index (15 Table 15-6). -/
abbrev portExpect (idx : BitVec 2) : Nat := 0x002050 + 4 * idx.toNat

theorem portExpect_cases (idx : BitVec 2) :
    portExpect idx = 0x2050 ∨ portExpect idx = 0x2054 ∨ portExpect idx = 0x2058 ∨ portExpect idx = 0x205C := by
  unfold portExpect
  omega

theorem afterReg_portExpect (idx : BitVec 2) :
    s.afterReg (portExpect idx) = if s.someMissing then s.err 0x002000 8 else s := by
  have which := portExpect_cases idx
  exact if_pos (by simp only [Bool.and_eq_true, decide_eq_true_eq]; omega)
/-- CTL_PORT_EXPECT is written as a register that holds a value; its page refuses none, and it is no half of a pair. -/
theorem portExpect_takes (s : State) (idx : BitVec 2) (v : W32) :
    s.bodyWrite (portExpect idx) v 0 = (s.putReg (portExpect idx) v, true) ∧ s.refuses (portExpect idx) v.toNat = none
      ∧ lowOf rwPairs (portExpect idx) = none := by
  have which := portExpect_cases idx
  generalize portExpect idx = a at which
  rcases which with rfl | rfl | rfl | rfl <;> exact ⟨rfl, rfl, rfl⟩
theorem portExpect_holds {idx : BitVec 2} (row : regRow (portExpect idx) = some r) : r.acc = .rw ∨ r.acc = .rws := by
  have rws : ∀ idx : BitVec 2, (regRow (portExpect idx)).all (fun r => r.acc == .rws) = true := by decide +kernel
  have here := rws idx
  rw [row] at here
  exact .inr (by simpa using here)

/-- An acknowledged write of CTL_PORT_EXPECT (02 R56). -/
theorem kcpWrite_portExpect {idx : BitVec 2} (up : s.hostUp = true) (row : regRow (portExpect idx) = some r) :
    kcpWrite (portExpect idx) v s =
      (((s.setUnlock 0x002000 false).setReg (portExpect idx) (masked r.mask v)).afterReg (portExpect idx)).acked
        (portExpect idx) := by
  have small := idx.isLt
  have page : pageOf (portExpect idx) = 0x002000 := by unfold pageOf portExpect; omega
  have free : s.isProtected (portExpect idx) v = false := by
    have set : offOf (portExpect idx) ≠ 0x1C := by unfold offOf portExpect; omega
    have elsewhere : portExpect idx ≠ 0x1040 ∧ portExpect idx ≠ 0xE01054 ∧ portExpect idx ≠ 0xC00048 := by
      unfold portExpect
      omega
    simp [State.isProtected, set, elsewhere]
  obtain ⟨puts, -, single⟩ := portExpect_takes (s.setUnlock 0x002000 false) idx v
  obtain ⟨-, fits, -⟩ := portExpect_takes (s.setUnlock 0x002000 false) idx (masked r.mask v)
  refine body_write up (by unfold portExpect; omega) (by unfold portExpect; omega) (regRow_page row) (regRow_off row)
    (.inl free) ?_
  unfold State.locked
  rw [page, puts, putReg_takes row (portExpect_holds row) fits single]

end

/-- Settles O15: each of the five commands by its condition. -/
theorem startUpSequence : Obligations.StartUpSequence := by
  intro s n req reached idx v r al w e x
  refine ⟨fun low => congrArg done (if_pos low), fun high => congrArg done (if_neg (Bool.eq_false_iff.1 high)),
    fun high apart => congrArg done (if_neg (by simp [high, apart])),
    fun long => congrArg done ((kcpReset_pulsed (s := s) (pulse_full long) req reached).trans (if_pos rfl)),
    fun up row => congrArg done ((kcpWrite_portExpect up row).trans (congrArg (State.acked · e) (afterReg_portExpect idx)))⟩

end Sys2Proof.Machine
end

section
/-! How the phases of a crossing follow one another, and what the end of PRESENCE makes of every crossing. -/
namespace Sys2Proof.Machine
open Sys2Proof

/-! ### FREQUENCY, FILL and LOCK -/

/-- A crossing reaches a final status, which ends a PORT_ALIGN that runs on it (02 R46, R55). -/
def State.xingEnds (s : State) (c i : Nat) (x : Xing) : State :=
  if s.aligning c i then (s.settle c i x).alignDone c i else krdyEdge s.krdy (s.settle c i x)

section
variable {s : State} {c i : Nat} {ph x : Xing} (high : s.ctl.rstLow = false) (now : s.xing c i = ph)
include high now

theorem phaseEnds_goesOn (phase : x.final = false) : s.phaseEnds c i ph x = s.setXing (xKey c i) x :=
  (if_neg (by simp [high, now])).trans (if_pos (by simp [phase]))
theorem phaseEnds_final (final : x.final = true) : s.phaseEnds c i ph x = s.xingEnds c i x :=
  (if_neg (by simp [high, now])).trans (if_neg (by simp [final]))

theorem phaseEnds_frequency (n : Nat) : s.phaseEnds c i ph (freqOf c n) =
    if n = 0 then s.xingEnds c i .absent
    else if (accepted c).1 ≤ n ∧ n ≤ (accepted c).2 then s.setXing (xKey c i) .fill else s.xingEnds c i .badFreq := by
  unfold freqOf
  by_cases silent : n = 0
  · rw [if_pos silent, if_pos silent, phaseEnds_final high now rfl]
  · rw [if_neg silent, if_neg silent]
    by_cases within : (accepted c).1 ≤ n ∧ n ≤ (accepted c).2
    · rw [if_pos within, if_pos (by simpa using within), phaseEnds_goesOn high now rfl]
    · rw [if_neg within, if_neg (by simpa using within), phaseEnds_final high now rfl]
theorem phaseEnds_fill (ts : List W32) : s.phaseEnds c i ph (if ts = fillTokens then .lock else .failed) =
    if ts = fillTokens then s.setXing (xKey c i) .lock else s.xingEnds c i .failed := by
  split
  · exact phaseEnds_goesOn high now rfl
  · exact phaseEnds_final high now rfl
theorem phaseEnds_lock (ok : Bool) : s.phaseEnds c i ph (if ok then .opened else .failed) =
    s.xingEnds c i (if ok then .opened else .failed) :=
  phaseEnds_final high now (by cases ok <;> rfl)

end

/-! ### PRESENCE -/

/-- Where each crossing of a list takes a status in turn, all of them have it, and no other moves. -/
theorem get_foldl_xing {f : State → Nat → State} {x : Xing} {j : Nat}
    (each : ∀ s k, (f s k).ctl.xing.get xing0 j = if j = k then x else s.ctl.xing.get xing0 j) (ks : List Nat) (s : State) :
    (ks.foldl f s).ctl.xing.get xing0 j = if j ∈ ks then x else s.ctl.xing.get xing0 j := by
  induction ks generalizing s with
  | nil => rfl
  | cons k ks ih =>
    rw [List.foldl_cons, ih, each]
    by_cases here : j = k <;> by_cases later : j ∈ ks <;> simp [here, later]

theorem get_setXing (s : State) (k : Nat) (x : Xing) (j : Nat) :
    (s.setXing k x).ctl.xing.get xing0 j = if j = k then x else s.ctl.xing.get xing0 j := SMap.get_set ..
theorem get_settleKey (s : State) (k : Nat) (x : Xing) (j : Nat) :
    (s.settle (k / 64) (k % 64) x).ctl.xing.get xing0 j = if j = k then x else s.ctl.xing.get xing0 j := by
  rw [get_settle, show xKey (k / 64) (k % 64) = k from Nat.div_add_mod k 64]

theorem portsOf_le (c : Nat) : portsOf c ≤ 64 := by
  unfold portsOf
  split <;> decide
theorem mem_xAll {c i : Nat} (cls : c < 6) (port : i < portsOf c) : xKey c i ∈ xAll := by
  simp only [xAll, List.mem_flatten, List.mem_map, List.mem_range]
  exact ⟨_, ⟨c, cls, rfl⟩, by simpa using ⟨i, port, rfl⟩⟩

/-- The leaf, Tun, MAC and Malt crossings that wait in PRESENCE (02 R53, Table 2-8). -/
def State.waitingXings (s : State) : List Nat :=
  xAll.filter fun k => 64 ≤ k && k < 320 && s.ctl.xing.get xing0 k == .presence

theorem mem_waitingXings {s : State} {c i : Nat} (cls : 1 ≤ c ∧ c ≤ 4) (port : i < portsOf c) :
    xKey c i ∈ s.waitingXings ↔ s.xing c i = .presence := by
  have small := portsOf_le c
  have counted : 64 ≤ xKey c i ∧ xKey c i < 320 := by unfold xKey; omega
  simp [State.waitingXings, List.mem_filter, mem_xAll (c := c) (i := i) (by omega) port, counted, State.xing]
theorem waitingXings_counted {s : State} {k : Nat} (waits : k ∈ s.waitingXings) : 64 ≤ k ∧ k < 320 := by
  have within := (List.mem_filter.1 waits).2
  simp only [Bool.and_eq_true, decide_eq_true_eq] at within
  exact within.1

section
variable {s : State} {edge : Bool}

/-- KREF and the identity crossing have the status that the end of PRESENCE gives them (02 R46, R53). -/
def State.krefSeen (s : State) (edge : Bool) : State :=
  let x : Xing := if edge then .opened else .absent
  (s.settle 0 0 x).settle 5 0 x

theorem get_krefSeen (j : Nat) : (s.krefSeen edge).ctl.xing.get xing0 j =
    if j = xKey 5 0 ∨ j = xKey 0 0 then (if edge then .opened else .absent) else s.ctl.xing.get xing0 j := by
  unfold State.krefSeen
  rw [get_settle, get_settle]
  by_cases iden : j = xKey 5 0 <;> by_cases kref : j = xKey 0 0 <;> simp [iden, kref]

/-- The end of PRESENCE after a reset, before KRDY follows. -/
def State.presenceOver (s : State) (edge : Bool) : State :=
  let t := s.krefSeen edge
  if edge then t.waitingXings.foldl (fun t k => t.setXing k .frequency) t
  else t.waitingXings.foldl (fun t k => t.settle (k / 64) (k % 64) .absent) t

theorem alignPresence_afterReset (high : s.ctl.rstLow = false) (waits : s.xing 0 0 = .presence)
    (reset : s.aligning 0 0 = false) : alignPresence edge s = krdyEdge s.krdy (s.presenceOver edge) :=
  (if_neg (by simp [high, waits])).trans (if_neg (by simp [reset]))

theorem get_presenceOver (j : Nat) : (s.presenceOver edge).ctl.xing.get xing0 j =
    if j ∈ (s.krefSeen edge).waitingXings then (if edge then .frequency else .absent)
    else (s.krefSeen edge).ctl.xing.get xing0 j := by
  cases edge with
  | true => exact get_foldl_xing (fun t k => get_setXing t k .frequency j) _ _
  | false => exact get_foldl_xing (fun t k => get_settleKey t k .absent j) _ _

/-- A crossing outside the counted classes keeps what the end of PRESENCE gives it. -/
theorem xing_presenceOver_other {c : Nat} (which : c = 0 ∨ c = 5) :
    (s.presenceOver edge).xing c 0 = if edge then .opened else .absent := by
  have outside : xKey c 0 ∉ (s.krefSeen edge).waitingXings := fun waits => by
    have within := waitingXings_counted waits
    unfold xKey at within
    omega
  refine (get_presenceOver _).trans ((if_neg outside).trans ((get_krefSeen _).trans (if_pos ?_)))
  rcases which with rfl | rfl
  · exact .inr rfl
  · exact .inl rfl
theorem xing_presenceOver_counted {c i : Nat} (cls : 1 ≤ c ∧ c ≤ 4) (port : i < portsOf c) :
    (s.presenceOver edge).xing c i =
      if s.xing c i = .presence then (if edge then .frequency else .absent) else s.xing c i := by
  have small := portsOf_le c
  have kept : (s.krefSeen edge).xing c i = s.xing c i :=
    (get_krefSeen _).trans (if_neg (by unfold xKey; omega))
  refine (get_presenceOver _).trans ?_
  rw [← kept]
  simp only [mem_waitingXings cls port]
  rfl

end

/-- Settles O16: a phase ends in the next or in a final status; PRESENCE after a reset ends for every crossing at once. -/
theorem crossingsAlign : Obligations.CrossingsAlign := by
  intro s cls idx high c i ends
  refine ⟨fun counted => ?_, fun edge waits reset => ?_⟩
  · have port := built_of_counted counted
    have runs : ∀ {t u : State}, t = u → ofPort c i t = .next u := fun same => (ofPort_built _ port).trans (congrArg _ same)
    exact ⟨fun n now => runs (phaseEnds_frequency high now n), fun ts now => runs (phaseEnds_fill high now ts),
      fun ok now => runs (phaseEnds_lock high now ok)⟩
  · have moved := congrArg Ctl.xing (krdyEdge_ctl s.krdy (s.presenceOver edge))
    exact ⟨_, congrArg done (alignPresence_afterReset high waits reset),
      (xing_of_ctl moved 0 0).trans (xing_presenceOver_other (.inl rfl)),
      (xing_of_ctl moved 5 0).trans (xing_presenceOver_other (.inr rfl)),
      fun k j lo hi port => (xing_of_ctl moved k j).trans (xing_presenceOver_counted ⟨lo, hi⟩ port)⟩

end Sys2Proof.Machine
end

section
/-! What a transfer of a window's DATA register does, and a read of a counter that the read clears. -/
namespace Sys2Proof.Machine
open Sys2Proof

/-! ### Reads -/

section
variable {s : State} {n : Nat} {x : Win}

/-- A served read of an aligned address (02 R30). -/
theorem kcpRead_eq (up : s.kcpUp = true) (space : n < 2 ^ 24) :
    kcpRead n s = (hostRead n s).2.emit (.kcp true (hostRead n s).1) := by
  unfold kcpRead
  rw [kcp_read up, BitVec.toNat_ofNat, Nat.mod_eq_of_lt space]

theorem hostRead_window (word : n % 4 = 0) (page : (pageRow n).isSome = true) (window : winOf n = some x) :
    hostRead n s = s.readWin n x := by
  have aligned : n / 4 * 4 = n := by omega
  have present : (pageRow n).isNone = false := by simpa using page
  unfold hostRead
  simp only [aligned, present, window, Bool.false_eq_true, if_false]

/-- With no half latched, a window shows the word that it selects (15 R403). -/
theorem readWin_unlatched (unlatched : (s.pair n).latch = none) :
    (s.readWin n x).1 = s.winRead n (s.winSel x) (s.winWord x) := by
  unfold State.readWin
  simp only [unlatched]
  rfl
/-- The read of a low word latches its high word (02 R47). -/
theorem readWin_latches (low : s.winWord x ∈ winLows n (s.winSel x)) :
    (s.readWin n x).2 = (s.setPair n { s.pair n with
      latch := some (s.winWord x + 1, s.winRead n (s.winSel x) (s.winWord x + 1)) }).winNext n x := by
  have low' : (winLows n (s.winSel x)).contains (s.winWord x) = true := by simpa using low
  unfold State.readWin
  simp only [low', if_true]

end

/-! ### Writes -/

section
variable {s : State} {n : Nat} {x : Win} {v : W32}

/-- A low word is staged, and nothing is stored (02 R47). -/
theorem writeWin_stages (inside : s.winWord x < winWrap n (s.winSel x))
    (accepted : (s.locked n).winRefuse n (s.winSel x) (s.winWord x) v = none)
    (low : s.winWord x ∈ stagedLows n (s.winSel x)) : (s.locked n).writeWin n x v =
      ((((s.locked n).unstage n).setPair n { s.pair n with stage := some (s.winWord x, v) }).winNext n x, true) := by
  have later : ¬ winWrap n ((s.locked n).winSel x) ≤ (s.locked n).winWord x := Nat.not_le.2 inside
  have low' : (stagedLows n (s.winSel x)).contains (s.winWord x) = true := by simpa using low
  unfold State.writeWin
  dsimp only
  rw [if_neg later, show (s.locked n).winRefuse n ((s.locked n).winSel x) ((s.locked n).winWord x) v = none from accepted]
  exact if_pos low'

/-- A write drops what every other window and pair of its page has staged (02 R47). -/
theorem pair_foldl_unstage (ks : List Nat) (s : State) (k : Nat) :
    (ks.foldl (fun t j => t.setPair j { t.pair j with stage := none }) s).pair k =
      if k ∈ ks then { s.pair k with stage := none } else s.pair k := by
  have one : ∀ (t : State) (j : Nat) (p : Pair), (t.setPair j p).pair k = if k = j then p else t.pair k :=
    fun _ _ _ => SMap.get_set ..
  induction ks generalizing s with
  | nil => rfl
  | cons j js ih =>
    rw [List.foldl_cons, ih, one]
    by_cases here : k = j <;> by_cases later : k ∈ js <;> simp [here, later]
theorem stage_unstage (s : State) {n k : Nat} (page : pageOf k = pageOf n) (other : k ≠ n) :
    ((s.unstage n).pair k).stage = none := by
  unfold State.unstage
  rw [pair_foldl_unstage]
  split
  · rfl
  · rename_i unlisted
    have absent : ∀ e ∈ s.ctl.pairs, e.1 ≠ k := fun e listed same =>
      unlisted (List.mem_filter.2 ⟨List.mem_map.2 ⟨e, listed, same⟩, by simp [page, other]⟩)
    exact congrArg Pair.stage (SMap.get_none pair0 absent)

end

/-! ### Counters that a read clears -/

/-- The counters that a read clears are no windows and no halves of a pair (15 Table 15-2, 00 R5). -/
theorem rows_rc : regRows.all (fun r => r.acc != .rc || ((winOf r.addr).isNone
    && !(rwPairs ++ roPairs).contains r.addr && !(rwPairs ++ roPairs).contains (r.addr - 4))) = true := by decide +kernel

section
variable {s : State} {n : Nat}

theorem winOf_isNone (n : Nat) : (winOf n).isNone = (winOf (inst0 n)).isNone := by
  have same : inst0 (inst0 n) = inst0 n := by unfold inst0 instOf; omega
  unfold winOf
  rw [same]
  split <;> rfl

/-- What such a counter is not. -/
theorem rc_alone (word : n % 4 = 0) (counter : hasAcc n .rc = true) :
    winOf n = none ∧ lowOf (rwPairs ++ roPairs) n = none := by
  cases row : regRow n with
  | none => simp [hasAcc, row] at counter
  | some r =>
    obtain ⟨listed, addr⟩ := find_off row
    have body := regRow_off row
    have acc : r.acc = .rc := by simpa [hasAcc, row] using counter
    have here : inst0 (n / 4 * 4) = inst0 n := by rw [show n / 4 * 4 = n by omega]
    have before : inst0 n - 4 = inst0 (n - 4) := by
      unfold offOf at body
      unfold inst0 instOf
      omega
    have alone := List.all_eq_true.1 rows_rc r listed
    rw [acc, addr, here, before, ← winOf_isNone] at alone
    simp only [bne_self_eq_false, Bool.false_or, Bool.and_eq_true, Bool.not_eq_true', Option.isNone_iff_eq_none] at alone
    obtain ⟨⟨noWindow, notLow⟩, notHigh⟩ := alone
    refine ⟨noWindow, ?_⟩
    unfold lowOf
    rw [notLow, notHigh]
    rfl

/-- A read of a counter that it clears drives its value and leaves zero (00 R5). -/
theorem hostRead_rc (word : n % 4 = 0) (page : (pageRow n).isSome = true) (counter : hasAcc n .rc = true)
    (yields : n ≠ 0x300054) (events : n ≠ 0x50004C) : hostRead n s = (s.peek n, s.setReg n 0) := by
  obtain ⟨noWindow, single⟩ := rc_alone word counter
  have aligned : n / 4 * 4 = n := by omega
  have present : (pageRow n).isNone = false := by simpa using page
  unfold hostRead
  simp only [aligned, present, noWindow, Bool.false_eq_true, if_false]
  split
  · exact absurd counter (by decide +kernel)
  · exact absurd counter (by decide +kernel)
  · exact absurd rfl yields
  · exact absurd rfl events
  · rw [single]
    exact if_pos counter

end

/-- Settles O17: the reads by what the window shows, the writes by the word that the window selects, and the counters. -/
theorem windowDataTransfers : Obligations.WindowDataTransfers := by
  intro s a v x word page n u sel w lows p
  have space : n < 2 ^ 24 := a.isLt
  refine ⟨fun window up => ⟨?_, readWin_unlatched, fun _ same low => readWin_latches (same ▸ low)⟩,
    fun window writable up opened inside accepted => ?_, fun k samePage other => stage_unstage u samePage other,
    fun counter yields events up => ?_⟩
  · have reads := kcpRead_eq up space
    rw [hostRead_window word page window] at reads
    exact congrArg done reads
  · have stores : ∀ {lo : Option W32}, w ∉ lows → s.lowHalf n x = lo → exec (.windowDataWrite a v) s =
        .next (((((u.unstage n).setPair n { p with stage := none }).winPut n sel w lo v).winNext n x).acked n) :=
      fun notLow half => half ▸ congrArg done
        (kcpWrite_takes up space word page window writable opened ⟨inside, accepted, notLow⟩)
    refine ⟨fun low => congrArg done (win_write up space word page window writable opened
      (writeWin_stages inside accepted low)), fun notLow alone => stores notLow (lowHalf_alone alone),
      fun y notLow later low staged => stores notLow (lowHalf_staged (k := w - 1) ?_ low staged)⟩
    exact (Nat.succ_pred_eq_of_pos later).symm
  · have reads := kcpRead_eq up space
    rw [hostRead_rc word page counter yields events] at reads
    exact congrArg done reads

end Sys2Proof.Machine
end
